-- ==== Sys2Proof/Word.lean ====
section
/-! DEFINITION. The machine words of the block: bytes, 32-bit and 64-bit words, byte strings. -/

namespace Sys2Proof

/-- One byte. -/
abbrev Byte := BitVec 8
/-- A 32-bit word: the width of every BAR0 register (R677). -/
abbrev Word32 := BitVec 32
/-- A 64-bit word: a steward scalar register, a kernel instruction word. -/
abbrev Word64 := BitVec 64
/-- A string of bytes, lowest address first (R7: little-endian structures). -/
abbrev Bytes := List Byte

end Sys2Proof
end

