-- ==== Sys2Proof/Syntax.lean ====
section
/-! DEFINITION. The commands of the block: one constructor of `Instr` per row of the opcode table, with the row's
operands. A kernel instruction row carries the Pavilion whose steward issues it and the fields of its word; an event
row carries what the event brings with it from outside (log 1, log 4). -/

namespace Sys2Proof

/-- A physical Pavilion, 0 to 159 (R24). -/
abbrev Pv := Fin 160
/-- The steward that fetches an instruction, and the corrected bed errors met at the fetch and at those reads of the instruction
that its row gives no operand for (R112). -/
structure Sw where
  pav : Pv
  ce : Nat
  deriving DecidableEq, Repr
/-- The number of the steward's Pavilion. -/
def Sw.val (p : Sw) : Nat := p.pav.val
/-- A queue, 0 to 4,095. -/
abbrev Qx := Fin 4096
/-- How the host accesses of a queue's command end: done, with a translation that gives no permission (R314), or with a completer
abort or poison (Table 7-17). -/
inductive HostEnd where
  | ok | noPermission | fault
  deriving DecidableEq, Repr
/-- An error on CXL.cachemem met with an access (R324): its bit of the RAS status registers. -/
structure RasErr where
  uncorrectable : Bool
  bit : BitVec 5
  deriving DecidableEq, Repr
/-- A queue, how the host accesses of its command end, and the protocol or data-parity error met on the way. -/
structure Qh where
  q : Qx
  res : HostEnd
  ras : Option RasErr
  deriving DecidableEq, Repr
/-- The queue's number. -/
def Qh.val (x : Qh) : Nat := x.q.val
/-- A queue whose doorbell line is snooped, and the error met with the snoop. -/
structure Qs where
  q : Qx
  ras : Option RasErr
  deriving DecidableEq, Repr
/-- The queue's number. -/
def Qs.val (x : Qs) : Nat := x.q.val
/-- A sequence of queue 0, how the reads of its list or tag entries in host memory end (Table 8-3, R427), and the error met on the way. -/
structure Sh where
  seq : Nat
  res : HostEnd
  ras : Option RasErr
  deriving DecidableEq, Repr
/-- Queue 0 with the end of a command's reads. -/
def Sh.q0 (x : Sh) : Qh := ⟨0, x.res, x.ras⟩
/-- A host line address, with the protocol or data-parity error met on the way. -/
structure HostLine where
  hpa : Nat
  ras : Option RasErr
  deriving DecidableEq, Repr
/-- The marks of a host write: poison (R247), and the protocol or data-parity error met on the way. -/
structure WrMark where
  poison : Bool
  ras : Option RasErr
  deriving DecidableEq, Repr
/-- What an IDE_KM message does: programs a key, begins or ends a stream's use. -/
inductive IdeOp where
  | prog | go | stop
  deriving DecidableEq, Repr
/-- An IDE_KM message (R315, R597): for CXL.cachemem, else for the link stream of CXL.io; in skid mode, else in containment mode; its
operation and its bytes. -/
structure IdeMsg where
  cachemem : Bool
  skid : Bool
  op : IdeOp
  data : Bytes
  deriving DecidableEq, Repr
/-- A physical ledger block, 64c + b (R192). -/
abbrev Bx := Fin 1024
/-- A Trellis port, 0 to 17. -/
abbrev Px := Fin 18
/-- A cold-plate zone, 0 to 11. -/
abbrev Zx := Fin 12
/-- A valve channel, 0 to 15. -/
abbrev Cx := Fin 16
/-- A monitored clock, 0 to 4 (Table 14-10). -/
abbrev Mx := Fin 5
/-- A clock domain of Table 1-4, in the table's order. -/
abbrev Dx := Fin 5

/-- The two thermal bus controllers. -/
inductive Tb where
  | tb0 | tb1
  deriving DecidableEq, Repr

/-- The two Orangery control cores. -/
inductive Core where
  | a | b
  deriving DecidableEq, Repr

/-- Bits [51:0] of a scalar kernel instruction (Table 3-4). -/
structure ScalarF where
  sd : BitVec 5
  sa : BitVec 5
  sb : BitVec 5
  rsv : BitVec 5
  imm : BitVec 32
  deriving DecidableEq, Repr

/-- Bits [51:0] of a descriptor kernel instruction (Table 3-8). -/
structure DescF where
  dd : BitVec 4
  da : BitVec 4
  sa : BitVec 5
  rsv : BitVec 7
  imm : BitVec 32
  deriving DecidableEq, Repr

/-- Bits [51:0] of TMUL (Table 3-11). -/
structure TmulF where
  da : BitVec 4
  db : BitVec 4
  slot : BitVec 1
  acc : BitVec 1
  ta : BitVec 1
  tb : BitVec 1
  rsv : BitVec 40
  deriving DecidableEq, Repr

/-- Bits [51:0] of TREAD (Table 3-11). -/
structure TreadF where
  dd : BitVec 4
  rsv1 : BitVec 4
  slot : BitVec 1
  clr : BitVec 1
  rmode : BitVec 3
  rsv2 : BitVec 39
  deriving DecidableEq, Repr

/-- Bits [51:0] of TCLR (Table 3-11). -/
structure TclrF where
  rsv1 : BitVec 8
  slot : BitVec 1
  rsv2 : BitVec 43
  deriving DecidableEq, Repr

/-- Bits [51:0] of TSAVE and TLOAD (Table 3-11). -/
structure TimgF where
  dd : BitVec 4
  rsv1 : BitVec 4
  slot : BitVec 1
  rsv2 : BitVec 43
  deriving DecidableEq, Repr

/-- Bits [51:0] of a vector kernel instruction (Table 3-12). -/
structure VecF where
  vd : BitVec 4
  va : BitVec 4
  vb : BitVec 4
  vc : BitVec 4
  rmode : BitVec 3
  d : BitVec 4
  sx : BitVec 5
  rsv : BitVec 15
  nlane : BitVec 9
  deriving DecidableEq, Repr

/-- Bits [51:0] of a data-movement kernel instruction (Table 3-14). -/
structure MoveF where
  d : BitVec 4
  sa : BitVec 5
  sb : BitVec 5
  ev : BitVec 1
  evn : BitVec 6
  srcAcc : BitVec 1
  slot : BitVec 1
  rsv : BitVec 29
  deriving DecidableEq, Repr

/-- Bits [51:0] of ESIG and EWAIT (Table 3-16). -/
structure SyncF where
  rsv1 : BitVec 4
  evn : BitVec 6
  sa : BitVec 5
  rsv2 : BitVec 5
  imm : BitVec 32
  deriving DecidableEq, Repr

/-- Bits [51:0] of MFENCE, all reserved (Table 3-16). -/
structure FenceF where
  rsv : BitVec 52
  deriving DecidableEq, Repr

/-- Bits [51:0] of HINT (R179). -/
structure HintF where
  kind : BitVec 4
  rsv : BitVec 16
  power : BitVec 12
  dur : BitVec 20
  deriving DecidableEq, Repr

/-- Pavilion fault codes (Table 3-19). -/
inductive FaultCode where
  | none | illegal | reservedField | format | shape | bedRange | alignment | access
  | eventOverflow | shareLimit | eventSources | remote | memory
  | bedEcc | stewardCheck | engineCheck | island
  deriving DecidableEq, Repr

/-- What the check of a 64-bit word of the ledger store reports at an access (R195): bits corrected, or an error it cannot correct. -/
inductive LedgerCheck where
  | corrected (n : Nat) | uncorrectable
  deriving DecidableEq, Repr

/-- A report of the ledger store's check on a block. -/
structure LedgerErr where
  blk : Bx
  check : LedgerCheck
  deriving DecidableEq, Repr

/-- A symbol error met on a stripe read: stripe, package, codeword and the bits that flip (R232 to R235). -/
structure SymErr where
  stripe : Nat
  pkg : Fin 20
  cw : Fin 32
  x : Byte
  deriving DecidableEq, Repr

/-- A modified host line written back: its module memory address and its 64 bytes. -/
structure LineWb where
  ma : Nat
  data : Bytes
  deriving DecidableEq, Repr

/-- The programming of an HDM decoder at its commit (R299, R300); `pos` is the module's interleave position,
`biEnable` the BI Enable of the BI Decoder Capability (R301). -/
structure HdmReq where
  base : Word64
  size : Word64
  skip : Word64
  ig : BitVec 4
  iw : BitVec 4
  pos : BitVec 4
  bi : Bool
  biEnable : Bool
  lock : Bool
  deriving DecidableEq, Repr

/-- The outcome a target or receiver gives a message (Table 9-7); `noRoute` when no route to it remains (R218). -/
inductive Outcome8 where
  | landed | discarded | retry | access | range | format | memory | noRoute
  deriving DecidableEq, Repr

/-- A header line as read at an arm (Table 7-2). -/
structure HeaderLine where
  accept : Word64
  commit : Word64
  incarnation : Word32
  binding : Word32
  deriving DecidableEq, Repr

/-- A tag entry of a protected page (Table 8-9). -/
structure TagEntry where
  tag : BitVec 128
  valid : Bool
  epoch : BitVec 2
  counter : BitVec 44
  deriving DecidableEq, Repr

/-- The kinds of resource that clear (Table 8-6). -/
inductive ResKind where
  | pavilion | plot | block | share | vector | queue
  deriving DecidableEq, Repr

/-- What a peer port tells at Exchange (R436). -/
structure PeerInfo where
  id : BitVec 16
  port : BitVec 5
  reach : BitVec 2
  deriving DecidableEq, Repr

/-- A link flit: its sequence number, its 8-byte header, its 496 bytes of frame data and its CRC-64 (R440). -/
structure Flit where
  seq : BitVec 16
  hdr : Bytes
  data : Bytes
  crc : Word64
  deriving DecidableEq, Repr

/-- The stream to a module, or the one from it. -/
structure StreamEnd where
  module : BitVec 16
  recv : Bool
  deriving DecidableEq, Repr

/-- A Trellis frame (Table 9-4). -/
structure Frame where
  typ : Byte
  last : Bool
  hops : BitVec 6
  dst : BitVec 16
  src : BitVec 16
  token : Word64
  seq : Word32
  nonce : Word32
  off : Word32
  msg : Word32
  args : BitVec 128
  payload : Bytes
  deriving DecidableEq, Repr


/-- One conversion of a sensor (R473): the sensor index of Table 10-2, VALUE, and whether its front-end sees an open circuit. -/
structure Conversion where
  sensor : Fin 408
  value : BitVec 16
  isOpen : Bool
  deriving DecidableEq, Repr

/-- A governor's metered average power over the last lease period, in 1/16 W (R182, R500). -/
structure Meter where
  p : Pv
  power : BitVec 12
  deriving DecidableEq, Repr

/-- The hazards of Table 10-9. -/
inductive Hazard where
  | flowStop | leak | overtempDie | overtempCoolant | inletHot | pressure
  deriving DecidableEq, Repr

/-- How a CAN transmission ended; an error carries its last-error code (Table 12-4). -/
inductive TxResult where
  | sent | lostArbitration | error (lec : BitVec 3)
  deriving DecidableEq, Repr

/-- A CAN or CAN FD frame (Tables 12-5 and 12-6); `res` is its res bit (R552). -/
structure CanFrame where
  ide : Bool
  fdf : Bool
  brs : Bool
  rtr : Bool
  esi : Bool
  res : Bool
  id : BitVec 29
  dlc : BitVec 4
  data : Bytes
  deriving DecidableEq, Repr

/-- What a controller sees on its bus: a frame, with the counts of 80 MHz since its start-of-frame sample point; an error it detects as a
receiver, with its last-error code and whether the first bit after its error flag is dominant (ISO 11898-1); an overload condition. -/
inductive CanRx where
  | frame (f : CanFrame) (ago : BitVec 32)
  | error (lec : BitVec 3) (primary : Bool)
  | overload
  deriving DecidableEq, Repr

/-- The mailboxes of R602; `i3c` is MCTP on I3C. -/
inductive Mbx where
  | ghm | cxl | kdv | i3c
  deriving DecidableEq, Repr

/-- The transports of SPDM: MCTP on I3C, and Data Object Exchange (R594). -/
inductive SpdmTr where
  | i3c | doe
  deriving DecidableEq, Repr

/-- What NEGOTIATE_ALGORITHMS offers: the hashes of Table 13-7, the extended asymmetric algorithm with its registry, its enterprise
number and its identifier (R595), the key exchange group and the AEAD. -/
structure AlgReq where
  sha384 : Bool
  sha3 : Bool
  registry : Byte
  enterprise : Word32
  oid : Word32
  secp384r1 : Bool
  aes256gcm : Bool
  deriving DecidableEq, Repr

/-- A VENDOR_DEFINED_REQUEST: the registry and the enterprise number it is under, and its payload (R595, R599). -/
structure VendorReq where
  registry : Byte
  enterprise : Word32
  data : Bytes
  deriving DecidableEq, Repr

/-- What a trace record holds beside the time (R609). -/
structure TraceRec where
  pav : Pv
  kind : Byte
  queue : Qx
  seq : Word64
  value : Word64
  deriving DecidableEq, Repr

/-- What operator debug can halt (R606). -/
inductive DebugUnit where
  | steward (p : Pv) | core (c : Core)
  deriving DecidableEq, Repr

/-- A PLDM request (R674): PLDM Base, a numeric sensor or the state sensor of type 2, an item of type 4, or another type. -/
inductive PldmReq where
  | base
  | sensor (n : Fin 408)
  | inputPower
  | ceiling
  | overall
  | fru (item : Byte) (idx : BitVec 16)
  | other (typ : Byte)
  deriving DecidableEq, Repr

/-- The results of the start self-test: tests 1 and 2 of each core, then tests 3, 5 and 6 (Table 15-4, R659). -/
structure SelfTest where
  a1 : Bool
  a2 : Bool
  b1 : Bool
  b2 : Bool
  t3 : Bool
  t5 : Bool
  t6 : Bool
  deriving DecidableEq, Repr

/-- What the host link trained at (Table 6-1), as GLB_HP_LINK encodes it (Table 6-11). -/
structure LinkMode where
  speed : BitVec 3
  width : BitVec 5
  flit : BitVec 2
  deriving DecidableEq, Repr

/-- Kembemel's private JTAG instructions (R606): halt, resume and inspect a steward or a core, read or write a bed, memory
and a setup register. -/
inductive JtagOp where
  | halt (u : DebugUnit)
  | resume (u : DebugUnit)
  | inspect (u : DebugUnit)
  | readBed (p : Pv) (addr : Nat) (len : Nat)
  | writeBed (p : Pv) (addr : Nat) (data : Bytes)
  | readPlot (ma : Nat) (len : Nat)
  | writePlot (ma : Nat) (data : Bytes)
  | readReg (off : Nat)
  | writeReg (off : Nat) (v : Word32)
  deriving DecidableEq, Repr

/-- The operand fields A and B of a Fountain word (Table 11-4). -/
structure FtnF where
  a : BitVec 8
  b : BitVec 20
  deriving DecidableEq, Repr


/-- The commands. Each constructor is a row of the opcode table. -/
inductive Instr where
  /-- ADD, R126: Scalar instruction: SD = SA + SB modulo 2^64. -/
  | add (p : Sw) (f : ScalarF)
  /-- SUB, R126: Scalar instruction: SD = SA - SB modulo 2^64. -/
  | sub (p : Sw) (f : ScalarF)
  /-- MUL, R126: Scalar instruction: SD = low 64 bits of SA x SB. -/
  | mul (p : Sw) (f : ScalarF)
  /-- AND, R126: Scalar instruction: bitwise AND of SA and SB. -/
  | and (p : Sw) (f : ScalarF)
  /-- OR, R126: Scalar instruction: bitwise OR of SA and SB. -/
  | or (p : Sw) (f : ScalarF)
  /-- XOR, R126: Scalar instruction: bitwise XOR of SA and SB. -/
  | xor (p : Sw) (f : ScalarF)
  /-- SHL, R126: Scalar instruction: shift SA left by SB mod 64. -/
  | shl (p : Sw) (f : ScalarF)
  /-- SHR, R126: Scalar instruction: logical right shift of SA by SB mod 64. -/
  | shr (p : Sw) (f : ScalarF)
  /-- SAR, R126: Scalar instruction: arithmetic right shift of SA by SB mod 64. -/
  | sar (p : Sw) (f : ScalarF)
  /-- SLT, R126: Scalar instruction: signed less-than comparison into SD. -/
  | slt (p : Sw) (f : ScalarF)
  /-- SLTU, R126: Scalar instruction: unsigned less-than comparison into SD. -/
  | sltu (p : Sw) (f : ScalarF)
  /-- ADDI, R126: Scalar instruction: SD = SA + sign-extended IMM. -/
  | addi (p : Sw) (f : ScalarF)
  /-- ANDI, R126: Scalar instruction: SD = SA AND sign-extended IMM. -/
  | andi (p : Sw) (f : ScalarF)
  /-- ORI, R126: Scalar instruction: SD = SA OR sign-extended IMM. -/
  | ori (p : Sw) (f : ScalarF)
  /-- XORI, R126: Scalar instruction: SD = SA XOR sign-extended IMM. -/
  | xori (p : Sw) (f : ScalarF)
  /-- SHLI, R126: Scalar instruction: shift SA left by IMM mod 64. -/
  | shli (p : Sw) (f : ScalarF)
  /-- SHRI, R126: Scalar instruction: logical right shift of SA by IMM mod 64. -/
  | shri (p : Sw) (f : ScalarF)
  /-- LUI, R126: Scalar instruction: places unextended IMM in bits 63:32 over the low half of SA. -/
  | lui (p : Sw) (f : ScalarF)
  /-- LDS, R129: Scalar load of an aligned 64-bit bed word. -/
  | lds (p : Sw) (f : ScalarF) (ce : Nat)
  /-- STS, R129: Scalar store of SB to an aligned 64-bit bed word. -/
  | sts (p : Sw) (f : ScalarF)
  /-- BEQ, R126: Branch to PC + 8 x IMM when SA equals SB. -/
  | beq (p : Sw) (f : ScalarF)
  /-- BNE, R126: Branch when SA differs from SB. -/
  | bne (p : Sw) (f : ScalarF)
  /-- BLT, R126: Branch when SA is less than SB as signed numbers. -/
  | blt (p : Sw) (f : ScalarF)
  /-- BGE, R126: Branch when SA is at least SB as signed numbers. -/
  | bge (p : Sw) (f : ScalarF)
  /-- JMP, R126: Unconditional branch to PC + 8 x IMM. -/
  | jmp (p : Sw) (f : ScalarF)
  /-- SETIB, R126: Sets the index base register IBASE to SA + IMM. -/
  | setib (p : Sw) (f : ScalarF)
  /-- RDSR, R130: Reads a special register of Table 3-6 into SD. -/
  | rdsr (p : Sw) (f : ScalarF)
  /-- END, R121: Requests the end of the share once data movement and signals are complete. -/
  | endShare (p : Sw) (f : ScalarF)
  /-- SHARE_END, R121: The share ends after its outstanding transfers complete and reports flags and energy. -/
  | shareEnd (p : Pv) (energy : Nat)
  /-- ILLEGAL_INSTRUCTION, R123: A reserved class or operation word stops the share with fault ILLEGAL. -/
  | illegalInstruction (p : Sw) (w : Word64)
  /-- DLD, R137: Loads a 32-byte bed descriptor into a descriptor register. -/
  | dld (p : Sw) (f : DescF) (ce : Nat)
  /-- DST, R137: Stores a descriptor register to the bed. -/
  | dst (p : Sw) (f : DescF)
  /-- DADD, R137: Copies a descriptor with BASE increased by SA + IMM. -/
  | dadd (p : Sw) (f : DescF)
  /-- DSETF, R137: Copies a descriptor with one selected field replaced. -/
  | dsetf (p : Sw) (f : DescF)
  /-- DMOV, R137: Copies one descriptor register to another. -/
  | dmov (p : Sw) (f : DescF)
  /-- TMUL, R147: Tile multiply that adds A x B products into an accumulator slot. -/
  | tmul (p : Sw) (f : TmulF) (ce : Nat)
  /-- TREAD, R148: Rounds each filled accumulator cell once into the destination format. -/
  | tread (p : Sw) (f : TreadF)
  /-- TCLR, R141: Empties an accumulator slot. -/
  | tclr (p : Sw) (f : TclrF)
  /-- TSAVE, R151: Writes an accumulator slot image with header and state map to the bed. -/
  | tsave (p : Sw) (f : TimgF)
  /-- TLOAD, R713: Checks and restores an accumulator slot image from the bed. -/
  | tload (p : Sw) (f : TimgF)
  /-- VLD, R156: Loads descriptor elements into vector lanes converted to FP32. -/
  | vld (p : Sw) (f : VecF) (ce : Nat)
  /-- VST, R156: Stores vector lanes to descriptor elements in the descriptor's format. -/
  | vst (p : Sw) (f : VecF)
  /-- VSPLAT, R152: Sets active lanes to the FP32 bit pattern of a scalar. -/
  | vsplat (p : Sw) (f : VecF)
  /-- VMOVS, R152: Moves lane 0 of a vector register to a scalar register. -/
  | vmovs (p : Sw) (f : VecF)
  /-- VADD, R107: Lane-wise FP32 addition. -/
  | vadd (p : Sw) (f : VecF)
  /-- VSUB, R107: Lane-wise FP32 subtraction. -/
  | vsub (p : Sw) (f : VecF)
  /-- VMUL, R107: Lane-wise FP32 multiplication. -/
  | vmul (p : Sw) (f : VecF)
  /-- VFMA, R107: Lane-wise fused multiply-add rounded once. -/
  | vfma (p : Sw) (f : VecF)
  /-- VMAX, R155: Lane-wise maximum with NaN and signed-zero rules. -/
  | vmax (p : Sw) (f : VecF)
  /-- VMIN, R155: Lane-wise minimum with NaN and signed-zero rules. -/
  | vmin (p : Sw) (f : VecF)
  /-- VABS, R152: Clears the sign of each active lane. -/
  | vabs (p : Sw) (f : VecF)
  /-- VNEG, R152: Inverts the sign of each active lane. -/
  | vneg (p : Sw) (f : VecF)
  /-- VRSUM, R108: Sums the active lanes by a fixed balanced tree into lane 0. -/
  | vrsum (p : Sw) (f : VecF)
  /-- VRMAX, R153: Takes the maximum of the lanes by the fixed tree into lane 0. -/
  | vrmax (p : Sw) (f : VecF)
  /-- VCVT, R157: Rounds lanes to a target format and converts them back to FP32. -/
  | vcvt (p : Sw) (f : VecF)
  /-- VOLOG2, R159: Returns the base-2 logarithm of lanes as Osium values. -/
  | volog2 (p : Sw) (f : VecF)
  /-- VOEXP2, R160: Writes the FP32 value of the Osium-12 code of 2^y for each lane. -/
  | voexp2 (p : Sw) (f : VecF)
  /-- VTAB, R161: Applies a piecewise-linear table to each lane. -/
  | vtab (p : Sw) (f : VecF)
  /-- MLD, R164: Starts a transfer from a plot into the bed. -/
  | mld (p : Sw) (f : MoveF)
  /-- MLD_COMPLETE, R119: All MLD data has landed in the bed and the event counter is signalled. -/
  | mldComplete (p : Pv) (id : Nat)
  /-- MST, R164: Starts a transfer from the bed to a plot. -/
  | mst (p : Sw) (f : MoveF) (ce : Nat)
  /-- MST_COMPLETE, R119: The memory controller has accepted every MST byte and the counter is signalled. -/
  | mstComplete (p : Pv) (id : Nat)
  /-- CSEND, R165: Sends bed values or accumulator cells as contribution packets to ledger blocks. -/
  | csend (p : Sw) (f : MoveF) (ce : Nat)
  /-- CSEND_COMPLETE, R207: Every packet of a CSEND has been accepted or discarded and the counter is signalled. -/
  | csendComplete (p : Pv) (id : Nat)
  /-- RSEND, R167: Sends bed data to a bed on this or another module. -/
  | rsend (p : Sw) (f : MoveF) (ce : Nat)
  /-- RSEND_LANDING, R360: Destination Pavilion lands or discards RSEND data by group and landing ordinal. -/
  | rsendLanding (p : Pv) (id : Nat)
  /-- DEFERRED_FAULT_REPORT, R186: A fault report from a Cistern, remote module or memory stops the share at the next boundary. -/
  | deferredFaultReport (p : Pv) (id : Nat) (code : FaultCode)
  /-- ESIG, R170: Sends a counted event to a destination Pavilion counter. -/
  | esig (p : Sw) (f : SyncF)
  /-- EVENT_MESSAGE, R173: Receiving Pavilion counts, holds, refuses or discards an event-bearing message. -/
  | eventMessage (p : Pv) (id : Nat)
  /-- EVENT_MESSAGE_ACK, R171: Acknowledgement of an event-bearing message frees the next message to that destination. -/
  | eventMessageAck (p : Pv) (id : Nat)
  /-- EWAIT, R177: Waits for an event counter to reach a value. -/
  | ewait (p : Sw) (f : SyncF)
  /-- EWAIT_RELEASE, R177: The counter reaches the wait value, is decreased by it and issue continues. -/
  | ewaitRelease (p : Pv)
  /-- MFENCE, R178: Blocks until every earlier data-movement instruction has completed. -/
  | mfence (p : Sw) (f : FenceF)
  /-- MFENCE_RELEASE, R178: The last outstanding data movement completes and the fence returns. -/
  | mfenceRelease (p : Pv)
  /-- HINT, R179: Phase marker forwarded to the predictor with expected power and duration. -/
  | hint (p : Sw) (f : HintF)
  /-- SHARE_START, R115: A share starts on its Pavilion after loading with the steward state of Table 3-2. -/
  | shareStart (p : Pv) (q : Qx) (seq : Nat)
  /-- SHARE_LIMIT, R190: Running time exceeds PAV_SHARE_LIMIT and the share stops. -/
  | shareLimit (p : Pv)
  /-- PAVILION_HARDWARE_FAULT, R40: A hardware check stops a share and its share is replayed on a hot spare. -/
  | pavilionHardwareFault (p : Pv) (code : FaultCode)
  /-- IDLE_HARDWARE_CHECK, R715: A hardware check fires on an idle Pavilion, which is withdrawn. -/
  | idleHardwareCheck (p : Pv) (code : FaultCode)
  /-- PROGRAM_FAULT_STOP, R188: Other shares of a descriptor with a program fault are stopped and it completes with error. -/
  | programFaultStop (q : Qx) (seq : Nat)
  /-- LEASE_GRANT, R47: A governor receives a grant and brings power within it in 10 us. -/
  | leaseGrant (p : Pv) (grant : BitVec 12)
  /-- LEASE_EXPIRY, R48: An unrenewed lease expires and the governor decays to the floor cap. -/
  | leaseExpiry (p : Pv)
  /-- RAIL_SETTLED, R50: Island rail settles at floor voltage after a clamp and issue resumes. -/
  | railSettled (p : Pv)
  /-- REDUCE, R201: Descriptor that arms, waits for, joins or rejects ledger blocks. -/
  | reduce (q : Qx) (seq : Nat)
  /-- ARMING_END, R200: Block ledgers and arrival map are cleared and the block becomes ARMED. -/
  | armingEnd (b : Bx)
  /-- CONTRIBUTION_PACKET, R207: A Cistern decides an arriving contribution packet by Table 4-6. -/
  | contributionPacket (p : Pv) (id : Nat) (k : Nat)
  /-- CONTRIBUTION_RETRY, R208: A sender resends a packet refused with retry no sooner than 1 us later. -/
  | contributionRetry (p : Pv) (id : Nat) (k : Nat)
  /-- BLOCK_READOUT, R213: A SUM block's ledgers are rounded and posted to its targets. -/
  | blockReadout (b : Bx) (corrected : Nat)
  /-- POST_LANDED, R216: Targets acknowledge a block's data and signal and the block becomes POSTED. -/
  | postLanded (b : Bx) (tgt : Fin 4) (outcome : Outcome8)
  /-- LEDGER_ECC_ERROR, R195: Uncorrectable ledger error puts the block in FAULTED. -/
  | ledgerEccError (e : LedgerErr)
  /-- COMMIT_PROBE_TIMER, R221: Every 100 us a waiting descriptor sends a commit probe to a remote block. -/
  | commitProbeTimer (q : Qx) (seq : Nat)
  /-- MEMORY_READ, R231: A stripe read is decoded and delivered or reported uncorrectable. -/
  | memoryRead (ma : Nat) (len : Nat) (errs : List SymErr)
  /-- MEMORY_WRITE, R242: A stripe write, whole or read-modify-write, is encoded and written. -/
  | memoryWrite (ma : Nat) (data : Bytes) (errs : List SymErr)
  /-- FILL_COMPLETE, R261: Zero fill ends, the write is performed and the map bit clears. -/
  | fillComplete (g : Nat)
  /-- CLEARER_GRANULE, R263: Background clearer zero-writes the next owed granule. -/
  | clearerGranule
  /-- SCRUB_STRIPE, R248: Patrol scrub reads the next stripe and writes back corrections. -/
  | scrubStripe (errs : List SymErr)
  /-- MR4_TEMPERATURE_READ, R230: Package temperature is read every 32 ms and forwarded to the Orangery. -/
  | mr4TemperatureRead (pkg : Fin 20) (temp : BitVec 16)
  /-- PACKAGE_FAILURE, R257: A channel stops answering and the package enters FAILED. -/
  | packageFailure (pkg : Fin 20)
  /-- PACKAGE_RETRAIN_RETRY, R257: A FAILED package is retrained every 10 s. -/
  | packageRetrainRetry (pkg : Fin 20) (trained : Bool)
  /-- REBUILD_STRIPE, R256: The rebuilder rewrites the next stripe and advances its cursor. -/
  | rebuildStripe (pkg : Fin 20)
  /-- CORRECTION_WINDOW_END, R252: End of a 1 s corrected-symbol window; auto-retirement and HEALTH are judged. -/
  | correctionWindowEnd
  /-- RETIRE_PACKAGE, R253: MEM_RETIRE_CMD GO retires the named package or refuses it. -/
  | retirePackage (v : Word32)
  /-- RETIREMENT_RECORD, R254: A retirement is written to flash within 100 ms. -/
  | retirementRecord (pkg : Fin 20)
  /-- MAP_WORD_UNCORRECTABLE, R267: Uncorrectable clearance map word owes 64 granules and marks the plot lost. -/
  | mapWordUncorrectable (k : Nat)
  /-- OWE_DRAIN_END, R264: Accepted accesses to the plot have completed. -/
  | oweDrainEnd (plot : Nat)
  /-- OWE_BACK_INVALIDATE_END, R264: Every host-held line of the plot is back-invalidated and write-backs have landed. -/
  | oweBackInvalidateEnd (plot : Nat) (wb : List LineWb)
  /-- OWE_SET_END, R264: All granule bits of the plot are set owed and waiting accesses proceed. -/
  | oweSetEnd (plot : Nat)
  /-- HOST_MEM_READ, R303: Host CXL.mem read is checked and served or denied. -/
  | hostMemRead (hpa : HostLine)
  /-- HOST_MEM_WRITE, R303: Host CXL.mem write is checked and performed or dropped. -/
  | hostMemWrite (hpa : Nat) (data : Bytes) (poison : WrMark)
  /-- PERST_N_DEASSERT, R279: PERST_N deasserted starts host port bring-up. -/
  | perstNDeassert
  /-- FUNCTION_READY, R280: The function stops answering with Request Retry Status. -/
  | functionReady
  /-- MEMORY_ACTIVE, R281: Memory_Active becomes 1 once training and the map are ready. -/
  | memoryActive
  /-- CONFIG_REQUEST, R280: A configuration request is answered or retried. -/
  | configRequest (fn : Fin 256) (off : Nat) (wr : Option Word32)
  /-- HDM_DECODER_COMMIT, R300: A decoder commit is checked and committed or failed. -/
  | hdmDecoderCommit (n : Fin 4) (r : HdmReq)
  /-- LINK_RECOVERY, R318: Link recovery returns to L0 with all state kept. -/
  | linkRecovery
  /-- LINK_DOWN, R318: Link down resets host port configuration and pauses every queue. -/
  | linkDown
  /-- HOT_RESET, R318: Hot reset or link disable resets the host port and pauses every queue. -/
  | hotReset
  /-- PERST_N_ASSERT, R319: PERST_N asserted resets the host port only and pauses every queue. -/
  | perstNAssert
  /-- FLR_PF, R318: Function level reset of the PF resets PF and VFs and pauses every queue. -/
  | flrPf
  /-- FLR_VF, R321: Function level reset of VF n pauses allotment n's queues. -/
  | flrVf (n : Fin 256)
  /-- PF_D3HOT, R318: PF enters D3hot, empties the device cache and pauses every queue. -/
  | pfD3hot
  /-- IDE_INTEGRITY_FAILURE, R317: IDE check failure takes the link down and records an AER error. -/
  | ideIntegrityFailure
  /-- DOORBELL_SNOOP, R307: A snoop removing an armed doorbell line is answered and the line re-armed. -/
  | doorbellSnoop (q : Qs)
  /-- DOORBELL_LINE_DATA, R339: Re-arm data returns and PRODUCER and CQ_HEAD are taken and checked. -/
  | doorbellLineData (q : Qh) (producer : Nat) (cqHead : Nat)
  /-- DBP_PRODUCER_LO, R338: Write to DBP_PRODUCER_LO delivers a doorbell with the latched high half. -/
  | dbpProducerLo (q : Qx) (v : Word32)
  /-- DBP_CQ_HEAD_LO, R338: Write to DBP_CQ_HEAD_LO delivers a doorbell with the latched high half. -/
  | dbpCqHeadLo (q : Qx) (v : Word32)
  /-- CACHE_WRITEBACK_INVALIDATE, R309: Host request drops the device cache and re-arms doorbell lines. -/
  | cacheWritebackInvalidate
  /-- ATS_INVALIDATION, R313: ATS invalidation completes after requests using the translation. -/
  | atsInvalidation (fn : Fin 256) (tag : Nat)
  /-- MSIX_UNMASK, R298: Unmasking an entry sends its pending message. -/
  | msixUnmask (fn : Fin 256) (entry : Nat)
  /-- DESCRIPTOR_READ, R353: A descriptor read from the ring is checked for sequence and taken for acceptance. -/
  | descriptorRead (q : Qh) (seq : Nat) (data : BitVec 1024)
  /-- DESCRIPTOR_ACCEPT, R354: A header line with ACCEPT past the sequence reaches global observation. -/
  | descriptorAccept (q : Qh)
  /-- HEADER_LINE_REFRESH, R335: The header line is rewritten at least every 64 commits or 10 us. -/
  | headerLineRefresh (q : Qh)
  /-- KERNEL, R343: Descriptor that loads code and runs one share per named Pavilion. -/
  | kernel (q : Qx) (seq : Nat)
  /-- COPY, R345: Descriptor that copies between host memory and plots, sealing or opening pages. -/
  | copy (q : Qh) (seq : Nat) (host : Bytes) (tags : List TagEntry)
  /-- SEND, R347: Descriptor that sends plot data to another module. -/
  | send (q : Qx) (seq : Nat)
  /-- SEND_RESEND_TIMEOUT, R347: An unacknowledged SEND is sent again after 200 us. -/
  | sendResendTimeout (q : Qx) (seq : Nat)
  /-- FENCE, R348: Descriptor that waits for earlier commits and another queue's cursor. -/
  | fence (q : Qx) (seq : Nat)
  /-- FENCE_RELEASE, R348: The FENCE's wait conditions are met and it completes. -/
  | fenceRelease (q : Qx) (seq : Nat)
  /-- HINT_DESCRIPTOR, R341: Descriptor carrying only an energy hint. -/
  | hintDescriptor (q : Qx) (seq : Nat)
  /-- COMPLETION_RECORD, R356: The queue engine issues a completion record once its conditions hold. -/
  | completionRecord (q : Qh) (seq : Nat)
  /-- COMPLETION_LANDED, R357: The record lands, the descriptor commits and MSI-X may be signalled. -/
  | completionLanded (q : Qx) (seq : Nat)
  /-- GANG_DONE_TIMER, R364: A finished gang member sends DONE to the home every 100 us. -/
  | gangDoneTimer (q : Qx) (seq : Nat)
  /-- GANG_STOP_END, R367: Every share of a member in gang replay has stopped. -/
  | gangStopEnd (q : Qx) (seq : Nat)
  /-- GANG_DRAIN_END, R367: Every message of the stopped member is acknowledged or discarded. -/
  | gangDrainEnd (q : Qx) (seq : Nat)
  /-- GANG_READY_TIMER, R368: A member sends READY every 100 us until RESTART. -/
  | gangReadyTimer (q : Qx) (seq : Nat)
  /-- HELD_RECORDS_FLUSH, R369: Held revoked records of a CLEARING queue are written once the host is reachable. -/
  | heldRecordsFlush (q : Qh)
  /-- QUEUE_HELD, R374: A queue enters HELD on a commit block or quiesce and returns by itself. -/
  | queueHeld (q : Qx)
  /-- QCT_ARM, R378: Write of QCT_CTRL.ARM starts, holds or ignores the arm. -/
  | qctArm (q : Qx)
  /-- ARM_HEADER_READ, R379: The header line is read and checked and identity compared. -/
  | armHeaderRead (q : Qh) (hdr : HeaderLine)
  /-- ARM_SCAN, R381: The completion ring is scanned to find C. -/
  | armScan (q : Qh) (slots : List Nat)
  /-- ARM_HELD_RECORDS, R371: Held and revoked records are written and execution resumes. -/
  | armHeldRecords (q : Qh) (producer : Nat) (cqHead : Nat) (ring : List (BitVec 1024))
  /-- QUEUE_DISABLE, R377: Write of QCT_CTRL.DISABLE stops acceptance. -/
  | queueDisable (q : Qx)
  /-- QUEUE_DISABLED, R377: No accepted descriptor remains uncommitted and the queue becomes DISABLED. -/
  | queueDisabled (q : Qx)
  /-- GLB_QE_STORE, R372: Write to GLB_QE_STORE sets the queue store plot or is dropped. -/
  | glbQeStore (v : Word32)
  /-- BIND, R397: Operator descriptor that creates an allotment or binds entries. -/
  | bind (seq : Sh) (list : List Word64)
  /-- UNBIND, R406: Operator descriptor that releases resources and clears them. -/
  | unbind (seq : Sh) (list : List Word64)
  /-- CLEAR, R406: Operator descriptor that clears resources kept in the allotment. -/
  | clear (seq : Sh) (list : List Word64)
  /-- CLEARING_STOP_END, R406: Allotment and queues are CLEARING and every share has stopped. -/
  | clearingStopEnd
  /-- REVOKE_END, R406: Revoked records of the allotment have landed or are held. -/
  | revokeEnd
  /-- RESOURCE_CLEAR, R407: A named resource finishes clearing to the state of Table 8-6. -/
  | resourceClear (kind : ResKind) (idx : Nat)
  /-- RELEASE, R406: Tables updated, serial increased and allotment state set after clearing. -/
  | release
  /-- NEW_PAVILION_LEASE, R404: A newly bound Pavilion receives a lease within 200 us. -/
  | newPavilionLease (p : Pv)
  /-- INSTALL, R425: KEY descriptor that installs a Gatehouse key in the next epoch slot. -/
  | install (seq : Nat)
  /-- RETIRE, R427: KEY descriptor that checks ranges and erases an old epoch key. -/
  | retire (seq : Sh) (tags : List TagEntry)
  /-- PORT_ENABLE, R434: Setting TRL_PORT_CFG.EN starts training; clearing it drives idle. -/
  | portEnable (port : Px) (en : Bool)
  /-- RETRAIN, R438: Write of RETRAIN retrains the port at x4 first. -/
  | retrain (port : Px)
  /-- DETECT, R437: Detect ends with signal on the lanes of the width tried. -/
  | detect (port : Px) (lanes : BitVec 4)
  /-- EQUALISE, R437: Lanes adapt or the port narrows or fails. -/
  | equalise (port : Px) (lanes : BitVec 4)
  /-- FEC_LOCK, R433: Codeword alignment held on every lane. -/
  | fecLock (port : Px)
  /-- EXCHANGE, R436: Peer ID, port, reach and width are exchanged and checked. -/
  | exchange (port : Px) (peer : PeerInfo)
  /-- EXCHANGE_RETRY, R436: A MISMATCH, NO_ID or CONFLICT port repeats Exchange every 100 ms. -/
  | exchangeRetry (port : Px) (peer : PeerInfo)
  /-- FAILED_RETRY, R437: A FAILED port tries Detect again every 1 s. -/
  | failedRetry (port : Px)
  /-- LANE_LOCK_LOSS, R438: A lane loses lock and the port retrains. -/
  | laneLockLoss (port : Px) (lane : Fin 4)
  /-- LANE_ERROR_WINDOW, R438: Lane corrected-symbol window of 1 ms is judged against the threshold. -/
  | laneErrorWindow (port : Px) (lane : Fin 4) (symbols : Nat)
  /-- RETRAIN_END, R438: Retrain completes and the port is ACTIVE again. -/
  | retrainEnd (port : Px)
  /-- PORT_DOWN, R439: Port not ACTIVE within 5 ms enters DOWN and discards its flits. -/
  | portDown (port : Px)
  /-- DOWN_RETRY, R439: A DOWN port starts Detect again after 1 s. -/
  | downRetry (port : Px)
  /-- LINK_FLIT, R441: A received link flit is accepted in sequence or discarded with NAK. -/
  | linkFlit (port : Px) (flit : Flit)
  /-- LINK_NAK, R441: A NAK makes the sender replay from its replay buffer. -/
  | linkNak (port : Px) (expect : BitVec 16)
  /-- FRAME_HOLD_TIMEOUT, R443: A frame held 1 ms for credit or slot is discarded. -/
  | frameHoldTimeout (port : Px) (k : Nat)
  /-- FRAME_FORWARD, R465: A frame in transit is routed or discarded. -/
  | frameForward (port : Px) (fr : Frame) (tv : Bool)
  /-- BED_DATA, R454: Received BED_DATA frame decided and landed in a bed. -/
  | bedData (fr : Frame)
  /-- EVENT, R454: Received EVENT frame decided under Table 3-17. -/
  | event (fr : Frame)
  /-- CONTRIB, R454: Received remote contribution decided under Table 4-6. -/
  | contrib (fr : Frame)
  /-- PLOT_DATA, R454: Received Cistern post data written to a plot. -/
  | plotData (fr : Frame)
  /-- SEND_DATA, R361: Received SEND data applied or discarded by the dedup window. -/
  | sendData (fr : Frame)
  /-- MSG_ACK, R454: Received message outcome completes, retries or faults the sending message. -/
  | msgAck (fr : Frame)
  /-- PROBE, R221: CONTROL commit probe answered COMMITTED or PENDING. -/
  | probe (fr : Frame)
  /-- PROBE_REPLY, R221: Probe reply received; COMMITTED releases the waiting commit. -/
  | probeReply (fr : Frame)
  /-- DONE, R365: The gang home counts a DONE tuple and answers. -/
  | done (fr : Frame)
  /-- DONE_REPLY, R366: COMPLETE reply lets the gang member commit. -/
  | doneReply (fr : Frame)
  /-- REPLAY, R367: Gang REPLAY received starts the Stop phase of gang replay. -/
  | replay (fr : Frame)
  /-- READY, R367: The home counts READY and answers RESTART when all members are ready. -/
  | ready (fr : Frame)
  /-- RESTART, R367: Received RESTART restarts the member's shares with dedup state cleared. -/
  | restart (fr : Frame)
  /-- REARM, R224: Received REARM notice replays uncommitted contributors of the block. -/
  | rearm (fr : Frame)
  /-- STREAM_OPEN, R449: Receiver replaces its receive stream and answers OPEN_ACK or FULL. -/
  | streamOpen (fr : Frame)
  /-- STREAM_OPEN_ACK, R449: Sender's stream is open and sends its frames. -/
  | streamOpenAck (fr : Frame)
  /-- STREAM_OPEN_RETRY, R449: After FULL the sender tries OPEN again 100 us later. -/
  | streamOpenRetry (m : BitVec 16)
  /-- STREAM_ACK, R451: ACK releases acknowledged frames of a send stream. -/
  | streamAck (fr : Frame)
  /-- STREAM_NAK, R452: NAK makes the sender resend every unacknowledged frame. -/
  | streamNak (fr : Frame)
  /-- STREAM_RESET, R452: RESET makes the sender reopen the stream and resend. -/
  | streamReset (fr : Frame)
  /-- STREAM_FULL, R449: FULL answer to OPEN schedules a retry. -/
  | streamFull (fr : Frame)
  /-- SEQUENCED_FRAME, R450: Receiver accepts a frame at EXPECT or discards it with ACK, NAK or RESET. -/
  | sequencedFrame (fr : Frame)
  /-- STREAM_RETRANSMIT, R452: RETX_US without progress resends every unacknowledged frame. -/
  | streamRetransmit (m : BitVec 16)
  /-- STREAM_IDLE_CLOSE, R446: A stream idle 10 ms with nothing unacknowledged is closed. -/
  | streamIdleClose (m : StreamEnd)
  /-- UNREACH_TIMEOUT, R466: A destination is declared unreachable and its messages complete as REMOTE. -/
  | unreachTimeout (m : BitVec 16)
  /-- TRL_MODULE_ID, R435: Write of the module ID, taken only with every port disabled. -/
  | trlModuleId (v : Word32)
  /-- LOOP_SAMPLE, R484: All zone loops sample, compute and apply valve outputs. -/
  | loopSample (conv : List Conversion)
  /-- ZONE_FOLLOWING_ERROR, R488: Zone error at umax for FE time raises ZONE_FE and limits leases. -/
  | zoneFollowingError (z : Zx)
  /-- KEEP_WARM_LOAD, R487: After 10 s of keep-warm at minimum, idle cold Pavilions run a keep-warm load. -/
  | keepWarmLoad (z : Zx)
  /-- LEASE_PERIOD, R498: Ceiling, demands and grants are computed and lower grants sent. -/
  | leasePeriod (metered : List Meter)
  /-- HIGHER_GRANTS, R504: Higher grants are sent 10 us after the last lower grant. -/
  | higherGrants
  /-- FLOW_FOLLOWING_ERROR, R494: Flow shortfall for FE_TIME activates CAP_FLOW and FLOW_LOW. -/
  | flowFollowingError
  /-- CAP_BUS_TIMEOUT, R495: No loop capacity for 5 s sets CAP_BUS to CAP_NOBUS. -/
  | capBusTimeout
  /-- PREDICTOR_RUN, R510: The predictor runs its model every PERIOD_MS. -/
  | predictorRun
  /-- PREDICTOR_RUN_COMPLETE, R510: Run outputs take effect at the next loop sample. -/
  | predictorRunComplete
  /-- HAZARD_TRIP, R512: A hazard condition clamps islands, asserts pins, opens valves and alarms. -/
  | hazardTrip (h : Hazard)
  /-- HAZARD_QUIESCE, R512: A hazard still latched 2 s after its trip quiesces compute. -/
  | hazardQuiesce
  /-- LEAK_ACK, R511: Write of LEAK to ORG_HAZ_ACK acknowledges the leak hazard. -/
  | leakAck
  /-- HB_IN_EDGE, R693: A qualified edge on HB_IN refreshes the heartbeat watchdog. -/
  | hbInEdge
  /-- HB_LOST, R661: No HB_IN edge for TIMEOUT_MS opens valves and requests full flow. -/
  | hbLost
  /-- ISOLATE_N_ASSERT, R663: ISOLATE_N low for 10 us quiesces compute. -/
  | isolateNAssert
  /-- ISOLATE_N_RELEASE, R663: ISOLATE_N high for 1 ms resumes compute. -/
  | isolateNRelease
  /-- START, R525: Channel command that sets the level and restarts the program. -/
  | start (c : Cx) (level : BitVec 12)
  /-- LEVEL, R525: Channel command that sets the level register only. -/
  | level (c : Cx) (level : BitVec 12)
  /-- STOP, R525: Channel command that continues the program from RELEASE. -/
  | stop (c : Cx)
  /-- OFF, R531: Fountain instruction that unpowers the channel and makes it IDLE. -/
  | off (c : Cx) (w : FtnF)
  /-- PHASE, R538: Fountain instruction that declares a phase, deferring BOOST when needed. -/
  | phase (c : Cx) (w : FtnF)
  /-- BOOST_DEFER_END, R538: A deferred channel enters BOOST when its switch and limit allow. -/
  | boostDeferEnd (c : Cx)
  /-- SETI, R531: Fountain instruction that sets the target current. -/
  | seti (c : Cx) (w : FtnF)
  /-- SETL, R531: Fountain instruction that sets the target as a multiple of the level. -/
  | setl (c : Cx) (w : FtnF)
  /-- WAIT, R531: Fountain instruction that waits B us. -/
  | wait (c : Cx) (w : FtnF)
  /-- WAIT_END, R531: A Fountain WAIT expires and the program continues. -/
  | waitEnd (c : Cx)
  /-- WAITI, R531: Fountain instruction that waits for current or a timeout. -/
  | waiti (c : Cx) (w : FtnF)
  /-- WAITI_END, R531: Current reaches target or the timeout passes and the program continues. -/
  | waitiEnd (c : Cx) (current : BitVec 12)
  /-- HOLDW, R531: Fountain instruction that regulates until a START or STOP. -/
  | holdw (c : Cx) (w : FtnF)
  /-- PWM, R531: Fountain instruction that sets the PWM frequency. -/
  | pwm (c : Cx) (w : FtnF)
  /-- FOUNTAIN_JMP, R531: Fountain instruction that continues at address A. -/
  | fountainJmp (c : Cx) (w : FtnF)
  /-- RAMPL, R531: Fountain instruction that ramps the target to a level multiple. -/
  | rampl (c : Cx) (w : FtnF)
  /-- RAMPL_END, R531: The ramp time passes and the target follows the level. -/
  | ramplEnd (c : Cx)
  /-- COMMAND_WATCHDOG, R529: No Orangery command for 50 ms sends STOP to Orangery channels. -/
  | commandWatchdog
  /-- BOOST_TIMEOUT, R535: BOOST for 50 ms unpowers the channel in FAULT. -/
  | boostTimeout (c : Cx)
  /-- CHANNEL_TRIP, R541: Overcurrent or limit exceedance switches the channel to TRIPPED or LOCKOUT. -/
  | channelTrip (c : Cx) (current : BitVec 16)
  /-- TRIP_RECOVERY, R541: A TRIPPED channel returns to IDLE after 100 ms. -/
  | tripRecovery (c : Cx)
  /-- OPEN_LOAD, R542: On-state open load for 500 us puts the channel in OPEN. -/
  | openLoad (c : Cx)
  /-- OFF_STATE_TEST, R542: Every 1 s an idle channel's coil is tested with 2 mA. -/
  | offStateTest (c : Cx) (passed : Bool)
  /-- CHANNEL_RESET, R541: Write of VDR_CH_CTRL.RESET returns a LOCKOUT or OPEN channel to IDLE. -/
  | channelReset (c : Cx)
  /-- RAIL_UNDERVOLTAGE, R523: Rail below 10.0 V for 100 us forces every channel off. -/
  | railUndervoltage (mv : BitVec 16)
  /-- RAIL_RECOVERY, R523: Rail above 10.8 V for 10 ms ends the force. -/
  | railRecovery (mv : BitVec 16)
  /-- VALVE_VERIFY, R546: At the end of the verify window the coolant response is checked. -/
  | valveVerify (c : Cx)
  /-- EDIT, R536: Write of VDR_CTRL.EDIT enables program store editing when all channels are IDLE. -/
  | edit (v : Word32)
  /-- CYCLES_SAVE, R549: Channel START counts are written to flash hourly. -/
  | cyclesSave
  /-- REQ, R558: Mailbox REQ makes a frame PENDING or is refused. -/
  | req (t : Tb) (m : Fin 64)
  /-- CANCEL, R562: Mailbox CANCEL removes a PENDING frame or reports TOO_LATE. -/
  | cancel (t : Tb) (m : Fin 64)
  /-- CAN_TRANSMIT_END, R560: A frame attempt ends sent, lost or in error and the next is chosen. -/
  | canTransmitEnd (t : Tb) (r : TxResult)
  /-- CAN_FRAME_RECEIVE, R563: A received frame is filtered to the Orangery, the FIFO or dropped. -/
  | canFrameReceive (t : Tb) (rx : CanRx)
  /-- BUS_OFF, R567: The controller goes bus-off and holds its mailboxes. -/
  | busOff (t : Tb)
  /-- RECOVER, R567: Write of RECOVER starts bus-off recovery. -/
  | recover (t : Tb)
  /-- BUS_OFF_RECOVERY_END, R567: 128 sequences of 11 recessive bits end recovery and held frames are sent. -/
  | busOffRecoveryEnd (t : Tb)
  /-- RX_POP, R563: Write of TBC_RX_POP discards the head frame of the FIFO. -/
  | rxPop (t : Tb)
  /-- LEAK_ALARM, R570: Module sends the leak alarm message. -/
  | leakAlarm
  /-- FLOW_STOP_ALARM, R570: Module sends the flow-stop alarm message. -/
  | flowStopAlarm
  /-- HAZARD_ALARM, R570: Module sends the hazard alarm for other hazards. -/
  | hazardAlarm
  /-- TIME_REF, R575: Received TIME_REF is paired with a sync mark and network time updated. -/
  | timeRef (t : Tb) (nt : BitVec 48) (cycle : BitVec 8) (ago : BitVec 32)
  /-- TIME_REF_SEND, R574: The time master sends TIME_REF every PERIOD_MS. -/
  | timeRefSend
  /-- REF_LOST, R577: No pair for TIMEOUT makes network time invalid. -/
  | refLost
  /-- TIME_SET_LO, R574: Write of TBC_TIME_SET_LO loads network time. -/
  | timeSetLo (v : Word32)
  /-- NT_LO_READ, R578: Read of TBC_NT_LO latches the high half of network time. -/
  | ntLoRead
  /-- ISOLATE, R572: Received ISOLATE energises or releases the isolation valves. -/
  | isolate (t : Tb) (op : BitVec 8) (sq : BitVec 8)
  /-- LOOP_CAPACITY, R571: Received loop capacity sets CAP_BUS. -/
  | loopCapacity (t : Tb) (watts : BitVec 16)
  /-- CAP_REQUEST, R570: Module sends its power request to the CDU. -/
  | capRequest
  /-- WARNING, R570: Module sends the warning message. -/
  | warning
  /-- STATUS, R570: Module sends its periodic status message. -/
  | status
  /-- CDU_HEARTBEAT, R570: Received CDU heartbeat refreshes its arrival time. -/
  | cduHeartbeat (t : Tb)
  /-- TM_HEARTBEAT, R570: Received tray manager heartbeat refreshes its arrival time. -/
  | tmHeartbeat (t : Tb)
  /-- ROM_CHECK, R580: Gatehouse ROM digest and SRAM self-test are checked. -/
  | romCheck (passed : Bool)
  /-- DEVICE_SECRET, R584: The device secret is reconstructed. -/
  | deviceSecret (sram : Bytes)
  /-- IMAGE, R581: The firmware image is verified against keys and SVN floor. -/
  | image
  /-- CONFIGURATION, R684: Signed configuration is verified and applied and locks set. -/
  | configuration
  /-- KEYS, R588: Journals read and a new attestation key generated and certified. -/
  | keys
  /-- GET_VERSION, R594: SPDM GET_VERSION request. -/
  | getVersion (tr : SpdmTr)
  /-- GET_CAPABILITIES, R594: SPDM GET_CAPABILITIES request. -/
  | getCapabilities (tr : SpdmTr) (ver : Byte) (xfer : Nat)
  /-- NEGOTIATE_ALGORITHMS, R595: SPDM NEGOTIATE_ALGORITHMS request. -/
  | negotiateAlgorithms (tr : SpdmTr) (a : AlgReq)
  /-- GET_DIGESTS, R594: SPDM GET_DIGESTS request. -/
  | getDigests (tr : SpdmTr)
  /-- GET_CERTIFICATE, R587: SPDM GET_CERTIFICATE request returning the slot 0 chain. -/
  | getCertificate (tr : SpdmTr) (slot : Byte) (off : Nat) (len : Nat)
  /-- CHALLENGE, R588: SPDM CHALLENGE request answered with an attestation signature. -/
  | challenge (tr : SpdmTr) (slot : Byte) (nonce : BitVec 256)
  /-- GET_MEASUREMENTS, R596: SPDM GET_MEASUREMENTS request reporting Table 13-8. -/
  | getMeasurements (tr : SpdmTr) (idx : Byte) (sign : Bool) (nonce : BitVec 256)
  /-- KEY_EXCHANGE, R594: SPDM KEY_EXCHANGE request opening a session. -/
  | keyExchange (tr : SpdmTr) (slot : Byte) (data : Bytes)
  /-- FINISH, R594: SPDM FINISH request completing a session. -/
  | finish (sess : Nat) (data : Bytes)
  /-- HEARTBEAT, R594: SPDM HEARTBEAT request. -/
  | heartbeat (sess : Nat)
  /-- KEY_UPDATE, R594: SPDM KEY_UPDATE request. -/
  | keyUpdate (sess : Nat) (op : Byte)
  /-- END_SESSION, R594: SPDM END_SESSION request. -/
  | endSession (sess : Nat)
  /-- CHUNK_GET, R594: SPDM CHUNK_GET request. -/
  | chunkGet (tr : SpdmTr) (handle : Nat) (n : Nat)
  /-- DELIVER_KEY, R599: Vendor-defined request storing a tenant key under a new handle. -/
  | deliverKey (tr : SpdmTr) (sess : Option Nat) (req : VendorReq)
  /-- IDE_KM, R597: IDE key management message setting IDE keys in a session. -/
  | ideKm (tr : SpdmTr) (sess : Option Nat) (data : IdeMsg)
  /-- KEY_DELIVERY_EXPIRY, R600: A key not installed within 1 hour is erased. -/
  | keyDeliveryExpiry (handle : Word32)
  /-- GET_INFO, R602: Mailbox command returning SVN, build and status. -/
  | getInfo (mb : Mbx) (tag : Byte)
  /-- STAGE_OPEN, R604: Mailbox command opening a staging session. -/
  | stageOpen (mb : Mbx) (tag : Byte) (kind : Byte) (len : Word32)
  /-- STAGE_WRITE, R605: Mailbox command writing staged data. -/
  | stageWrite (mb : Mbx) (tag : Byte) (off : Word32) (data : Bytes)
  /-- STAGE_HOST, R605: Mailbox command staging data read from host memory. -/
  | stageHost (mb : Mbx) (tag : Byte) (addr : Word64) (data : Bytes)
  /-- STAGE_COMMIT, R605: Mailbox command verifying and committing a staged object. -/
  | stageCommit (mb : Mbx) (tag : Byte)
  /-- STAGE_ABORT, R604: Mailbox command aborting the staging session. -/
  | stageAbort (mb : Mbx) (tag : Byte)
  /-- STAGING_TIMEOUT, R604: A staging session idle for 10 s is aborted. -/
  | stagingTimeout
  /-- KEY_STATUS, R602: Mailbox command returning a key handle's state. -/
  | keyStatus (mb : Mbx) (tag : Byte) (handle : Word32)
  /-- KEY_DISCARD, R600: Mailbox command erasing a key not installed. -/
  | keyDiscard (mb : Mbx) (tag : Byte) (handle : Word32)
  /-- DEBUG_STATE, R608: Mailbox command returning the debug state word. -/
  | debugState (mb : Mbx) (tag : Byte)
  /-- DEBUG_SET, R609: Mailbox command enabling trace and profile export. -/
  | debugSet (mb : Mbx) (tag : Byte) (trace : Bool) (profile : Bool) (addr : Word64) (size : Word32)
  /-- TRACE_RECORD, R609: A trace record is written to the host ring or counted lost. -/
  | traceRecord (r : TraceRec)
  /-- DEBUG_HALT, R607: A JTAG debug halt stops a steward at an instruction boundary. -/
  | debugHalt (u : DebugUnit)
  /-- PLDM_REQUEST, R674: PLDM Base, Platform or FRU request over MCTP answered. -/
  | pldmRequest (m : PldmReq)
  /-- GATEHOUSE_WATCHDOG, R635: Unrefreshed for 1 s, the watchdog resets the Gatehouse. -/
  | gatehouseWatchdog
  /-- CLOCK_WINDOW, R612: A monitor window ends and the source is judged good, stable or failed. -/
  | clockWindow (m : Mx) (count : Nat)
  /-- ISLAND_RELOCK, R617: Island clocks relock after a switch and stalled islands resume. -/
  | islandRelock (d : Dx)
  /-- CLOCK_RETURN, R619: A stable source is taken back into use. -/
  | clockReturn (m : Mx)
  /-- CKP_CLK_RETURN, R619: Write of CKP_CLK_RETURN requests a source be taken back. -/
  | ckpClkReturn (v : Word32)
  /-- CLOCK_LOSS_DETECT, R620: All island clocks stopped 5 us asserts clamp, forces valves and alert. -/
  | clockLossDetect
  /-- GATE_CLOSE, R622: A block gate closes once its handshakes are idle. -/
  | gateClose (g : Fin 20)
  /-- GATE_OPEN, R623: A gate opens and the block resumes from its held state. -/
  | gateOpen (g : Fin 20)
  /-- CLKOBS_UPDATE, R626: A CLKOBS change takes effect at the next low phase. -/
  | clkobsUpdate
  /-- VIN_SAG, R628: VIN below the warning threshold sets SAG and a non-maskable event. -/
  | vinSag (vin : BitVec 16)
  /-- INPUT_POWER_MEASURE, R716: Input power is measured every 1 ms. -/
  | inputPowerMeasure (vin : BitVec 16) (watts : BitVec 16)
  /-- BRANCH_OFF, R631: VIN below the reset threshold starts hold-up and turns branches off. -/
  | branchOff (vin : BitVec 16)
  /-- SIGNING_STOP, R590: The signature in progress finishes and a TRIM record is written. -/
  | signingStop
  /-- START_RECORD, R640: Hold-up records reason 0x05 if a start was in progress. -/
  | startRecord
  /-- COUNTERS, R631: Hold-up writes the valve cycle counters. -/
  | counters
  /-- SUNDIAL_FLUSH, R671: Hold-up makes the trigger 21 record and flushes recent records. -/
  | sundialFlush
  /-- POWER, R633: POWER reset after hold-up when VIN returns, or at first VIN. -/
  | power
  /-- WARM, R633: CKP_RESET KIND 1 resets compute and host port, keeping memory and allotments. -/
  | warm
  /-- FULL, R633: CKP_RESET KIND 2 or a failed start resets everything except flash. -/
  | full
  /-- GATEHOUSE, R633: CKP_RESET KIND 3 restarts the Gatehouse only. -/
  | gatehouse
  /-- INPUT_QUALIFY, R637: VIN has stayed above the start threshold for 10 ms. -/
  | inputQualify
  /-- ALWAYS_ON_UP, R637: Always-on rail regulates, crystal stable, full flow requested. -/
  | alwaysOnUp (stable : Bool) (slot : BitVec 6)
  /-- ORANGERY_SELF_TEST, R659: Start self-test of both cores passes or fails the start. -/
  | orangerySelfTest (r : SelfTest)
  /-- MEMORY_TRAINING, R251: Memory training ends with packages GOOD or FAILED. -/
  | memoryTraining (good : List (Fin 20))
  /-- COMPUTE_UP, R637: Compute branch on with every Pavilion at the floor. -/
  | computeUp
  /-- COMPLETE, R639: Start complete; the start record is cleared. -/
  | complete
  /-- START_WATCHDOG, R638: Start not complete in 6 s fails with reason 0x07. -/
  | startWatchdog
  /-- START_FAILURE, R640: A failed start records its reason and performs a FULL reset. -/
  | startFailure (reason : Byte)
  /-- CORE_RECORD_READ, R649: The Gatehouse reads both core records 50 us after a sample. -/
  | coreRecordRead (hbA : Bool) (hbB : Bool) (equal : Bool)
  /-- KNOWN_ANSWER_TEST, R650: A core runs the known-answer test and FAILED is decided. -/
  | knownAnswerTest (passA : Option Bool) (passB : Option Bool)
  /-- SWAP_TAKE_OVER, R652: The new active core applies its latest outputs. -/
  | swapTakeOver
  /-- SWAP, R655: Write of SUN_PAIR_CTRL.SWAP swaps cores at the next sample. -/
  | swap
  /-- PAIR_SWAP, R655: Mailbox command requesting a core swap. -/
  | pairSwap (mb : Mbx) (tag : Byte)
  /-- READMIT, R657: Write of READMIT returns an OUT core to FAILED. -/
  | readmit (core : Core)
  /-- PAIR_READMIT, R657: Mailbox command readmitting an OUT core. -/
  | pairReadmit (mb : Mbx) (tag : Byte) (core : Byte)
  /-- CORE_SELF_TEST_END, R656: A reset core passes self-test, becomes SYNCING and receives state. -/
  | coreSelfTestEnd (core : Core) (passed : Bool)
  /-- CORE_MEMORY_PATROL, R658: Core SRAM patrol finds an uncorrectable error. -/
  | coreMemoryPatrol (core : Core)
  /-- SENSOR_REFERENCE_TEST, R658: Every 100 ms each converter is checked against its reference. -/
  | sensorReferenceTest (failed : List Nat)
  /-- HAZARD_COMPARATOR_TEST, R658: Hourly injected test of each hazard comparator. -/
  | hazardComparatorTest (passed : Bool)
  /-- SUNDIAL_TRIGGER, R667: An enabled trigger snapshots its list into a record. -/
  | sundialTrigger (t : Fin 64) (ctx : Word32)
  /-- SUNDIAL_WRITE, R669: Records are written to flash on FLUSH, 64 unflushed or every 10 s. -/
  | sundialWrite
  /-- LIST_CHANGE_RECORD, R668: 10 ms after a list change trigger 61 records the new list. -/
  | listChangeRecord (l : Fin 4)
  /-- FREEZE, R672: Write of SUN_CTRL.FREEZE stops record making. -/
  | freeze (v : Word32)
  /-- FREEZE_EXPIRY, R672: FREEZE returns to 0 after FREEZE_S seconds. -/
  | freezeExpiry
  /-- SUN_SOFT, R666: Write of SUN_SOFT fires trigger 62 or 63. -/
  | sunSoft (v : Word32)
  /-- SUN_RD_SEQ, R673: Write of SUN_RD_SEQ starts a record lookup. -/
  | sunRdSeq (v : Word32)
  /-- SUNDIAL_LOOKUP_END, R673: The lookup finds or misses the record and clears BUSY. -/
  | sundialLookupEnd
  /-- HEALTH_GET, R660: Mailbox command returning the health report. -/
  | healthGet (mb : Mbx) (tag : Byte)
  /-- SUN_INFO, R675: Mailbox command returning Sundial status. -/
  | sunInfo (mb : Mbx) (tag : Byte)
  /-- SUN_READ, R675: Mailbox command reading record bytes. -/
  | sunRead (mb : Mbx) (tag : Byte) (sq : Word32) (off : BitVec 16) (len : BitVec 16)
  /-- SUN_FREEZE, R672: Mailbox command freezing or releasing the Sundial. -/
  | sunFreeze (mb : Mbx) (tag : Byte) (on : Byte)
  /-- SUN_TRIGGER, R675: Mailbox command firing trigger 62 or 63. -/
  | sunTrigger (mb : Mbx) (tag : Byte) (t : Byte) (ctx : BitVec 16)
  /-- INVENTORY_GET, R674: Mailbox command returning an inventory item. -/
  | inventoryGet (mb : Mbx) (tag : Byte) (item : Byte) (idx : BitVec 16)
  /-- RC_FIELD_READ, R13: A read of an RC field returns and clears it. -/
  | rcFieldRead (off : Nat) (size : Nat)
  /-- BAR0_REFUSED_ACCESS, R677: An access other than aligned 32 or 64 bits reads 0, drops and sets GLB_ACC_EVT. -/
  | bar0RefusedAccess (off : Nat) (size : Nat) (wr : Bool)
  /-- REGISTER_WRITE, R9: Write to a register with no row of its own, by its access codes. -/
  | registerWrite (off : Nat) (v : Word64) (size : Nat)
  /-- LINK_AT_L0, R279: The host link finishes training on its own and reaches L0 at the highest common rate after a link down, hot reset or reference-clock return. -/
  | linkAtL0 (mode : LinkMode)
  /-- VIN_SAG_CLEAR, R628: VIN rises above the warning threshold plus 1.0 V and the SAG state clears. -/
  | vinSagClear (vin : BitVec 16)
  /-- START_RELEASE, R637: The Release phase of a start ends: Orangery cores run, link and memory branches are on and memory training and Keys begin. -/
  | startRelease
  /-- MESSAGE_RETRY, R455: A BED_DATA, EVENT or SEND message refused with retry is resent no sooner than 1 us later. -/
  | messageRetry (p : Pv) (id : Nat)
  /-- DETECT_TIMEOUT, R437: A lane fails Detect within its 10 ms bound and the port narrows to x2 or enters FAILED. -/
  | detectTimeout (port : Px) (lane : Fin 4)
  /-- PRIVATE_JTAG_INSTRUCTION, R606: A Kembemel private JTAG instruction executes, reading or writing a bed, plot or register and setting SESSION and MEM_ACCESS. -/
  | privateJtagInstruction (op : JtagOp)
  /-- ATTACHED_CHANGE, R608: The ATTACHED bit of the debug state word changes on TRST_N or TCK activity, or after 1 s without a TCK toggle. -/
  | attachedChange (attached : Bool)
  /-- ENTDAA, R694: The I3C target takes its dynamic address through ENTDAA. -/
  | entdaa (addr : BitVec 7)
  deriving DecidableEq, Repr

end Sys2Proof
end

