-- ==== Sys2Proof/Decode.lean ====
section
/-! DEFINITION. Words. No row of the opcode table gives bits, so `decodeTableWord` decodes nothing. The 64-bit kernel
instruction words of chapter 3, which the stewards fetch from their beds, are decoded and encoded here (Tables 3-3 to
3-5, 3-8, 3-9, 3-11 to 3-16, R179). -/

namespace Sys2Proof

/-- The table gives no row any bits: no word spells a command. -/
def decodeTableWord (_nbits _w : Nat) : Option Instr := none

/-- A kernel instruction with its fields. Operation codes stand as Tables 3-5, 3-9, 3-13 and 3-15 give them. -/
inductive KInsn where
  | scalar (op : BitVec 8) (f : ScalarF)
  | desc (op : BitVec 8) (f : DescF)
  | tmul (f : TmulF)
  | tclr (f : TclrF)
  | tread (f : TreadF)
  | tsave (f : TimgF)
  | tload (f : TimgF)
  | vec (op : BitVec 8) (f : VecF)
  | move (op : BitVec 8) (f : MoveF)
  | esig (f : SyncF)
  | ewait (f : SyncF)
  | mfence (f : FenceF)
  | hint (f : HintF)
  deriving DecidableEq, Repr

/-- The scalar operations of Table 3-5. -/
def scalarOps : List (BitVec 8) := [0x01, 0x02, 0x03, 0x04, 0x05, 0x06, 0x07, 0x08, 0x09, 0x0A, 0x0B, 0x10, 0x11, 0x12,
  0x13, 0x14, 0x15, 0x16, 0x20, 0x21, 0x30, 0x31, 0x32, 0x33, 0x38, 0x3D, 0x3E, 0x3F]
/-- The descriptor operations of Table 3-9. -/
def descOps : List (BitVec 8) := [0x01, 0x02, 0x03, 0x04, 0x05]
/-- The vector operations of Table 3-13. -/
def vecOps : List (BitVec 8) := [0x01, 0x02, 0x03, 0x04, 0x10, 0x11, 0x12, 0x13, 0x14, 0x15, 0x16, 0x17, 0x20, 0x21, 0x30,
  0x31, 0x32, 0x33]
/-- The data-movement operations of Table 3-15. -/
def moveOps : List (BitVec 8) := [0x01, 0x02, 0x03, 0x04]

/-- Is the operation one the manual defines? -/
def KInsn.wf : KInsn → Bool
  | .scalar op _ => scalarOps.contains op
  | .desc op _ => descOps.contains op
  | .vec op _ => vecOps.contains op
  | .move op _ => moveOps.contains op
  | _ => true

/-- The fields of a scalar word (Table 3-4). -/
def scalarOf (w : Word64) : ScalarF :=
  ⟨w.extractLsb' 47 5, w.extractLsb' 42 5, w.extractLsb' 37 5, w.extractLsb' 32 5, w.extractLsb' 0 32⟩
/-- The fields of a descriptor word (Table 3-8). -/
def descOf (w : Word64) : DescF :=
  ⟨w.extractLsb' 48 4, w.extractLsb' 44 4, w.extractLsb' 39 5, w.extractLsb' 32 7, w.extractLsb' 0 32⟩
/-- The fields of TMUL (Table 3-11). -/
def tmulOf (w : Word64) : TmulF :=
  ⟨w.extractLsb' 48 4, w.extractLsb' 44 4, w.extractLsb' 43 1, w.extractLsb' 42 1, w.extractLsb' 41 1, w.extractLsb' 40 1,
    w.extractLsb' 0 40⟩
/-- The fields of TREAD (Table 3-11). -/
def treadOf (w : Word64) : TreadF :=
  ⟨w.extractLsb' 48 4, w.extractLsb' 44 4, w.extractLsb' 43 1, w.extractLsb' 42 1, w.extractLsb' 39 3, w.extractLsb' 0 39⟩
/-- The fields of TCLR (Table 3-11). -/
def tclrOf (w : Word64) : TclrF := ⟨w.extractLsb' 44 8, w.extractLsb' 43 1, w.extractLsb' 0 43⟩
/-- The fields of TSAVE and TLOAD (Table 3-11). -/
def timgOf (w : Word64) : TimgF := ⟨w.extractLsb' 48 4, w.extractLsb' 44 4, w.extractLsb' 43 1, w.extractLsb' 0 43⟩
/-- The fields of a vector word (Table 3-12). -/
def vecOf (w : Word64) : VecF :=
  ⟨w.extractLsb' 48 4, w.extractLsb' 44 4, w.extractLsb' 40 4, w.extractLsb' 36 4, w.extractLsb' 33 3, w.extractLsb' 29 4,
    w.extractLsb' 24 5, w.extractLsb' 9 15, w.extractLsb' 0 9⟩
/-- The fields of a data-movement word (Table 3-14). -/
def moveOf (w : Word64) : MoveF :=
  ⟨w.extractLsb' 48 4, w.extractLsb' 43 5, w.extractLsb' 38 5, w.extractLsb' 37 1, w.extractLsb' 31 6, w.extractLsb' 30 1,
    w.extractLsb' 29 1, w.extractLsb' 0 29⟩
/-- The fields of ESIG and EWAIT (Table 3-16). -/
def syncOf (w : Word64) : SyncF :=
  ⟨w.extractLsb' 48 4, w.extractLsb' 42 6, w.extractLsb' 37 5, w.extractLsb' 32 5, w.extractLsb' 0 32⟩
/-- The fields of HINT (R179). -/
def hintOf (w : Word64) : HintF :=
  ⟨w.extractLsb' 48 4, w.extractLsb' 32 16, w.extractLsb' 20 12, w.extractLsb' 0 20⟩

/-- Decode a kernel instruction word; none for a reserved class or operation (R122, R123). -/
def decodeK (w : Word64) : Option KInsn :=
  let op := w.extractLsb' 52 8
  match (w.extractLsb' 60 4).toNat with
  | 0x0 => if scalarOps.contains op then some (.scalar op (scalarOf w)) else none
  | 0x2 => if descOps.contains op then some (.desc op (descOf w)) else none
  | 0x3 =>
    match op.toNat with
    | 0x01 => some (.tmul (tmulOf w))
    | 0x02 => some (.tclr (tclrOf w))
    | 0x03 => some (.tread (treadOf w))
    | 0x04 => some (.tsave (timgOf w))
    | 0x05 => some (.tload (timgOf w))
    | _ => none
  | 0x4 => if vecOps.contains op then some (.vec op (vecOf w)) else none
  | 0x5 => if moveOps.contains op then some (.move op (moveOf w)) else none
  | 0x6 =>
    match op.toNat with
    | 0x01 => some (.esig (syncOf w))
    | 0x02 => some (.ewait (syncOf w))
    | 0x03 => some (.mfence ⟨w.extractLsb' 0 52⟩)
    | _ => none
  | 0x7 => if op = 0x01 then some (.hint (hintOf w)) else none
  | _ => none

/-- Class and operation in front of the 52 bits of a word. -/
def kWord (cls : BitVec 4) (op : BitVec 8) (body : BitVec 52) : Word64 := cls ++ op ++ body

/-- Encode a kernel instruction. -/
def KInsn.encode : KInsn → Word64
  | .scalar op f => kWord 0 op (f.sd ++ f.sa ++ f.sb ++ f.rsv ++ f.imm)
  | .desc op f => kWord 2 op (f.dd ++ f.da ++ f.sa ++ f.rsv ++ f.imm)
  | .tmul f => kWord 3 1 (f.da ++ f.db ++ f.slot ++ f.acc ++ f.ta ++ f.tb ++ f.rsv)
  | .tclr f => kWord 3 2 (f.rsv1 ++ f.slot ++ f.rsv2)
  | .tread f => kWord 3 3 (f.dd ++ f.rsv1 ++ f.slot ++ f.clr ++ f.rmode ++ f.rsv2)
  | .tsave f => kWord 3 4 (f.dd ++ f.rsv1 ++ f.slot ++ f.rsv2)
  | .tload f => kWord 3 5 (f.dd ++ f.rsv1 ++ f.slot ++ f.rsv2)
  | .vec op f => kWord 4 op (f.vd ++ f.va ++ f.vb ++ f.vc ++ f.rmode ++ f.d ++ f.sx ++ f.rsv ++ f.nlane)
  | .move op f => kWord 5 op (f.d ++ f.sa ++ f.sb ++ f.ev ++ f.evn ++ f.srcAcc ++ f.slot ++ f.rsv)
  | .esig f => kWord 6 1 (f.rsv1 ++ f.evn ++ f.sa ++ f.rsv2 ++ f.imm)
  | .ewait f => kWord 6 2 (f.rsv1 ++ f.evn ++ f.sa ++ f.rsv2 ++ f.imm)
  | .mfence f => kWord 6 3 f.rsv
  | .hint f => kWord 7 1 (f.kind ++ f.rsv ++ f.power ++ f.dur)

/-- Is a reserved field of the word nonzero, for the fields that are reserved whatever the operands (R124)? -/
def KInsn.rsvBad : KInsn → Bool
  | .scalar _ f => f.rsv != 0
  | .desc op f => f.rsv != 0 || (op == 0x04 && f.imm >>> 4 != 0)
  | .tmul f => f.rsv != 0
  | .tclr f => f.rsv1 != 0 || f.rsv2 != 0
  | .tread f => f.rsv1 != 0 || f.rsv2 != 0
  | .tsave f => f.rsv1 != 0 || f.rsv2 != 0
  | .tload f => f.rsv1 != 0 || f.rsv2 != 0
  | .vec _ f => f.rsv != 0
  | .move op f => f.rsv != 0 ||
      (if op == 0x03 then (if f.srcAcc == 1 then f.d != 0 else f.slot != 0) else f.sb != 0 || f.srcAcc != 0 || f.slot != 0)
  | .esig f => f.rsv1 != 0 || f.rsv2 != 0 || f.imm == 0
  | .ewait f => f.rsv1 != 0 || f.rsv2 != 0
  | .mfence f => f.rsv != 0
  | .hint f => f.rsv != 0 || decide (2 ≤ f.kind.toNat)

end Sys2Proof
end

