-- ==== Sys2Proof/Machine/Bits.lean ====
section
/-! DEFINITION. Byte order, bit fields and sign extension. Every structure of the manual is little-endian (R7); packed
element arrays are little-endian bit strings (R60). -/

namespace Sys2Proof.Machine

/-- The `n` low bytes of a number, least significant first. -/
def leBytes : Nat → Nat → Bytes
  | 0, _ => []
  | n + 1, x => BitVec.ofNat 8 x :: leBytes n (x / 256)

/-- The number that a byte string spells, least significant byte first. -/
def leNat : Bytes → Nat
  | [] => 0
  | b :: t => b.toNat + 256 * leNat t

/-- Bits `lo` to `lo + w - 1` of a number. -/
def bitsOf (x lo w : Nat) : Nat := (x >>> lo) % 2 ^ w

/-- A `w`-bit two's-complement number as an integer. -/
def sInt (w x : Nat) : Int := if x % 2 ^ w < 2 ^ (w - 1) then (x % 2 ^ w : Nat) else (x % 2 ^ w : Nat) - (2 ^ w : Nat)

/-- The low `w` bits of an integer in two's complement. -/
def toTwos (w : Nat) (x : Int) : Nat := (x % (2 ^ w : Nat)).toNat

/-- Saturating count of 16 bits (R12). -/
def sat16 (n : Nat) : Nat := if n < 0xFFFF then n + 1 else 0xFFFF

/-- A Bool as a register bit. -/
def bit (b : Bool) : Nat := if b then 1 else 0

/-- Split a list into consecutive pieces of `n`, with enough fuel for all of it. -/
def chunksFuel {α : Type} (n : Nat) : Nat → List α → List (List α)
  | 0, _ => []
  | f + 1, l => if l.isEmpty then [] else l.take n :: chunksFuel n f (l.drop n)

/-- Split a list into consecutive pieces of `n` (n at least 1). -/
def chunks {α : Type} (n : Nat) (l : List α) : List (List α) := chunksFuel n l.length l

end Sys2Proof.Machine
end

