-- ==== Sys2Proof/Machine/Ecc.lean ====
section
/-! DEFINITION. The stripe code (R231 to R235): a shortened Reed-Solomon code with 16 data and 4 check symbols over
GF(2^8). -/

namespace Sys2Proof.Machine

/-- Multiply by alpha = 0x02 in GF(2^8) with the primitive polynomial 0x11D (R234). -/
def gfX (a : Nat) : Nat := if a < 128 then 2 * a else (2 * a) ^^^ 0x11D

/-- Product in GF(2^8), over the `n` low bits of `b`. -/
def gfMulN : Nat → Nat → Nat → Nat
  | 0, _, _ => 0
  | n + 1, a, b => (if b % 2 = 1 then a else 0) ^^^ gfMulN n (gfX a) (b / 2)

/-- Product in GF(2^8). -/
def gfMul (a b : Nat) : Nat := gfMulN 8 a b

/-- alpha to the power `n`. -/
def gfExp : Nat → Nat
  | 0 => 1
  | n + 1 => gfX (gfExp n)

/-- Inverse of a nonzero element: its 254th power. -/
def gfInv (a : Nat) : Nat :=
  let a2 := gfMul a a; let a4 := gfMul a2 a2; let a8 := gfMul a4 a4; let a16 := gfMul a8 a8
  let a32 := gfMul a16 a16; let a64 := gfMul a32 a32; let a128 := gfMul a64 a64
  gfMul a2 (gfMul a4 (gfMul a8 (gfMul a16 (gfMul a32 (gfMul a64 a128)))))

/-- The four check symbols of 16 data symbols: the remainder of d_0 x^19 + … + d_15 x^4 by g(x) (R234). -/
def rsCheck (ds : List Nat) : Nat × Nat × Nat × Nat :=
  ds.foldl (fun (c : Nat × Nat × Nat × Nat) dj =>
    let f := dj ^^^ c.1
    (c.2.1 ^^^ gfMul f 0x0F, c.2.2.1 ^^^ gfMul f 0x36, c.2.2.2 ^^^ gfMul f 0x78, gfMul f 0x40)) (0, 0, 0, 0)

/-- A codeword of 20 symbols from 16 data symbols (R232, R233). -/
def rsEncode (ds : List Nat) : List Nat :=
  let c := rsCheck ds
  ds ++ [c.1, c.2.1, c.2.2.1, c.2.2.2]

/-- The value of the received word at a point, by Horner's rule; symbol j has power 19 - j. -/
def rsEval (x : Nat) (ws : List Nat) : Nat := ws.foldl (fun a w => gfMul a x ^^^ w) 0

/-- The four syndromes at alpha^0 to alpha^3. -/
def rsSynd (ws : List Nat) : List Nat := [rsEval 1 ws, rsEval 2 ws, rsEval 4 ws, rsEval 8 ws]

/-- Scale a row of equations. -/
def gfRowScale (k : Nat) (r : List Nat) : List Nat := r.map (gfMul k)

/-- Subtract a multiple of the pivot row so that column `c` becomes 0. -/
def gfRowElim (c : Nat) (piv r : List Nat) : List Nat :=
  let k := r.getD c 0
  List.zipWith (fun x y => x ^^^ gfMul k y) r piv

/-- Gauss-Jordan elimination over `n` columns from column `c`: pivot rows found, then the rows left. None when a column
has no pivot. -/
def gfGauss : Nat → Nat → List (List Nat) → List (List Nat) → Option (List (List Nat) × List (List Nat))
  | 0, _, done, rest => some (done, rest)
  | n + 1, c, done, rest =>
    match rest.find? (fun r => r.getD c 0 != 0) with
    | none => none
    | some r =>
      let piv := gfRowScale (gfInv (r.getD c 0)) r
      gfGauss n (c + 1) (done.map (gfRowElim c piv) ++ [piv]) ((rest.erase r).map (gfRowElim c piv))

/-- The error values at the given positions that explain the syndromes; none when no values do. -/
def rsSolve (pos : List Nat) (synd : List Nat) : Option (List Nat) :=
  let n := pos.length
  let rows := (List.range 4).map (fun i => pos.map (fun j => gfExp (i * (19 - j))) ++ [synd.getD i 0])
  match gfGauss n 0 [] rows with
  | none => none
  | some (done, rest) => if rest.all (fun r => r.getD n 0 == 0) then some (done.map (fun r => r.getD n 0)) else none

/-- The word with error values removed at the given positions. -/
def rsFix (ws : List Nat) (pos vals : List Nat) : List Nat :=
  (pos.zip vals).foldl (fun w pv => w.set pv.1 (w.getD pv.1 0 ^^^ pv.2)) ws

/-- All sets of at most two further positions, by size. -/
def rsSets (era : List Nat) (t : Nat) : List (List Nat) :=
  let free := (List.range 20).filter (fun j => !era.contains j)
  match t with
  | 0 => [[]]
  | 1 => free.map (fun j => [j])
  | _ => free.flatMap (fun i => (free.filter (fun j => decide (i < j))).map (fun j => [i, j]))

/-- Try error sets in the order given. -/
def rsTry (ws synd era : List Nat) : List (List Nat) → Option (List Nat × List Nat)
  | [] => none
  | s :: t =>
    match rsSolve (era ++ s) synd with
    | some vals => some (rsFix ws (era ++ s) vals, s)
    | none => rsTry ws synd era t

/-- Decode a codeword of 20 symbols with the erased positions `era`: the corrected word and the error positions outside
the erasures, up to t errors with e + 2t at most 4 (R235); none when it does not decode within that bound. -/
def rsDecode (era ws : List Nat) : Option (List Nat × List Nat) :=
  let synd := rsSynd ws
  if era.isEmpty && synd.all (· == 0) then some (ws, [])
  else if 4 < era.length then none
  else
    let sets := (List.range ((4 - era.length) / 2 + 1)).flatMap (rsSets era)
    rsTry ws synd era sets

end Sys2Proof.Machine
end

