-- ==== Sys2Proof/Config.lean ====
section
/-! DEFINITION. What the manual leaves open and what cited standards compute: opaque constants with no value. A
counter of the state (`Dev.freeIx`) picks a fresh one each time (log 12). Cryptographic results are uninterpreted
(log 11). -/

namespace Sys2Proof.Config

/-- A free choice among `n` possibilities: the manual states no rule for it (R40: which hot spare; R269: which line the
full snoop filter evicts). Taken modulo `n` where it is used. -/
opaque freeChoice : Nat → Nat
/-- Where in its tolerance the regulator of a channel holds the coil current, by channel and time (R533). -/
opaque coilCurrent : Nat → Nat → Nat
/-- A free 32-bit word: a value the manual does not state. -/
opaque freeWord : Nat → Word32
/-- Configuration space words that the PCIe and CXL standards define beyond Tables 6-5 to 6-7, by function and offset. -/
opaque stdConfig : Nat → Nat → Word32
/-- Which bits of a configuration word that the standards define software can write, by function and offset. -/
opaque stdMask : Nat → Nat → Word32
/-- AES-256-GCM sealing of a page (R418): key, IV, additional data, plaintext give the ciphertext. -/
opaque gcmSeal : BitVec 256 → Nat → Bytes → Bytes → Bytes
/-- The authentication tag of a sealed page (R418): key, IV, additional data, ciphertext. -/
opaque gcmTag : BitVec 256 → Nat → Bytes → Bytes → BitVec 128
/-- AES-256-GCM opening of a page (R418). -/
opaque gcmOpen : BitVec 256 → Nat → Bytes → Bytes → Bytes
/-- The Gatehouse random source (R449 and chapter 13), by draw number. -/
opaque random32 : Nat → Word32
/-- 256-bit draws of the Gatehouse random source. -/
opaque random256 : Nat → BitVec 256
/-- SHAKE256 with an output of a number of bytes (chapter 13). -/
opaque shakeXof : Bytes → Nat → Bytes
/-- A string cut or filled with zeros to n bytes. -/
def fix (n : Nat) (b : Bytes) : Bytes := (b ++ List.replicate n 0).take n
/-- SHAKE256 with a 256-bit output, the first byte least significant. -/
def shake256 (b : Bytes) : BitVec 256 := BitVec.ofNat 256 ((fix 32 (shakeXof b 32)).foldr (fun x n => n * 256 + x.toNat) 0)

/-! ### Keys (R584 to R588, Tables 13-4 and 13-5) -/

/-- The helper data in flash from which the device secret is reconstructed (R584). -/
opaque helperData : Bytes
/-- The device secret that error correction gives for the power-up state of the dedicated SRAM and the helper data, or none (R584). -/
opaque reconstruct : Bytes → Bytes → Option (BitVec 256)
/-- A key derived from the device secret: SHAKE256(DS ‖ label) with an output of n bytes (R585). -/
def derive (ds : BitVec 256) (label : String) (n : Nat) : Bytes :=
  fix n (shakeXof ((List.range 32).map (fun i => BitVec.ofNat 8 (ds.toNat / 256 ^ i)) ++ label.toList.map (fun c => BitVec.ofNat 8 c.toNat)) n)

/-- The OIDs of XMSS-SHAKE256_10_256, _16_256 and _20_256 (PRESUMED from NIST SP 800-208, log 44). -/
def oid10 : Byte := 0x10
def oid16 : Byte := 0x11
def oid20 : Byte := 0x12
/-- A public key of 68 bytes: OID, most significant byte first, root and seed (R586). -/
def xmssPub (oid : Byte) (root seed : Bytes) : Bytes := [0, 0, 0, oid] ++ fix 32 root ++ fix 32 seed
/-- The root of the tree of SK_SEED, SK_PRF and PUB_SEED at a height. -/
opaque xmssRoot : Nat → Bytes → Bytes
/-- The public key of a key pair by its OID, height and 96 bytes of SK_SEED, SK_PRF and PUB_SEED. -/
def xmssKey (oid : Byte) (height : Nat) (seeds : Bytes) : Bytes := xmssPub oid (xmssRoot height seeds) (seeds.drop 64)
/-- The length of a signature under a public key: its OID names height 10, 16 or 20 (R586). -/
def sigLen (pub : Bytes) : Nat :=
  if pub.take 4 = [0, 0, 0, oid20] then 2820 else if pub.take 4 = [0, 0, 0, oid10] then 2500 else 2692
/-- XMSS verification (RFC 8391): public key, message, signature. -/
opaque xmssCheck : Bytes → Bytes → Bytes → Bool
/-- XMSS verification of a signature of the key's length (R586). -/
def xmssVerify (pub m sig : Bytes) : Bool := sig.length == sigLen pub && xmssCheck pub m sig
/-- XMSS signing (RFC 8391): the public key of the key pair, the index, the message. -/
opaque xmssSignature : Bytes → Nat → Bytes → Bytes
/-- A signature of the key's length (R586). -/
def xmssSign (pub : Bytes) (i : Nat) (m : Bytes) : Bytes := fix (sigLen pub) (xmssSignature pub i m)

/-- The root and the seed of the vendor firmware key whose digest mask ROM holds (R581). -/
opaque vendorRoot : Bytes
opaque vendorSeed : Bytes
/-- The vendor firmware public key (Table 13-5). -/
def vendorKey : Bytes := xmssPub oid20 vendorRoot vendorSeed
/-- SK_SEED, SK_PRF and PUB_SEED of the device identity key (Table 13-4). -/
def identitySeeds (ds : BitVec 256) : Bytes := derive ds "ZG9-IDENTITY-XMSS" 96
/-- The device identity public key (Tables 13-4, 13-5). -/
def identityKey (ds : BitVec 256) : Bytes := xmssKey oid16 16 (identitySeeds ds)
/-- SK_SEED, SK_PRF and PUB_SEED that one random draw gives (R588). -/
opaque attestSeeds : Nat → Bytes
/-- The attestation public key generated from one random draw (R588, Table 13-5). -/
def attestKey (k : Nat) : Bytes := xmssKey oid10 10 (fix 96 (attestSeeds k))
/-- The ML-KEM-1024 encapsulation key that FIPS 203 generates from d and z. -/
opaque mlkemPublic : Bytes → Bytes
/-- The shared secret that decapsulation with the key pair of d and z gives for a ciphertext. -/
opaque mlkemSecret : Bytes → Bytes → Bytes
/-- d and z of the module's ML-KEM-1024 key (Table 13-4). -/
def mlkemSeeds (ds : BitVec 256) : Bytes := derive ds "ZG9-MLKEM-1024" 64
/-- The module's ML-KEM-1024 encapsulation key, 1,568 bytes. -/
def mlkemKey (ds : BitVec 256) : Bytes := fix 1568 (mlkemPublic (mlkemSeeds ds))
/-- ML-KEM-1024 decapsulation with the module's key (R601): a ciphertext gives a shared secret of 32 bytes. -/
def mlkemDecaps (ds : BitVec 256) (ct : Bytes) : Bytes := fix 32 (mlkemSecret (mlkemSeeds ds) ct)
/-- The key of the Gatehouse's sealed flash records (Table 13-4). -/
def storageKey (ds : BitVec 256) : BitVec 256 :=
  BitVec.ofNat 256 ((derive ds "ZG9-STORAGE" 32).foldr (fun x n => n * 256 + x.toNat) 0)
/-- The nodes of the identity key's tree, by its seeds. -/
opaque identityTree : Bytes → Bytes
/-- What flash holds of the identity key's tree: its nodes sealed under the storage key (R585). -/
def treeRecord (ds : BitVec 256) : Bytes := gcmSeal (storageKey ds) 0 [] (identityTree (identitySeeds ds))
/-- The certificate chain of slot 0 up to the identity certificate, in flash: the certificate carries the serial number, the identity public
key and, as an extension, the ML-KEM-1024 encapsulation key (R587). -/
opaque identityChain : Word64 → Bytes → Bytes → Bytes
/-- The chain of a module by its serial number and its device secret. -/
def certChain (serial : Word64) (ds : BitVec 256) : Bytes := identityChain serial (identityKey ds) (mlkemKey ds)
/-- The certificate of an attestation key: its public key and the identity signature over it (R588). -/
opaque attestCert : Bytes → Bytes → Bytes
/-- Does the write to flash of this number of the free values succeed (R589, R605, GHM_EVT FLASH_ERR)? -/
opaque flashOk : Nat → Bool
/-- The KEY that journal records of the SVN floor carry, which the manual leaves open (Table 13-6). -/
opaque floorKey : Byte
/-- AES-256-GCM opening under a key (R601): key, IV, additional data, ciphertext with tag; nothing when the tag fails. -/
opaque gcmUnwrap : BitVec 256 → Bytes → Bytes → Bytes → Option Bytes
/-- The handshake of a session (R594): does the FINISH verify? Session number and message. -/
opaque finishOk : Nat → Bytes → Bool
/-- The secret that the key exchange of a session gives (R594): session number and the requester's data. -/
opaque sessionSecret : Nat → Bytes → Bytes
/-- A key of a session's AEAD (R594): of requests or of responses, of the handshake or of the data, from the secret. -/
opaque sessionKey : Bool → Bool → Bytes → BitVec 256
/-- The key that follows a key at a KEY_UPDATE (R594). -/
opaque nextKey : BitVec 256 → BitVec 256
/-- The responder's key-exchange data of a session (R594). -/
opaque exchangeData : Nat → Bytes → Bytes
/-- SHA-384 or SHA3-384 (Table 13-7). -/
opaque hash384 : Bool → Bytes → Bytes
/-- The mask ROM's contents (Table 13-8). -/
opaque maskRom : Bytes
/-- The firmware image in flash as delivered. -/
opaque factoryImage : Bytes
/-- The signed configuration in flash as delivered. -/
opaque factoryConfig : Bytes
/-- A signed object whose layout the manual does not give (a configuration, a predictor model's envelope): the digest of its
signer's public key, the signed bytes and the signature; nothing for a malformed object. By KIND. -/
opaque signedParts : Nat → Bytes → Option (BitVec 256 × Bytes × Bytes)
/-- An owner enrolment (R592): new public key, module serial number, signed bytes, the new key's signature, the other signature. -/
opaque enrolment : Bytes → Option (Bytes × Word64 × Bytes × Bytes × Bytes)
/-- The register values a signed configuration holds: BAR0 offset and value, lock bits among them (R684). -/
opaque configValues : Bytes → List (Nat × Word32)
/-- The serial number of a memory package (Table 15-8). -/
opaque packageSerial : Nat → Bytes
/-- The nominal frequency in kHz of a clock of CKP_CLKOBS.SEL that the manual does not give (R627). -/
opaque clockKHz : Nat → Nat
/-- A byte of host memory that no command brings: an index of the free values and a position. -/
opaque hostByte : Nat → Nat → Byte
/-- The operating point a governor's factory table gives for a lease (R181): a frequency step number. -/
opaque leaseStep : Nat → Nat → Nat
/-- The voltage in mV that a Pavilion's factory table gives for a frequency in MHz (R28, R181). -/
opaque railMv : Nat → Nat → Nat
/-- Bed errors corrected in the fetch and the reads of an instruction that no command brings (R112). -/
opaque bedErrors : Nat → Nat
/-- The GANG of a gang that has no member on its home (R365). -/
opaque gangSize : Nat → Nat
/-- The credits of a virtual channel of a Trellis link, less one (R442). -/
opaque linkCredits : Nat
/-- The size of the payload registers of the CXL primary mailbox: 2 to the power of 8 to 15 bytes (R291). -/
opaque mbxPayload : Nat
/-- What a wide accumulator holds after an addition whose exact sum lies outside its 640 bits (R78). -/
opaque wideOver : Int → BitVec 640
/-- The page that an ATS translation gives (R312). -/
opaque hostPage : Nat → Nat
/-- The metered energy of a run that ends without a SHARE_END (R350). -/
opaque runEnergy : Nat → Nat

end Sys2Proof.Config
end

