-- ==== Sys2Proof/Machine/Num.lean ====
section
/-! DEFINITION. Number formats and exact arithmetic (chapter 2). Every finite value of the module is an integer
multiple of 2^-320 (R77), so an exact value is held as a sign and a natural number of units of 2^-320. -/

namespace Sys2Proof.Machine

/-- The number formats (Table 2-1). -/
inductive Fmt where
  | fp32 | bf16 | fp16 | e4m3 | e5m2 | e3m2 | e2m1 | int8 | int4 | os12 | os8
  deriving DecidableEq, Repr

/-- The format of a 4-bit code; codes 11 to 15 are reserved (R58). -/
def Fmt.ofCode : Nat → Option Fmt
  | 0 => some .fp32 | 1 => some .bf16 | 2 => some .fp16 | 3 => some .e4m3 | 4 => some .e5m2 | 5 => some .e3m2
  | 6 => some .e2m1 | 7 => some .int8 | 8 => some .int4 | 9 => some .os12 | 10 => some .os8 | _ => none

/-- The code of a format. -/
def Fmt.code : Fmt → Nat
  | .fp32 => 0 | .bf16 => 1 | .fp16 => 2 | .e4m3 => 3 | .e5m2 => 4 | .e3m2 => 5
  | .e2m1 => 6 | .int8 => 7 | .int4 => 8 | .os12 => 9 | .os8 => 10

/-- Element bits (Table 2-1). -/
def Fmt.bits : Fmt → Nat
  | .fp32 => 32 | .bf16 => 16 | .fp16 => 16 | .e4m3 => 8 | .e5m2 => 8 | .e3m2 => 6
  | .e2m1 => 4 | .int8 => 8 | .int4 => 4 | .os12 => 12 | .os8 => 8

/-- Formats that always carry a block scale (R69). -/
def Fmt.mustScale : Fmt → Bool
  | .e3m2 | .e2m1 => true
  | _ => false

/-- Formats that may carry a block scale (R69). -/
def Fmt.mayScale : Fmt → Bool
  | .e3m2 | .e2m1 | .int8 | .int4 | .os8 => true
  | _ => false

/-- A scaled mark that R69 permits for the format. -/
def Fmt.scaleOk (f : Fmt) (scaled : Bool) : Bool := if scaled then f.mayScale else !f.mustScale

/-- Osium formats. -/
def Fmt.isOs : Fmt → Bool
  | .os12 | .os8 => true
  | _ => false

/-- Integer formats. -/
def Fmt.isInt : Fmt → Bool
  | .int8 | .int4 => true
  | _ => false

/-- Exponent bits, mantissa bits and bias of the floating-point formats (Table 2-2). -/
def Fmt.flt : Fmt → Option (Nat × Nat × Nat)
  | .fp32 => some (8, 23, 127) | .bf16 => some (8, 7, 127) | .fp16 => some (5, 10, 15) | .e4m3 => some (4, 3, 7)
  | .e5m2 => some (5, 2, 15) | .e3m2 => some (3, 2, 3) | .e2m1 => some (2, 1, 1) | _ => none

/-- Arithmetic flag sets (Table 2-7): bit 0 inexact, 1 underflow-to-zero, 2 overflow, 3 NaN/NaR. -/
abbrev Flags := BitVec 4
def flInexact : Flags := 1#4
def flUnder : Flags := 2#4
def flOver : Flags := 4#4
def flNan : Flags := 8#4

/-- An exact value: a signed number of units of 2^-320, or NaN/NaR. The sign of zero is kept. -/
inductive Val where
  | num (neg : Bool) (mag : Nat)
  | nan
  deriving DecidableEq, Repr

/-- The value as an integer of units; NaN counts as 0. -/
def Val.int : Val → Int
  | .num neg mag => if neg then -(mag : Int) else mag
  | .nan => 0

/-- An exact sum as a value; zero has sign +. -/
def Val.ofInt (i : Int) : Val := .num (decide (i < 0)) i.natAbs

/-- The table T of R73: the integer nearest to 2^(23 + f/64). -/
def osT : List Nat := [8388608, 8479954, 8572295, 8665641, 8760003, 8855394, 8951823, 9049301, 9147842, 9247455, 9348154,
  9449948, 9552851, 9656875, 9762032, 9868333, 9975792, 10084422, 10194234, 10305242, 10417458, 10530897, 10645571,
  10761494, 10878679, 10997140, 11116891, 11237946, 11360319, 11484025, 11609078, 11735492] ++
  [11863283, 11992466, 12123055, 12255067, 12388516, 12523418, 12659789, 12797645, 12937002, 13077877, 13220286, 13364245,
  13509772, 13656884, 13805598, 13955931, 14107901, 14261526, 14416824, 14573813, 14732511, 14892937, 15055111, 15219050,
  15384775, 15552304, 15721658, 15892855, 16065917, 16240863, 16417715, 16596492]

/-- V(L) in units of 2^-u (R72). -/
def osV (u : Nat) (l : Int) : Nat := osT.getD (l % 64).toNat 0 * 2 ^ ((l / 64 + u - 23).toNat)

/-- Largest finite magnitude of a floating-point format as an integer times a power of two (Table 2-2). -/
def Fmt.maxFlt : Fmt → Nat × Nat
  | .fp32 => (2 ^ 24 - 1, 104) | .bf16 => (2 ^ 8 - 1, 120) | .fp16 => (65504, 0) | .e4m3 => (448, 0)
  | .e5m2 => (57344, 0) | .e3m2 => (28, 0) | .e2m1 => (6, 0) | _ => (0, 0)

/-- The end of the finite range on the side of the sign, in units of 2^-u (R95, R97, R98). -/
def Fmt.maxMag (f : Fmt) (u : Nat) (neg : Bool) : Nat :=
  match f with
  | .int8 => (if neg then 128 else 127) * 2 ^ u
  | .int4 => (if neg then 8 else 7) * 2 ^ u
  | .os12 => osV u 1023
  | .os8 => osV u 504
  | f => f.maxFlt.1 * 2 ^ (f.maxFlt.2 + u)

/-- The canonical NaN or NaR code of a format; 0 where it has none (Table 2-2, R71, R74). -/
def Fmt.nanCode : Fmt → Nat
  | .fp32 => 0x7FC00000 | .bf16 => 0x7FC0 | .fp16 => 0x7E00 | .e4m3 => 0x7F | .e5m2 => 0x7F
  | .os12 => 0xC00 | .os8 => 0xC0 | _ => 0

/-- The exact value of a floating-point code, with the flags of reading it (R61, R63, R65). -/
def fltVal (f : Fmt) (p : Nat × Nat × Nat) (code : Nat) : Val × Flags :=
  let (e, m, b) := p
  let neg := bitsOf code (e + m) 1 = 1
  let ex := bitsOf code m e
  let mt := bitsOf code 0 m
  let fin := Val.num neg (if ex = 0 then mt * 2 ^ (321 - b - m) else (2 ^ m + mt) * 2 ^ (ex + 320 - b - m))
  match f with
  | .e4m3 => if bitsOf code 0 7 = 0x7F then (.nan, 0) else (fin, 0)
  | .e3m2 | .e2m1 => (fin, 0)
  | f => if ex = 2 ^ e - 1 then (if mt = 0 then (.num neg (f.maxMag 320 neg), flOver) else (.nan, 0)) else (fin, 0)

/-- The exact value of an element with scale code `x` (0x7F for an unscaled operand), R61 to R75. -/
def elemVal (f : Fmt) (x : Nat) (code : Nat) : Val × Flags :=
  if x = 0xFF then (.nan, 0) else
  match f.flt with
  | some p =>
    match fltVal f p code with
    | (.num neg mag, fl) => (.num neg (mag * 2 ^ x / 2 ^ 127), fl)
    | r => r
  | none =>
    match f with
    | .int8 => let i := sInt 8 code; (.num (decide (i < 0)) (i.natAbs * 2 ^ (320 + x) / 2 ^ 127), 0)
    | .int4 => let i := sInt 4 code; (.num (decide (i < 0)) (i.natAbs * 2 ^ (320 + x) / 2 ^ 127), 0)
    | .os12 =>
      if code % 2 ^ 12 = 0x400 then (.num false 0, 0) else if code % 2 ^ 12 = 0xC00 then (.nan, 0)
      else (.num (bitsOf code 11 1 = 1) (osV 320 (sInt 11 code)), 0)
    | _ =>
      if code % 256 = 0x40 then (.num false 0, 0) else if code % 256 = 0xC0 then (.nan, 0)
      else (.num (bitsOf code 7 1 = 1) (osV 320 (8 * sInt 7 code + 64 * ((x : Int) - 127))), 0)

/-- The sign and logarithm of an Osium code, in units of 1/64, with its scale (R76); none for zero or NaR. -/
def osLog (f : Fmt) (x : Nat) (code : Nat) : Option (Bool × Int) :=
  match elemVal f x code with
  | (.num neg mag, _) =>
    if mag = 0 then none else
    some (neg, match f with
      | .os12 => sInt 11 code
      | _ => 8 * sInt 7 code + 64 * ((x : Int) - 127))
  | _ => none

/-- The two representable magnitudes around a magnitude, and whether the lower one has an even final code (R93, R94). -/
structure Grid where
  low : Nat
  high : Nat
  even : Bool
  deriving DecidableEq, Repr

/-- How many entries of T lie at or below `c` units of `q`. -/
def osCount (q mag : Nat) : Nat := (osT.filter (fun t => t * q ≤ mag)).length

/-- The largest L with V(L) at or below a nonzero magnitude in units of 2^-u. -/
def osFloor (u mag : Nat) : Int :=
  let k : Int := (Nat.log2 mag : Int) - u
  let e := k + u - 23
  if 0 ≤ e then 64 * k + (osCount (2 ^ e.toNat) mag : Int) - 1
  else 64 * k + ((osT.filter (fun t => t ≤ mag * 2 ^ (-e).toNat)).length : Int) - 1

/-- Neighbours of a magnitude on an Osium grid with logarithms the multiples of `st` within ± `lim`. -/
def osGrid (u st lim : Nat) (mag : Nat) : Grid :=
  let l := osFloor u mag / st
  if l < -(lim : Int) then ⟨0, osV u (-(lim * st : Nat)), true⟩
  else ⟨osV u (l * st), osV u ((l + 1) * st), l % 2 = 0⟩

/-- The neighbours of a nonzero magnitude within the finite range of a format (R93, R94, R97, R98). -/
def Fmt.grid (f : Fmt) (u : Nat) (mag : Nat) : Grid :=
  match f.flt with
  | some (_, m, b) =>
    let q := 2 ^ (max (Nat.log2 mag) (u + 1 - b) - m)
    ⟨mag / q * q, mag / q * q + q, mag / q % 2 = 0⟩
  | none =>
    match f with
    | .os12 => osGrid u 1 1023 mag
    | .os8 => osGrid u 8 63 mag
    | _ => ⟨mag / 2 ^ u * 2 ^ u, mag / 2 ^ u * 2 ^ u + 2 ^ u, mag / 2 ^ u % 2 = 0⟩

/-- The code of a representable magnitude with its sign. -/
def Fmt.codeOf (f : Fmt) (u : Nat) (neg : Bool) (mag : Nat) : Nat :=
  match f.flt with
  | some (e, m, b) =>
    let s := bit neg * 2 ^ (e + m)
    if mag < 2 ^ (u + 1 - b) then s + mag / 2 ^ (u + 1 - b - m)
    else let l := Nat.log2 mag; s + (l + b - u) * 2 ^ m + (mag / 2 ^ (l - m) - 2 ^ m)
  | none =>
    match f with
    | .os12 => if mag = 0 then 0x400 else bit neg * 2 ^ 11 + toTwos 11 (osFloor u mag)
    | .os8 => if mag = 0 then 0x40 else bit neg * 2 ^ 7 + toTwos 7 (osFloor u mag / 8)
    | f => toTwos f.bits (if neg then -((mag / 2 ^ u : Nat) : Int) else (mag / 2 ^ u : Nat))

/-- The random number r of R101 from a seed and an element index. -/
def stochR (seed n : Nat) : Nat :=
  let m := 2 ^ 64
  let z := (seed + (n + 1) * 0x9E3779B97F4A7C15) % m
  let z := ((z ^^^ (z >>> 30)) * 0xBF58476D1CE4E5B9) % m
  let z := ((z ^^^ (z >>> 27)) * 0x94D049BB133111EB) % m
  let z := z ^^^ (z >>> 31)
  z >>> 32

/-- Does rounding choose the larger of the two neighbouring magnitudes? Modes of Table 2-6; `r` is R101's number. -/
def pickHigh (mode r : Nat) (neg : Bool) (g : Grid) (mag : Nat) : Bool :=
  match mode with
  | 0 => if 2 * mag = g.low + g.high then !g.even else decide (g.low + g.high < 2 * mag)
  | 1 => false
  | 2 => !neg
  | 3 => neg
  | _ =>
    if neg then !decide (r < 2 ^ 32 * (g.high - mag) / (g.high - g.low))
    else decide (r < 2 ^ 32 * (mag - g.low) / (g.high - g.low))

/-- Round a signed magnitude in units of 2^-u into a format (R92 to R98); `blk` for an element of a block-scaled
target, whose range end sets inexact only (R100). -/
def roundTo (f : Fmt) (u mode r : Nat) (blk neg : Bool) (mag : Nat) : Nat × Flags :=
  if mag = 0 then (f.codeOf u neg 0, 0)
  else if f.maxMag u neg < mag then (f.codeOf u neg (f.maxMag u neg), if blk then flInexact else flInexact ||| flOver)
  else
    let g := f.grid u mag
    if g.low = mag then (f.codeOf u neg mag, 0)
    else
      let c := if pickHigh mode r neg g mag then g.high else g.low
      (f.codeOf u neg c, if c = 0 then flInexact ||| flUnder else flInexact)

/-- Convert a value into an unscaled format (R106, Table 2-8). -/
def convTo (f : Fmt) (mode r : Nat) : Val → Nat × Flags
  | .nan => (f.nanCode, flNan)
  | .num neg mag => roundTo f 320 mode r false neg mag

/-- The value of emax for a block-scaled target (R99). -/
def Fmt.emax : Fmt → Nat
  | .e3m2 => 4 | .e2m1 => 2 | .int8 => 6 | .int4 => 2 | .os8 => 7 | _ => 0

/-- Round one block of values into a block-scaled format (R99, R100): scale code, element codes, flags.
`rs` gives R101's number of each element. -/
def roundBlock (f : Fmt) (mode : Nat) (vs : List (Val × Nat)) : Nat × List Nat × Flags :=
  if vs.any (fun v => v.1 == .nan) then (0xFF, vs.map (fun _ => 0), flNan)
  else
    let amax := vs.foldl (fun a v => max a v.1.int.natAbs) 0
    let e0 : Int := if amax = 0 then 0 else (Nat.log2 amax : Int) - 320 - f.emax
    let e : Int := max (-127) (min 127 e0)
    let fl : Flags := if 127 < e0 then flOver else 0
    let cs := vs.map (fun v => match v.1 with
      | .num neg mag => roundTo f (320 + e).toNat mode v.2 true neg mag
      | .nan => (0, flNan))
    ((e + 127).toNat, cs.map Prod.fst, cs.foldl (fun a c => a ||| c.2) fl)

/-! ### FP32 arithmetic (R88 to R90, R107) -/

/-- The value of an FP32 code. -/
def fpVal (c : Nat) : Val × Flags := elemVal .fp32 0x7F c

/-- Round an exact value to FP32; NaN gives the canonical NaN. -/
def fpOf (mode : Nat) (v : Val) : Nat × Flags := convTo .fp32 mode 0 v

/-- The exact sum of two values; an exact zero sum takes the sign IEEE 754 gives it. -/
def valAdd (mode : Nat) : Val → Val → Val
  | .num na ma, .num nb mb =>
    let s := (Val.num na ma).int + (Val.num nb mb).int
    if s = 0 then .num (if ma = 0 ∧ mb = 0 ∧ na = nb then na else decide (mode = 3)) 0 else Val.ofInt s
  | _, _ => .nan

/-- The exact product of two values. DESIGN CHOICE (log 59): a product that is exactly zero has the sign of the factors' signs, negative where
they differ, as for any other product; R88 gives it none. -/
def valMul : Val → Val → Val
  | .num na ma, .num nb mb => .num (na != nb) (ma * mb / 2 ^ 320)
  | _, _ => .nan

/-- The value with its sign inverted. -/
def Val.neg : Val → Val
  | .num n m => .num (!n) m
  | .nan => .nan

/-- FP32 addition. -/
def fpAdd (mode a b : Nat) : Nat × Flags :=
  let (x, f) := fpVal a; let (y, g) := fpVal b
  let (c, h) := fpOf mode (valAdd mode x y); (c, f ||| g ||| h)

/-- FP32 subtraction. -/
def fpSub (mode a b : Nat) : Nat × Flags :=
  let (x, f) := fpVal a; let (y, g) := fpVal b
  let (c, h) := fpOf mode (valAdd mode x y.neg); (c, f ||| g ||| h)

/-- FP32 multiplication. -/
def fpMul (mode a b : Nat) : Nat × Flags :=
  let (x, f) := fpVal a; let (y, g) := fpVal b
  let (c, h) := fpOf mode (valMul x y); (c, f ||| g ||| h)

/-- FP32 fused multiply-add, rounded once. -/
def fpFma (mode a b d : Nat) : Nat × Flags :=
  let (x, f) := fpVal a; let (y, g) := fpVal b; let (z, k) := fpVal d
  let (c, h) := fpOf mode (valAdd mode (valMul x y) z); (c, f ||| g ||| k ||| h)

/-- Is the first value the larger one? +0 stands above -0 (R155). -/
def valGe : Val → Val → Bool
  | .num na ma, .num nb mb =>
    let a := (Val.num na ma).int; let b := (Val.num nb mb).int
    if a = b then (!na || nb) else decide (b < a)
  | _, _ => false

/-- VMAX and VMIN of two FP32 codes (R155, R63). -/
def fpMax (a b : Nat) : Nat × Flags :=
  let (x, f) := fpVal a; let (y, g) := fpVal b
  if x = .nan ∨ y = .nan then (Fmt.fp32.nanCode, f ||| g ||| flNan)
  else let (c, h) := fpOf 0 (if valGe x y then x else y); (c, f ||| g ||| h)
def fpMin (a b : Nat) : Nat × Flags :=
  let (x, f) := fpVal a; let (y, g) := fpVal b
  if x = .nan ∨ y = .nan then (Fmt.fp32.nanCode, f ||| g ||| flNan)
  else let (c, h) := fpOf 0 (if valGe x y then y else x); (c, f ||| g ||| h)

/-- VABS and VNEG. -/
def fpAbs (a : Nat) : Nat × Flags :=
  match fpVal a with
  | (.num _ m, f) => let (c, h) := fpOf 0 (.num false m); (c, f ||| h)
  | (.nan, f) => (Fmt.fp32.nanCode, f ||| flNan)
def fpNeg (a : Nat) : Nat × Flags :=
  let (x, f) := fpVal a; let (c, h) := fpOf 0 x.neg; (c, f ||| h)

/-- One level of a balanced tree: neighbours joined in pairs. -/
def pairUp (op : Nat → Nat → Nat × Flags) : List Nat → List Nat × Flags
  | a :: b :: t => let (c, f) := op a b; let (r, g) := pairUp op t; (c :: r, f ||| g)
  | l => (l, 0)

/-- A balanced tree of `n` levels (R108: 8 levels over 256 lanes). -/
def treeFold (op : Nat → Nat → Nat × Flags) : Nat → List Nat → Nat × Flags
  | 0, l => (l.headD 0, 0)
  | n + 1, l => let (r, f) := pairUp op l; let (c, g) := treeFold op n r; (c, f ||| g)

/-! ### Osium logarithm and exponential (R109, R110, R159, R160) -/

/-- OEXP2 of an FP32 code: the Osium-12 code and flags. -/
def oexp2 (mode : Nat) (a : Nat) : Nat × Flags :=
  match fpVal a with
  | (.nan, f) => (0xC00, f ||| flNan)
  | (.num neg mag, f) =>
    let one := 2 ^ 320
    let q := 64 * mag / one; let rem := 64 * mag % one
    let up := match mode with
      | 0 => if 2 * rem = one then decide (q % 2 = 1) else decide (one < 2 * rem)
      | 1 => false
      | 2 => !neg
      | _ => neg
    let n : Int := if rem = 0 then q else if up then q + 1 else q
    let l := if neg then -n else n
    let fl : Flags := if rem = 0 then f else f ||| flInexact
    if 1023 < l then (0x3FF, fl ||| flOver ||| flInexact)
    else if l < -1023 then (0x400, fl ||| flUnder ||| flInexact)
    else (toTwos 11 l, fl)

/-- The FP32 code of L / 64, exact for the logarithms of R159. -/
def fpOfLog (l : Int) : Nat := (fpOf 0 (.num (decide (l < 0)) (l.natAbs * 2 ^ 314))).1

/-- VOLOG2 of an FP32 code in modes 0 to 3 (R159). DESIGN CHOICE (log 60): modes 2 and 3 round the signed lane, so that for a negative
lane they choose the magnitude that lies below and above. -/
def volog2 (mode : Nat) (a : Nat) : Nat × Flags :=
  match fpVal a with
  | (.nan, f) => (Fmt.fp32.nanCode, f ||| flNan)
  | (.num neg mag, f) =>
    if mag = 0 then (0xFF7FFFFF, f ||| flOver)
    else
      let l := osFloor 320 mag
      let g : Grid := ⟨osV 320 l, osV 320 (l + 1), l % 2 = 0⟩
      if g.low = mag then (fpOfLog l, f)
      else (fpOfLog (if pickHigh mode 0 neg g mag then l + 1 else l), f ||| flInexact)

/-! ### Tile products and accumulators (R82 to R90) -/

/-- The kind of accumulator an operand pair uses (Table 2-5); a narrow one with the weight of its integer. -/
inductive AccKind where
  | narrow (w : Nat) | wide | float
  deriving DecidableEq, Repr

/-- The accumulator of an operand pair; none for a pair that Table 2-5 does not permit. -/
def pairKind (fa : Fmt) (sa : Bool) (fb : Fmt) (sb : Bool) : Option AccKind :=
  match fa, fb with
  | .e4m3, .e4m3 => some (.narrow 18)
  | .e4m3, .e5m2 | .e5m2, .e4m3 => some (.narrow 25)
  | .e5m2, .e5m2 => some (.narrow 32)
  | .fp32, .fp32 | .bf16, .bf16 | .fp16, .fp16 => some .float
  | .os12, .os12 => some (.narrow 55)
  | .os12, .os8 => if sb then some .wide else some (.narrow 47)
  | .os8, .os12 => if sa then some .wide else some (.narrow 47)
  | .os8, .os8 => if sa || sb then some .wide else some (.narrow 39)
  | a, b =>
    if a.isInt && b.isInt then (if sa || sb then some .wide else some (.narrow 0))
    else
      let low := fun f : Fmt => f == .e4m3 || f == .e5m2 || f == .e3m2 || f == .e2m1
      if (a.mustScale || b.mustScale) && low a && low b then some .wide else none

/-- The greatest reduction length of a format (Table 3-10). -/
def Fmt.kt : Fmt → Nat
  | .fp32 => 8 | .bf16 => 32 | .fp16 => 32 | .e4m3 => 64 | .e5m2 => 64 | .int8 => 64 | .e3m2 => 64
  | .e2m1 => 128 | .int4 => 128 | .os12 => 128 | .os8 => 256

/-- An element as a tile operand: its format, its scale code and its code. -/
structure Opnd where
  fmt : Fmt
  scale : Nat
  code : Nat
  deriving DecidableEq, Repr

/-- The exact product of two operands of an exact pair (R76, R84, R87). -/
def exactProd (a b : Opnd) : Val × Flags :=
  let (x, f) := elemVal a.fmt a.scale a.code
  let (y, g) := elemVal b.fmt b.scale b.code
  if x = .nan ∨ y = .nan then (.nan, f ||| g)
  else if a.fmt.isOs then
    match osLog a.fmt a.scale a.code, osLog b.fmt b.scale b.code with
    | some (sa, la), some (sb, lb) => (.num (sa != sb) (osV 320 (la + lb)), 0)
    | _, _ => (.num false 0, 0)
  else (valMul x y, f ||| g)

/-- One accumulator cell: its integer (or FP32 code), its NaN state (R86) and whether it is held saturated (R85). -/
structure Cell where
  v : Int
  nan : Bool
  sat : Bool
  deriving DecidableEq, Repr

/-- A cleared cell (R83). -/
def Cell.zero : Cell := ⟨0, false, false⟩

/-- A cell in the NaN state (R86). It holds nothing else, so its image is the one R712 gives. -/
def Cell.inNan : Cell := ⟨0, true, false⟩

/-- Add one exact product into a narrow or wide cell (R84 to R87). DESIGN CHOICES (log 59): the NaN state takes the place of a held
saturation and ends only when the cell is cleared, so no cell has both states of R712; an addition that saturates delivers a
value other than the exact one and sets inexact beside overflow (Table 2-7). A wide cell holds 640 bits (R78): what an addition beyond them
leaves is stated nowhere and free. -/
def Cell.addExact (k : AccKind) (c : Cell) (p : Val × Flags) : Cell × Flags :=
  if c.nan then (c, p.2)
  else
    match p.1 with
    | .nan => (Cell.inNan, p.2)
    | v =>
      match k with
      | .narrow w =>
        if c.sat then (c, p.2)
        else
          let s := c.v + v.int / (2 ^ (320 - w) : Nat)
          if (2 ^ 127 - 1 : Int) < s then (⟨2 ^ 127 - 1, false, true⟩, p.2 ||| flOver ||| flInexact)
          else if s < -(2 ^ 127 : Int) then (⟨-(2 ^ 127), false, true⟩, p.2 ||| flOver ||| flInexact)
          else ({ c with v := s }, p.2)
      | .wide | .float =>
        let s := c.v + v.int
        ({ c with v := if -(2 ^ 639 : Int) ≤ s ∧ s < 2 ^ 639 then s else (Config.wideOver s).toInt }, p.2)

/-- Add a list of products in rising k. -/
def Cell.addAll (k : AccKind) (c : Cell) (ps : List (Opnd × Opnd)) : Cell × Flags :=
  ps.foldl (fun s p => let (c', f) := Cell.addExact k s.1 (exactProd p.1 p.2); (c', s.2 ||| f)) (c, 0)

/-- The FP32 product of a float pair, rounded to nearest even (R88). -/
def floatProd (p : Opnd × Opnd) : Nat × Flags :=
  let (x, f) := elemVal p.1.fmt p.1.scale p.1.code
  let (y, g) := elemVal p.2.fmt p.2.scale p.2.code
  let (c, h) := fpOf 0 (valMul x y); (c, f ||| g ||| h)

/-- The fixed tree of R89 over the products of a float pair, in chunks of 8, missing products +0. -/
def floatTree (acc : Nat) (ps : List (Opnd × Opnd)) : Nat × Flags :=
  (chunks 8 ps).foldl (fun s ch =>
    let qs := ch.map floatProd
    let codes := (qs.map Prod.fst ++ List.replicate 8 0).take 8
    let (h, f) := treeFold (fpAdd 0) 3 codes
    let (c, g) := fpAdd 0 s.1 h
    (c, s.2 ||| qs.foldl (fun a q => a ||| q.2) 0 ||| f ||| g)) (acc, 0)

/-- The exact value that a cell reads out (R86, R92); a zero sum carries no sign (R96). -/
def Cell.val (k : AccKind) (c : Cell) : Val :=
  if c.nan then .nan else
  match k with
  | .narrow w => Val.ofInt (c.v * (2 ^ (320 - w) : Nat))
  | .wide => Val.ofInt c.v
  | .float => match (fpVal c.v.toNat).1 with
    | .num n m => if m = 0 then .num false 0 else .num n m
    | .nan => .nan

end Sys2Proof.Machine
end

