-- ==== Sys2Proof/Machine/Tab.lean ====
section
/-! DEFINITION. Sparse data by number: a list of (key, value) pairs in one canonical form, keys strictly rising and no
value equal to what an unlisted key reads as, so that equal contents are equal lists. Memories, register files and
tables of the block are held this way. -/

namespace Sys2Proof.Machine

/-- A sparse table: key and value pairs. -/
abbrev Tab (α : Type) := List (Nat × α)

/-- The value at key `i`; `dflt i` where the table lists none. -/
def Tab.getD {α : Type} (dflt : Nat → α) : Tab α → Nat → α
  | [], i => dflt i
  | (k, v) :: t, i => if i = k then v else Tab.getD dflt t i

/-- The table with an entry put in front of the first greater key. -/
def Tab.ins {α : Type} (i : Nat) (v : α) : Tab α → Tab α
  | [] => [(i, v)]
  | (k, w) :: t => if i < k then (i, v) :: (k, w) :: t else (k, w) :: Tab.ins i v t

/-- The table without key `i`. -/
def Tab.del {α : Type} (t : Tab α) (i : Nat) : Tab α := t.filter (fun e => e.1 != i)

/-- The table with key `i` set to `v`. Setting the default removes the entry, so the canonical form is kept. -/
def Tab.setD {α : Type} [DecidableEq α] (dflt : Nat → α) (t : Tab α) (i : Nat) (v : α) : Tab α :=
  if v = dflt i then t.del i else (t.del i).ins i v

/-- All keys of the table lie above `b`, rising, and no value is the default. -/
def Tab.wfFrom {α : Type} [DecidableEq α] (dflt : Nat → α) : Nat → Tab α → Bool
  | _, [] => true
  | b, (k, v) :: t => decide (b ≤ k) && decide (v ≠ dflt k) && Tab.wfFrom dflt (k + 1) t

/-- The canonical form. -/
def Tab.wf {α : Type} [DecidableEq α] (dflt : Nat → α) (t : Tab α) : Bool := Tab.wfFrom dflt 0 t

/-- Read with a constant default. -/
def Tab.get {α : Type} (d : α) (t : Tab α) (i : Nat) : α := Tab.getD (fun _ => d) t i

/-- Write with a constant default. -/
def Tab.set {α : Type} [DecidableEq α] (d : α) (t : Tab α) (i : Nat) (v : α) : Tab α := Tab.setD (fun _ => d) t i v

/-- Change the value at one key. -/
def Tab.upd {α : Type} [DecidableEq α] (d : α) (t : Tab α) (i : Nat) (f : α → α) : Tab α := t.set d i (f (t.get d i))

/-- Write a run of values at consecutive keys from `i`. -/
def Tab.setRun {α : Type} [DecidableEq α] (d : α) : Tab α → Nat → List α → Tab α
  | t, _, [] => t
  | t, i, v :: vs => Tab.setRun d (t.set d i v) (i + 1) vs

/-- Read a run of `n` values at consecutive keys from `i`. -/
def Tab.getRun {α : Type} (d : α) (t : Tab α) : Nat → Nat → List α
  | _, 0 => []
  | i, n + 1 => t.get d i :: Tab.getRun d t (i + 1) n

/-- Change every listed value; one that becomes the default is no longer listed, so the canonical form is kept. -/
def Tab.mapV {α : Type} [DecidableEq α] (dflt : Nat → α) (f : Nat → α → α) (t : Tab α) : Tab α :=
  t.foldl (fun a e => Tab.setD dflt a e.1 (f e.1 (Tab.getD dflt t e.1))) t

/-- Drop every entry whose key lies in `lo` to `hi - 1`. -/
def Tab.clearRange {α : Type} (t : Tab α) (lo hi : Nat) : Tab α := t.filter (fun e => e.1 < lo || hi ≤ e.1)

end Sys2Proof.Machine
end

