-- ==== Sys2Proof/Machine/RegMap.lean ====
section
/-! DEFINITION. The register map of BAR0 (chapter 16): the offset of every register, the place of every field, the
access codes and the reset values, as the register tables of chapters 3 to 16 give them. The Kembemel DVSEC registers
(Table 6-7) live in configuration space; the model keeps them beside BAR0 at offsets from 0x400_0000 (log 8). -/

namespace Sys2Proof.Machine

/-- A field of a register: its lowest bit and its width. -/
structure Fld where
  lo : Nat
  width : Nat
  deriving DecidableEq, Repr

/-- The value of a field in a register word. -/
def Fld.get (f : Fld) (w : Word32) : Nat := (w.toNat >>> f.lo) % 2 ^ f.width

/-- A register word with one field replaced by the low bits of `v`. -/
def Fld.put (f : Fld) (w : Word32) (v : Nat) : Word32 :=
  let m : Word32 := BitVec.ofNat 32 ((2 ^ f.width - 1) <<< f.lo)
  (w &&& ~~~ m) ||| (BitVec.ofNat 32 ((v % 2 ^ f.width) <<< f.lo))

/-- The bits of a register word that a field covers. -/
def Fld.mask (f : Fld) : Word32 := BitVec.ofNat 32 ((2 ^ f.width - 1) <<< f.lo)

/-- One row of the register index (Table 16-6): the register's base offset, the strides and counts of its indices, its
reset value, and the bits that carry each access code of R9. `lock` is the offset of the block's lock register. -/
structure RegRow where
  name : String
  base : Nat
  dims : List (Nat × Nat)
  reset : Nat
  rw : Nat
  rwl : Nat
  rw1c : Nat
  rw1s : Nat
  wo : Nat
  rc : Nat
  lock : Option Nat
  deriving DecidableEq, Repr

/-- Does the distance `r` from a register's base name one of its instances? -/
def dimsMatch : List (Nat × Nat) → Nat → Bool
  | [], r => r == 0
  | (s, c) :: t, r => decide (r / s < c) && dimsMatch t (r % s)

/-- Does a row hold the register at this offset? -/
def RegRow.holds (x : RegRow) (off : Nat) : Bool := decide (x.base ≤ off) && dimsMatch x.dims (off - x.base)

/-- Offset of PAV_STATUS (Table 3-20). -/
def Reg.PAV_STATUS (i : Nat) : Nat := 0x1000000 + 65536 * i
/-- Offset of PAV_FAULT (Table 3-21). -/
def Reg.PAV_FAULT (i : Nat) : Nat := 0x1000004 + 65536 * i
/-- Offset of PAV_FAULT_INSN_LO (Table 3-22). -/
def Reg.PAV_FAULT_INSN_LO (i : Nat) : Nat := 0x1000008 + 65536 * i
/-- Offset of PAV_FAULT_INSN_HI (Table 3-22). -/
def Reg.PAV_FAULT_INSN_HI (i : Nat) : Nat := 0x100000c + 65536 * i
/-- Offset of PAV_FAULT_EVT (Table 3-23). -/
def Reg.PAV_FAULT_EVT (i : Nat) : Nat := 0x1000010 + 65536 * i
/-- Offset of PAV_SHARE_LIMIT (Table 3-24). -/
def Reg.PAV_SHARE_LIMIT (i : Nat) : Nat := 0x1000014 + 65536 * i
/-- Offset of PAV_OPPOINT (Table 3-25). -/
def Reg.PAV_OPPOINT (i : Nat) : Nat := 0x1000018 + 65536 * i
/-- Offset of PAV_BED_ECC (Table 3-26). -/
def Reg.PAV_BED_ECC (i : Nat) : Nat := 0x100001c + 65536 * i
/-- Offset of CIS_STATUS (Table 4-7). -/
def Reg.CIS_STATUS (i : Nat) : Nat := 0x2000000 + 65536 * i
/-- Offset of CIS_DUP_EVT (Table 4-8). -/
def Reg.CIS_DUP_EVT (i : Nat) : Nat := 0x2000004 + 65536 * i
/-- Offset of CIS_REFUSED (Table 4-9). -/
def Reg.CIS_REFUSED (i : Nat) : Nat := 0x2000008 + 65536 * i
/-- Offset of CIS_LEDGER_ECC (Table 4-10). -/
def Reg.CIS_LEDGER_ECC (i : Nat) : Nat := 0x200000c + 65536 * i
/-- Offset of CIS_BLOCK_STATE (Table 4-11). -/
def Reg.CIS_BLOCK_STATE (i j : Nat) : Nat := 0x2000100 + 65536 * i + 4 * j
/-- Offset of CIS_BLOCK_GROUP (Table 4-12). -/
def Reg.CIS_BLOCK_GROUP (i j : Nat) : Nat := 0x2000200 + 65536 * i + 4 * j
/-- Offset of MEM_IDENT (Table 5-5). -/
def Reg.MEM_IDENT : Nat := 0x100000
/-- Offset of MEM_CTRL (Table 5-6). -/
def Reg.MEM_CTRL : Nat := 0x100004
/-- Offset of MEM_SCRUB_PERIOD (Table 5-7). -/
def Reg.MEM_SCRUB_PERIOD : Nat := 0x100008
/-- Offset of MEM_STATUS (Table 5-8). -/
def Reg.MEM_STATUS : Nat := 0x10000c
/-- Offset of MEM_OWED (Table 5-9). -/
def Reg.MEM_OWED : Nat := 0x100010
/-- Offset of MEM_SCRUB_POS (Table 5-10). -/
def Reg.MEM_SCRUB_POS : Nat := 0x100014
/-- Offset of MEM_CE_EVT (Table 5-11). -/
def Reg.MEM_CE_EVT : Nat := 0x100020
/-- Offset of MEM_UE_EVT (Table 5-11). -/
def Reg.MEM_UE_EVT : Nat := 0x100024
/-- Offset of MEM_MAP_EVT (Table 5-11). -/
def Reg.MEM_MAP_EVT : Nat := 0x100028
/-- Offset of MEM_UE_ADDR_LO (Table 5-12). -/
def Reg.MEM_UE_ADDR_LO : Nat := 0x100030
/-- Offset of MEM_UE_ADDR_HI (Table 5-13). -/
def Reg.MEM_UE_ADDR_HI : Nat := 0x100034
/-- Offset of MEM_POISON (Table 5-14). -/
def Reg.MEM_POISON : Nat := 0x100038
/-- Offset of MEM_RETIRE_CMD (Table 5-15). -/
def Reg.MEM_RETIRE_CMD : Nat := 0x100040
/-- Offset of MEM_RETIRE_STS (Table 5-16). -/
def Reg.MEM_RETIRE_STS : Nat := 0x100044
/-- Offset of MEM_RETIRE_THRESH (Table 5-17). -/
def Reg.MEM_RETIRE_THRESH : Nat := 0x100048
/-- Offset of MEM_PKG_STATE (Table 5-18). -/
def Reg.MEM_PKG_STATE (i : Nat) : Nat := 0x100100 + 4 * i
/-- Offset of MEM_CH_CE (Table 5-19). -/
def Reg.MEM_CH_CE (i j : Nat) : Nat := 0x100200 + 16 * i + 4 * j
/-- Offset of MEM_GRP_UE (Table 5-19). -/
def Reg.MEM_GRP_UE (i : Nat) : Nat := 0x100400 + 4 * i
/-- Offset of MEM_LOST (Table 5-19). -/
def Reg.MEM_LOST (i : Nat) : Nat := 0x100500 + 4 * i
/-- Offset of KDV_STATE (Table 6-7). -/
def Reg.KDV_STATE : Nat := 0x400000c
/-- Offset of KDV_MBX_CTRL (Table 6-7). -/
def Reg.KDV_MBX_CTRL : Nat := 0x4000010
/-- Offset of KDV_MBX_DATA (Table 6-7). -/
def Reg.KDV_MBX_DATA (i : Nat) : Nat := 0x4000014 + 4 * i
/-- Offset of GLB_HP_LINK (Table 6-11). -/
def Reg.GLB_HP_LINK : Nat := 0x100
/-- Offset of GLB_HP_DOWN_EVT (Table 6-12). -/
def Reg.GLB_HP_DOWN_EVT : Nat := 0x104
/-- Offset of GLB_HOSTM_DENY_EVT (Table 6-13). -/
def Reg.GLB_HOSTM_DENY_EVT : Nat := 0x108
/-- Offset of GLB_HOSTM_DENY_ADDR_LO (Table 6-14). -/
def Reg.GLB_HOSTM_DENY_ADDR_LO : Nat := 0x10c
/-- Offset of GLB_HOSTM_DENY_ADDR_HI (Table 6-14). -/
def Reg.GLB_HOSTM_DENY_ADDR_HI : Nat := 0x110
/-- Offset of DBP_PRODUCER_LO (Table 7-4). -/
def Reg.DBP_PRODUCER_LO (i : Nat) : Nat := 0x3000000 + 4096 * i
/-- Offset of DBP_PRODUCER_HI (Table 7-4). -/
def Reg.DBP_PRODUCER_HI (i : Nat) : Nat := 0x3000004 + 4096 * i
/-- Offset of DBP_CQ_HEAD_LO (Table 7-4). -/
def Reg.DBP_CQ_HEAD_LO (i : Nat) : Nat := 0x3000008 + 4096 * i
/-- Offset of DBP_CQ_HEAD_HI (Table 7-4). -/
def Reg.DBP_CQ_HEAD_HI (i : Nat) : Nat := 0x300000c + 4096 * i
/-- Offset of GLB_QE_STORE (Table 7-21). -/
def Reg.GLB_QE_STORE : Nat := 0x200
/-- Offset of GLB_INCARNATION (Table 7-22). -/
def Reg.GLB_INCARNATION : Nat := 0x204
/-- Offset of GLB_QE_HOLD_EVT (Table 7-23). -/
def Reg.GLB_QE_HOLD_EVT : Nat := 0x208
/-- Offset of QCT_SQ_LO (Table 7-24). -/
def Reg.QCT_SQ_LO (i : Nat) : Nat := 0x800000 + 256 * i
/-- Offset of QCT_SQ_HI (Table 7-24). -/
def Reg.QCT_SQ_HI (i : Nat) : Nat := 0x800004 + 256 * i
/-- Offset of QCT_CQ_LO (Table 7-24). -/
def Reg.QCT_CQ_LO (i : Nat) : Nat := 0x800008 + 256 * i
/-- Offset of QCT_CQ_HI (Table 7-24). -/
def Reg.QCT_CQ_HI (i : Nat) : Nat := 0x80000c + 256 * i
/-- Offset of QCT_HDR_LO (Table 7-24). -/
def Reg.QCT_HDR_LO (i : Nat) : Nat := 0x800010 + 256 * i
/-- Offset of QCT_HDR_HI (Table 7-24). -/
def Reg.QCT_HDR_HI (i : Nat) : Nat := 0x800014 + 256 * i
/-- Offset of QCT_DB_LO (Table 7-24). -/
def Reg.QCT_DB_LO (i : Nat) : Nat := 0x800018 + 256 * i
/-- Offset of QCT_DB_HI (Table 7-24). -/
def Reg.QCT_DB_HI (i : Nat) : Nat := 0x80001c + 256 * i
/-- Offset of QCT_ACCEPT_LO (Table 7-24). -/
def Reg.QCT_ACCEPT_LO (i : Nat) : Nat := 0x800038 + 256 * i
/-- Offset of QCT_ACCEPT_HI (Table 7-24). -/
def Reg.QCT_ACCEPT_HI (i : Nat) : Nat := 0x80003c + 256 * i
/-- Offset of QCT_COMMIT_LO (Table 7-24). -/
def Reg.QCT_COMMIT_LO (i : Nat) : Nat := 0x800040 + 256 * i
/-- Offset of QCT_COMMIT_HI (Table 7-24). -/
def Reg.QCT_COMMIT_HI (i : Nat) : Nat := 0x800044 + 256 * i
/-- Offset of QCT_CFG (Table 7-25). -/
def Reg.QCT_CFG (i : Nat) : Nat := 0x800020 + 256 * i
/-- Offset of QCT_PASID (Table 7-25). -/
def Reg.QCT_PASID (i : Nat) : Nat := 0x800024 + 256 * i
/-- Offset of QCT_CTRL (Table 7-26). -/
def Reg.QCT_CTRL (i : Nat) : Nat := 0x800028 + 256 * i
/-- Offset of QCT_STATE (Table 7-26). -/
def Reg.QCT_STATE (i : Nat) : Nat := 0x80002c + 256 * i
/-- Offset of QCT_ERR_EVT (Table 7-27). -/
def Reg.QCT_ERR_EVT (i : Nat) : Nat := 0x800030 + 256 * i
/-- Offset of QCT_BUFFERED (Table 7-27). -/
def Reg.QCT_BUFFERED (i : Nat) : Nat := 0x800034 + 256 * i
/-- Offset of ALT_SUMMARY (Table 8-13). -/
def Reg.ALT_SUMMARY : Nat := 0x400000
/-- Offset of ALT_KEY_CHECK_LO (Table 8-14). -/
def Reg.ALT_KEY_CHECK_LO : Nat := 0x400010
/-- Offset of ALT_KEY_CHECK_HI (Table 8-14). -/
def Reg.ALT_KEY_CHECK_HI : Nat := 0x400014
/-- Offset of ALT_PORT_SHARE (Table 8-15). -/
def Reg.ALT_PORT_SHARE (i : Nat) : Nat := 0x400100 + 4 * i
/-- Offset of ALT_STATE (Table 8-16). -/
def Reg.ALT_STATE (i : Nat) : Nat := 0x401000 + 64 * i
/-- Offset of ALT_SERIAL (Table 8-17). -/
def Reg.ALT_SERIAL (i : Nat) : Nat := 0x401004 + 64 * i
/-- Offset of ALT_TOKEN_LO (Table 8-17). -/
def Reg.ALT_TOKEN_LO (i : Nat) : Nat := 0x401008 + 64 * i
/-- Offset of ALT_TOKEN_HI (Table 8-17). -/
def Reg.ALT_TOKEN_HI (i : Nat) : Nat := 0x40100c + 64 * i
/-- Offset of ALT_COUNT0 (Table 8-17). -/
def Reg.ALT_COUNT0 (i : Nat) : Nat := 0x401010 + 64 * i
/-- Offset of ALT_COUNT1 (Table 8-17). -/
def Reg.ALT_COUNT1 (i : Nat) : Nat := 0x401014 + 64 * i
/-- Offset of ALT_COUNT2 (Table 8-17). -/
def Reg.ALT_COUNT2 (i : Nat) : Nat := 0x401018 + 64 * i
/-- Offset of ALT_MODULES (Table 8-17). -/
def Reg.ALT_MODULES (i : Nat) : Nat := 0x40101c + 64 * i
/-- Offset of ALT_PROT_BASE_LO (Table 8-17). -/
def Reg.ALT_PROT_BASE_LO (i : Nat) : Nat := 0x401020 + 64 * i
/-- Offset of ALT_PROT_BASE_HI (Table 8-17). -/
def Reg.ALT_PROT_BASE_HI (i : Nat) : Nat := 0x401024 + 64 * i
/-- Offset of ALT_PROT_PAGES (Table 8-17). -/
def Reg.ALT_PROT_PAGES (i : Nat) : Nat := 0x401028 + 64 * i
/-- Offset of ALT_TAG_BASE_LO (Table 8-17). -/
def Reg.ALT_TAG_BASE_LO (i : Nat) : Nat := 0x40102c + 64 * i
/-- Offset of ALT_TAG_BASE_HI (Table 8-17). -/
def Reg.ALT_TAG_BASE_HI (i : Nat) : Nat := 0x401030 + 64 * i
/-- Offset of ALT_PAVMAP (Table 8-18). -/
def Reg.ALT_PAVMAP (i j : Nat) : Nat := 0x410000 + 256 * i + 4 * j
/-- Offset of ALT_SHAREMAP (Table 8-19). -/
def Reg.ALT_SHAREMAP (i j : Nat) : Nat := 0x420000 + 32 * i + 4 * j
/-- Offset of ALT_VEC (Table 8-20). -/
def Reg.ALT_VEC (i : Nat) : Nat := 0x430000 + 4 * i
/-- Offset of ALT_PLOTMAP (Table 8-21). -/
def Reg.ALT_PLOTMAP (i j : Nat) : Nat := 0x500000 + 4096 * i + 4 * j
/-- Offset of ALT_BLKMAP (Table 8-22). -/
def Reg.ALT_BLKMAP (i j : Nat) : Nat := 0x600000 + 2048 * i + 4 * j
/-- Offset of TRL_MODULE_ID (Table 9-10). -/
def Reg.TRL_MODULE_ID : Nat := 0x200000
/-- Offset of TRL_CTRL (Table 9-11). -/
def Reg.TRL_CTRL : Nat := 0x200004
/-- Offset of TRL_STATUS (Table 9-12). -/
def Reg.TRL_STATUS : Nat := 0x200008
/-- Offset of TRL_DROP_EVT (Table 9-13). -/
def Reg.TRL_DROP_EVT : Nat := 0x20000c
/-- Offset of TRL_UNREACH_EVT (Table 9-13). -/
def Reg.TRL_UNREACH_EVT : Nat := 0x200010
/-- Offset of TRL_UNREACH_ID (Table 9-14). -/
def Reg.TRL_UNREACH_ID : Nat := 0x200014
/-- Offset of TRL_PORT_CFG (Table 9-15). -/
def Reg.TRL_PORT_CFG (i : Nat) : Nat := 0x200100 + 64 * i
/-- Offset of TRL_PORT_STATUS (Table 9-16). -/
def Reg.TRL_PORT_STATUS (i : Nat) : Nat := 0x200104 + 64 * i
/-- Offset of TRL_PORT_REPLAY (Table 9-17). -/
def Reg.TRL_PORT_REPLAY (i : Nat) : Nat := 0x200108 + 64 * i
/-- Offset of TRL_PORT_FEC_UE (Table 9-17). -/
def Reg.TRL_PORT_FEC_UE (i : Nat) : Nat := 0x20010c + 64 * i
/-- Offset of TRL_PORT_LANE_CE (Table 9-17). -/
def Reg.TRL_PORT_LANE_CE (i j : Nat) : Nat := 0x200110 + 64 * i + 4 * j
/-- Offset of TRL_PORT_DOWN_EVT (Table 9-17). -/
def Reg.TRL_PORT_DOWN_EVT (i : Nat) : Nat := 0x200120 + 64 * i
/-- Offset of TRL_PORT_LANE_THRESH (Table 9-17). -/
def Reg.TRL_PORT_LANE_THRESH (i : Nat) : Nat := 0x200124 + 64 * i
/-- Offset of TRL_GROUP (Table 9-18). -/
def Reg.TRL_GROUP (i : Nat) : Nat := 0x201000 + 4 * i
/-- Offset of TRL_ROUTE (Table 9-19). -/
def Reg.TRL_ROUTE (i : Nat) : Nat := 0x300000 + 4 * i
/-- Offset of ORG_CTRL (Table 10-11). -/
def Reg.ORG_CTRL : Nat := 0x80000
/-- Offset of ORG_STATUS (Table 10-11). -/
def Reg.ORG_STATUS : Nat := 0x80004
/-- Offset of ORG_PERIOD (Table 10-11). -/
def Reg.ORG_PERIOD : Nat := 0x80008
/-- Offset of ORG_LEASE_CFG (Table 10-11). -/
def Reg.ORG_LEASE_CFG : Nat := 0x8000c
/-- Offset of ORG_LEASE_TIME (Table 10-11). -/
def Reg.ORG_LEASE_TIME : Nat := 0x80010
/-- Offset of ORG_CEIL (Table 10-11). -/
def Reg.ORG_CEIL : Nat := 0x80014
/-- Offset of ORG_CAP_OPER (Table 10-11). -/
def Reg.ORG_CAP_OPER : Nat := 0x80018
/-- Offset of ORG_RESERVE (Table 10-11). -/
def Reg.ORG_RESERVE : Nat := 0x8001c
/-- Offset of ORG_BUS_CAP (Table 10-11). -/
def Reg.ORG_BUS_CAP : Nat := 0x80020
/-- Offset of ORG_FLOW_CFG (Table 10-11). -/
def Reg.ORG_FLOW_CFG : Nat := 0x80024
/-- Offset of ORG_FLOW_REQ (Table 10-11). -/
def Reg.ORG_FLOW_REQ : Nat := 0x80028
/-- Offset of ORG_HOT_CFG (Table 10-11). -/
def Reg.ORG_HOT_CFG : Nat := 0x8002c
/-- Offset of ORG_PAIR_CFG (Table 10-11). -/
def Reg.ORG_PAIR_CFG : Nat := 0x80030
/-- Offset of ORG_KW_CFG (Table 10-11). -/
def Reg.ORG_KW_CFG : Nat := 0x80034
/-- Offset of ORG_HAZ_STATUS (Table 10-12). -/
def Reg.ORG_HAZ_STATUS : Nat := 0x80040
/-- Offset of ORG_HAZ_ACK (Table 10-12). -/
def Reg.ORG_HAZ_ACK : Nat := 0x80044
/-- Offset of ORG_HAZ_EVT (Table 10-12). -/
def Reg.ORG_HAZ_EVT (i : Nat) : Nat := 0x80050 + 4 * i
/-- Offset of ORG_WARN_EVT (Table 10-12). -/
def Reg.ORG_WARN_EVT (i : Nat) : Nat := 0x80080 + 4 * i
/-- Offset of ORG_PRED_STATUS (Table 10-12). -/
def Reg.ORG_PRED_STATUS : Nat := 0x800c0
/-- Offset of ORG_PRED_FORECAST (Table 10-12). -/
def Reg.ORG_PRED_FORECAST (i : Nat) : Nat := 0x80100 + 4 * i
/-- Offset of ORG_ZONE_CFG (Table 10-13). -/
def Reg.ORG_ZONE_CFG (i : Nat) : Nat := 0x80200 + 64 * i
/-- Offset of ORG_ZONE_SP (Table 10-13). -/
def Reg.ORG_ZONE_SP (i : Nat) : Nat := 0x80204 + 64 * i
/-- Offset of ORG_ZONE_KP (Table 10-13). -/
def Reg.ORG_ZONE_KP (i : Nat) : Nat := 0x80208 + 64 * i
/-- Offset of ORG_ZONE_KI (Table 10-13). -/
def Reg.ORG_ZONE_KI (i : Nat) : Nat := 0x8020c + 64 * i
/-- Offset of ORG_ZONE_KFF (Table 10-13). -/
def Reg.ORG_ZONE_KFF (i : Nat) : Nat := 0x80210 + 64 * i
/-- Offset of ORG_ZONE_UMIN (Table 10-13). -/
def Reg.ORG_ZONE_UMIN (i : Nat) : Nat := 0x80214 + 64 * i
/-- Offset of ORG_ZONE_UMAX (Table 10-13). -/
def Reg.ORG_ZONE_UMAX (i : Nat) : Nat := 0x80218 + 64 * i
/-- Offset of ORG_ZONE_MAN (Table 10-13). -/
def Reg.ORG_ZONE_MAN (i : Nat) : Nat := 0x8021c + 64 * i
/-- Offset of ORG_ZONE_OUT (Table 10-13). -/
def Reg.ORG_ZONE_OUT (i : Nat) : Nat := 0x80220 + 64 * i
/-- Offset of ORG_ZONE_INTEG (Table 10-13). -/
def Reg.ORG_ZONE_INTEG (i : Nat) : Nat := 0x80224 + 64 * i
/-- Offset of ORG_ZONE_FE (Table 10-13). -/
def Reg.ORG_ZONE_FE (i : Nat) : Nat := 0x80228 + 64 * i
/-- Offset of ORG_ZONE_SAT_EVT (Table 10-13). -/
def Reg.ORG_ZONE_SAT_EVT (i : Nat) : Nat := 0x8022c + 64 * i
/-- Offset of ORG_ZONE_FE_EVT (Table 10-13). -/
def Reg.ORG_ZONE_FE_EVT (i : Nat) : Nat := 0x80230 + 64 * i
/-- Offset of ORG_ZONE_XFER (Table 10-13). -/
def Reg.ORG_ZONE_XFER (i : Nat) : Nat := 0x80234 + 64 * i
/-- Offset of ORG_ZONE_READ (Table 10-13). -/
def Reg.ORG_ZONE_READ (i : Nat) : Nat := 0x80238 + 64 * i
/-- Offset of ORG_SENSOR (Table 10-14). -/
def Reg.ORG_SENSOR (i : Nat) : Nat := 0x81000 + 4 * i
/-- Offset of ORG_PAV (Table 10-15). -/
def Reg.ORG_PAV (i : Nat) : Nat := 0x82000 + 4 * i
/-- Offset of VDR_CTRL (Table 11-7). -/
def Reg.VDR_CTRL : Nat := 0xc0000
/-- Offset of VDR_STATUS (Table 11-7). -/
def Reg.VDR_STATUS : Nat := 0xc0004
/-- Offset of VDR_RAIL (Table 11-7). -/
def Reg.VDR_RAIL : Nat := 0xc0008
/-- Offset of VDR_RAIL_EVT (Table 11-7). -/
def Reg.VDR_RAIL_EVT : Nat := 0xc000c
/-- Offset of VDR_VERIFY (Table 11-7). -/
def Reg.VDR_VERIFY : Nat := 0xc0010
/-- Offset of VDR_PROG (Table 11-7). -/
def Reg.VDR_PROG (i : Nat) : Nat := 0xc0040 + 4 * i
/-- Offset of VDR_SW_CFG (Table 11-7). -/
def Reg.VDR_SW_CFG (i : Nat) : Nat := 0xc0080 + 4 * i
/-- Offset of VDR_CH_CFG (Table 11-8). -/
def Reg.VDR_CH_CFG (i : Nat) : Nat := 0xc0200 + 64 * i
/-- Offset of VDR_CH_CLOSE (Table 11-8). -/
def Reg.VDR_CH_CLOSE (i : Nat) : Nat := 0xc0204 + 64 * i
/-- Offset of VDR_CH_CMD (Table 11-8). -/
def Reg.VDR_CH_CMD (i : Nat) : Nat := 0xc0208 + 64 * i
/-- Offset of VDR_CH_STATUS (Table 11-8). -/
def Reg.VDR_CH_STATUS (i : Nat) : Nat := 0xc020c + 64 * i
/-- Offset of VDR_CH_MEAS (Table 11-8). -/
def Reg.VDR_CH_MEAS (i : Nat) : Nat := 0xc0210 + 64 * i
/-- Offset of VDR_CH_CYCLES (Table 11-8). -/
def Reg.VDR_CH_CYCLES (i : Nat) : Nat := 0xc0214 + 64 * i
/-- Offset of VDR_CH_CTRL (Table 11-8). -/
def Reg.VDR_CH_CTRL (i : Nat) : Nat := 0xc0218 + 64 * i
/-- Offset of VDR_CH_LAST_DEFER (Table 11-8). -/
def Reg.VDR_CH_LAST_DEFER (i : Nat) : Nat := 0xc021c + 64 * i
/-- Offset of VDR_CH_EVT (Table 11-9). -/
def Reg.VDR_CH_EVT (i j : Nat) : Nat := 0xc0220 + 64 * i + 4 * j
/-- Offset of VDR_PSTORE (Table 11-10). -/
def Reg.VDR_PSTORE (i : Nat) : Nat := 0xc1000 + 4 * i
/-- Offset of TBC_CTRL (Table 12-4). -/
def Reg.TBC_CTRL (i : Nat) : Nat := 0xe0000 + 32768 * i
/-- Offset of TBC_NBT (Table 12-4). -/
def Reg.TBC_NBT (i : Nat) : Nat := 0xe0004 + 32768 * i
/-- Offset of TBC_DBT (Table 12-4). -/
def Reg.TBC_DBT (i : Nat) : Nat := 0xe0008 + 32768 * i
/-- Offset of TBC_ERR (Table 12-4). -/
def Reg.TBC_ERR (i : Nat) : Nat := 0xe000c + 32768 * i
/-- Offset of TBC_EVT (Table 12-4). -/
def Reg.TBC_EVT (i j : Nat) : Nat := 0xe0010 + 32768 * i + 4 * j
/-- Offset of TBC_RX_STATUS (Table 12-5). -/
def Reg.TBC_RX_STATUS (i : Nat) : Nat := 0xe0030 + 32768 * i
/-- Offset of TBC_RX_POP (Table 12-5). -/
def Reg.TBC_RX_POP (i : Nat) : Nat := 0xe0034 + 32768 * i
/-- Offset of TBC_RX_HDR (Table 12-5). -/
def Reg.TBC_RX_HDR (i : Nat) : Nat := 0xe0040 + 32768 * i
/-- Offset of TBC_RX_INFO (Table 12-5). -/
def Reg.TBC_RX_INFO (i : Nat) : Nat := 0xe0044 + 32768 * i
/-- Offset of TBC_RX_DATA (Table 12-5). -/
def Reg.TBC_RX_DATA (i j : Nat) : Nat := 0xe0080 + 32768 * i + 4 * j
/-- Offset of TBC_MB_CTRL (Table 12-6). -/
def Reg.TBC_MB_CTRL (i j : Nat) : Nat := 0xe1000 + 32768 * i + 128 * j
/-- Offset of TBC_MB_ID (Table 12-6). -/
def Reg.TBC_MB_ID (i j : Nat) : Nat := 0xe1004 + 32768 * i + 128 * j
/-- Offset of TBC_MB_FLAGS (Table 12-6). -/
def Reg.TBC_MB_FLAGS (i j : Nat) : Nat := 0xe1008 + 32768 * i + 128 * j
/-- Offset of TBC_MB_DATA (Table 12-6). -/
def Reg.TBC_MB_DATA (i j k : Nat) : Nat := 0xe1040 + 32768 * i + 128 * j + 4 * k
/-- Offset of TBC_FILT_ID (Table 12-7). -/
def Reg.TBC_FILT_ID (i j : Nat) : Nat := 0xe4000 + 32768 * i + 8 * j
/-- Offset of TBC_FILT_MASK (Table 12-7). -/
def Reg.TBC_FILT_MASK (i j : Nat) : Nat := 0xe4004 + 32768 * i + 8 * j
/-- Offset of TBC_LOCK (Table 12-8). -/
def Reg.TBC_LOCK : Nat := 0xf0000
/-- Offset of TBC_NODE (Table 12-8). -/
def Reg.TBC_NODE : Nat := 0xf0004
/-- Offset of TBC_TIME_CFG (Table 12-8). -/
def Reg.TBC_TIME_CFG : Nat := 0xf0008
/-- Offset of TBC_TIME_SET_LO (Table 12-8). -/
def Reg.TBC_TIME_SET_LO : Nat := 0xf000c
/-- Offset of TBC_TIME_SET_HI (Table 12-8). -/
def Reg.TBC_TIME_SET_HI : Nat := 0xf0010
/-- Offset of TBC_NT_LO (Table 12-8). -/
def Reg.TBC_NT_LO : Nat := 0xf0014
/-- Offset of TBC_NT_HI (Table 12-8). -/
def Reg.TBC_NT_HI : Nat := 0xf0018
/-- Offset of TBC_TIME_STATUS (Table 12-8). -/
def Reg.TBC_TIME_STATUS : Nat := 0xf001c
/-- Offset of TBC_TIME_EVT (Table 12-8). -/
def Reg.TBC_TIME_EVT (i : Nat) : Nat := 0xf0020 + 4 * i
/-- Offset of TBC_PEER (Table 12-8). -/
def Reg.TBC_PEER (i : Nat) : Nat := 0xf0030 + 4 * i
/-- Offset of GHM_STATUS (Table 13-13). -/
def Reg.GHM_STATUS : Nat := 0x20000
/-- Offset of GHM_IDENT (Table 13-13). -/
def Reg.GHM_IDENT : Nat := 0x20004
/-- Offset of GHM_SVN (Table 13-13). -/
def Reg.GHM_SVN : Nat := 0x20008
/-- Offset of GHM_SVN_FLOOR (Table 13-13). -/
def Reg.GHM_SVN_FLOOR : Nat := 0x2000c
/-- Offset of GHM_XMSS_REMAIN (Table 13-13). -/
def Reg.GHM_XMSS_REMAIN (i : Nat) : Nat := 0x20010 + 4 * i
/-- Offset of GHM_DEBUG (Table 13-13). -/
def Reg.GHM_DEBUG : Nat := 0x20020
/-- Offset of GHM_EVT (Table 13-13). -/
def Reg.GHM_EVT (i : Nat) : Nat := 0x20040 + 4 * i
/-- Offset of GHM_MBX_CTRL (Table 13-13). -/
def Reg.GHM_MBX_CTRL : Nat := 0x20100
/-- Offset of GHM_MBX_DATA (Table 13-13). -/
def Reg.GHM_MBX_DATA (i : Nat) : Nat := 0x20200 + 4 * i
/-- Offset of CKP_CTRL (Table 14-10). -/
def Reg.CKP_CTRL : Nat := 0x10000
/-- Offset of CKP_CLK_STATUS (Table 14-10). -/
def Reg.CKP_CLK_STATUS : Nat := 0x10004
/-- Offset of CKP_CLK_COUNT (Table 14-10). -/
def Reg.CKP_CLK_COUNT (i : Nat) : Nat := 0x10010 + 4 * i
/-- Offset of CKP_CLK_EVT (Table 14-10). -/
def Reg.CKP_CLK_EVT (i : Nat) : Nat := 0x10030 + 4 * i
/-- Offset of CKP_CLK_RETURN (Table 14-10). -/
def Reg.CKP_CLK_RETURN : Nat := 0x10050
/-- Offset of CKP_GATE (Table 14-11). -/
def Reg.CKP_GATE : Nat := 0x10060
/-- Offset of CKP_CLKOBS (Table 14-11). -/
def Reg.CKP_CLKOBS : Nat := 0x10064
/-- Offset of CKP_VIN (Table 14-12). -/
def Reg.CKP_VIN : Nat := 0x10070
/-- Offset of CKP_VIN_CFG (Table 14-12). -/
def Reg.CKP_VIN_CFG : Nat := 0x10074
/-- Offset of CKP_VIN_EVT (Table 14-12). -/
def Reg.CKP_VIN_EVT : Nat := 0x10078
/-- Offset of CKP_RESET (Table 14-12). -/
def Reg.CKP_RESET : Nat := 0x10080
/-- Offset of CKP_RESET_CAUSE (Table 14-12). -/
def Reg.CKP_RESET_CAUSE : Nat := 0x10084
/-- Offset of CKP_START (Table 14-12). -/
def Reg.CKP_START : Nat := 0x10088
/-- Offset of CKP_PIN (Table 14-12). -/
def Reg.CKP_PIN : Nat := 0x1008c
/-- Offset of SUN_CTRL (Table 15-10). -/
def Reg.SUN_CTRL : Nat := 0x40000
/-- Offset of SUN_STATUS (Table 15-10). -/
def Reg.SUN_STATUS : Nat := 0x40004
/-- Offset of SUN_SEQ (Table 15-10). -/
def Reg.SUN_SEQ : Nat := 0x40008
/-- Offset of SUN_OPSEC_LO (Table 15-10). -/
def Reg.SUN_OPSEC_LO : Nat := 0x4000c
/-- Offset of SUN_OPSEC_HI (Table 15-10). -/
def Reg.SUN_OPSEC_HI : Nat := 0x40010
/-- Offset of SUN_PCYCLE (Table 15-10). -/
def Reg.SUN_PCYCLE : Nat := 0x40014
/-- Offset of SUN_LOST (Table 15-10). -/
def Reg.SUN_LOST : Nat := 0x40018
/-- Offset of SUN_TRIG_EN_LO (Table 15-10). -/
def Reg.SUN_TRIG_EN_LO : Nat := 0x40020
/-- Offset of SUN_TRIG_EN_HI (Table 15-10). -/
def Reg.SUN_TRIG_EN_HI : Nat := 0x40024
/-- Offset of SUN_SOFT (Table 15-10). -/
def Reg.SUN_SOFT : Nat := 0x40028
/-- Offset of SUN_PAIR_STATUS (Table 15-10). -/
def Reg.SUN_PAIR_STATUS : Nat := 0x40040
/-- Offset of SUN_PAIR_CTRL (Table 15-10). -/
def Reg.SUN_PAIR_CTRL : Nat := 0x40044
/-- Offset of SUN_PAIR_CFG (Table 15-10). -/
def Reg.SUN_PAIR_CFG : Nat := 0x40048
/-- Offset of SUN_PAIR_EVT (Table 15-10). -/
def Reg.SUN_PAIR_EVT (i : Nat) : Nat := 0x40050 + 4 * i
/-- Offset of SUN_HB_CFG (Table 15-10). -/
def Reg.SUN_HB_CFG : Nat := 0x40060
/-- Offset of SUN_HB_STATUS (Table 15-10). -/
def Reg.SUN_HB_STATUS : Nat := 0x40064
/-- Offset of SUN_HB_EVT (Table 15-10). -/
def Reg.SUN_HB_EVT (i : Nat) : Nat := 0x40068 + 4 * i
/-- Offset of SUN_HEALTH (Table 15-10). -/
def Reg.SUN_HEALTH (i : Nat) : Nat := 0x40070 + 4 * i
/-- Offset of SUN_SELFTEST (Table 15-10). -/
def Reg.SUN_SELFTEST : Nat := 0x40080
/-- Offset of SUN_SELFTEST_EVT (Table 15-10). -/
def Reg.SUN_SELFTEST_EVT : Nat := 0x40084
/-- Offset of SUN_TRIG_CFG (Table 15-11). -/
def Reg.SUN_TRIG_CFG (i : Nat) : Nat := 0x40200 + 4 * i
/-- Offset of SUN_LIST (Table 15-11). -/
def Reg.SUN_LIST (i j : Nat) : Nat := 0x40400 + 192 * i + 4 * j
/-- Offset of SUN_LIST_GEN (Table 15-11). -/
def Reg.SUN_LIST_GEN (i : Nat) : Nat := 0x40700 + 4 * i
/-- Offset of SUN_RD_SEQ (Table 15-11). -/
def Reg.SUN_RD_SEQ : Nat := 0x40800
/-- Offset of SUN_RD_STATUS (Table 15-11). -/
def Reg.SUN_RD_STATUS : Nat := 0x40804
/-- Offset of SUN_RD_DATA (Table 15-11). -/
def Reg.SUN_RD_DATA (i : Nat) : Nat := 0x40900 + 4 * i
/-- Offset of GLB_IDENT (Table 16-2). -/
def Reg.GLB_IDENT : Nat := 0x0
/-- Offset of GLB_COUNTS (Table 16-3). -/
def Reg.GLB_COUNTS : Nat := 0x4
/-- Offset of GLB_STATUS (Table 16-4). -/
def Reg.GLB_STATUS : Nat := 0x8
/-- Offset of GLB_ACC_EVT (Table 16-5). -/
def Reg.GLB_ACC_EVT : Nat := 0xc
/-- Offset of GLB_CAP (Table 16-5). -/
def Reg.GLB_CAP (i : Nat) : Nat := 0x10 + 4 * i
/-- Offset of GLB_SERIAL_LO (Table 16-5). -/
def Reg.GLB_SERIAL_LO : Nat := 0x20
/-- Offset of GLB_SERIAL_HI (Table 16-5). -/
def Reg.GLB_SERIAL_HI : Nat := 0x24

/-- Table 3-20, RO. -/
def F.PAV_STATUS_ALLOT : Fld := ⟨16, 8⟩
/-- Table 3-20, RO. -/
def F.PAV_STATUS_LOGICAL : Fld := ⟨8, 8⟩
/-- Table 3-20, RO. -/
def F.PAV_STATUS_SPARE : Fld := ⟨4, 1⟩
/-- Table 3-20, RO. -/
def F.PAV_STATUS_STATE : Fld := ⟨0, 4⟩
/-- Table 3-21, RO. -/
def F.PAV_FAULT_PC : Fld := ⟨8, 22⟩
/-- Table 3-21, RO. -/
def F.PAV_FAULT_CODE : Fld := ⟨0, 8⟩
/-- Table 3-22, RO. -/
def F.PAV_FAULT_INSN_LO_WORD : Fld := ⟨0, 32⟩
/-- Table 3-22, RO. -/
def F.PAV_FAULT_INSN_HI_WORD : Fld := ⟨0, 32⟩
/-- Table 3-23, RO. -/
def F.PAV_FAULT_EVT_COUNT : Fld := ⟨16, 16⟩
/-- Table 3-23, RW1C. -/
def F.PAV_FAULT_EVT_FAULT : Fld := ⟨0, 1⟩
/-- Table 3-24, RW. -/
def F.PAV_SHARE_LIMIT_LIMIT : Fld := ⟨0, 24⟩
/-- Table 3-25, RO. -/
def F.PAV_OPPOINT_LEASE : Fld := ⟨16, 12⟩
/-- Table 3-25, RO. -/
def F.PAV_OPPOINT_FREQ : Fld := ⟨0, 12⟩
/-- Table 3-26, RC. -/
def F.PAV_BED_ECC_CORRECTED : Fld := ⟨0, 16⟩
/-- Table 4-7, RO. -/
def F.CIS_STATUS_FAULT : Fld := ⟨7, 1⟩
/-- Table 4-7, RO. -/
def F.CIS_STATUS_ACTIVE : Fld := ⟨0, 7⟩
/-- Table 4-8, RO. -/
def F.CIS_DUP_EVT_COUNT : Fld := ⟨16, 16⟩
/-- Table 4-8, RW1C. -/
def F.CIS_DUP_EVT_DUP : Fld := ⟨0, 1⟩
/-- Table 4-9, RC. -/
def F.CIS_REFUSED_RETRIES : Fld := ⟨0, 32⟩
/-- Table 4-10, RC. -/
def F.CIS_LEDGER_ECC_CORRECTED : Fld := ⟨0, 16⟩
/-- Table 4-11, RO. -/
def F.CIS_BLOCK_STATE_STATE : Fld := ⟨29, 3⟩
/-- Table 4-11, RO. -/
def F.CIS_BLOCK_STATE_COUNT : Fld := ⟨16, 13⟩
/-- Table 4-11, RO. -/
def F.CIS_BLOCK_STATE_ALLOT : Fld := ⟨8, 8⟩
/-- Table 4-12, RO. -/
def F.CIS_BLOCK_GROUP_GROUP : Fld := ⟨0, 32⟩
/-- Table 5-5, RO. -/
def F.MEM_IDENT_NPLOTS : Fld := ⟨16, 12⟩
/-- Table 5-5, RO. -/
def F.MEM_IDENT_PKG_GIB : Fld := ⟨0, 8⟩
/-- Table 5-6, RW1S. -/
def F.MEM_CTRL_LOCK : Fld := ⟨31, 1⟩
/-- Table 5-6, RWL. -/
def F.MEM_CTRL_CLEAR_SHARE : Fld := ⟨6, 6⟩
/-- Table 5-6, RWL. -/
def F.MEM_CTRL_SCRUB_EN : Fld := ⟨5, 1⟩
/-- Table 5-6, RWL. -/
def F.MEM_CTRL_AUTO_RETIRE : Fld := ⟨4, 1⟩
/-- Table 5-7, RWL. -/
def F.MEM_SCRUB_PERIOD_HOURS : Fld := ⟨0, 8⟩
/-- Table 5-8, RO. -/
def F.MEM_STATUS_CLEARING : Fld := ⟨5, 1⟩
/-- Table 5-8, RO. -/
def F.MEM_STATUS_REBUILD : Fld := ⟨4, 1⟩
/-- Table 5-8, RO. -/
def F.MEM_STATUS_TRAINED : Fld := ⟨3, 1⟩
/-- Table 5-8, RO. -/
def F.MEM_STATUS_HEALTH : Fld := ⟨0, 2⟩
/-- Table 5-9, RO. -/
def F.MEM_OWED_COUNT : Fld := ⟨0, 26⟩
/-- Table 5-10, RO. -/
def F.MEM_SCRUB_POS_STRIPE : Fld := ⟨0, 32⟩
/-- Table 5-11, RO. -/
def F.MEM_CE_EVT_COUNT : Fld := ⟨16, 16⟩
/-- Table 5-11, RW1C. -/
def F.MEM_CE_EVT_EVT : Fld := ⟨0, 1⟩
/-- Table 5-11, RO. -/
def F.MEM_UE_EVT_COUNT : Fld := ⟨16, 16⟩
/-- Table 5-11, RW1C. -/
def F.MEM_UE_EVT_EVT : Fld := ⟨0, 1⟩
/-- Table 5-11, RO. -/
def F.MEM_MAP_EVT_COUNT : Fld := ⟨16, 16⟩
/-- Table 5-11, RW1C. -/
def F.MEM_MAP_EVT_EVT : Fld := ⟨0, 1⟩
/-- Table 5-12, RO. -/
def F.MEM_UE_ADDR_LO_MA_LO : Fld := ⟨9, 23⟩
/-- Table 5-13, RO. -/
def F.MEM_UE_ADDR_HI_MA_HI : Fld := ⟨0, 9⟩
/-- Table 5-14, RO. -/
def F.MEM_POISON_FULL : Fld := ⟨31, 1⟩
/-- Table 5-14, RO. -/
def F.MEM_POISON_COUNT : Fld := ⟨0, 13⟩
/-- Table 5-15, WO. -/
def F.MEM_RETIRE_CMD_GO : Fld := ⟨31, 1⟩
/-- Table 5-15, WO. -/
def F.MEM_RETIRE_CMD_PKG : Fld := ⟨0, 5⟩
/-- Table 5-16, RO. -/
def F.MEM_RETIRE_STS_PKG : Fld := ⟨8, 5⟩
/-- Table 5-16, RO. -/
def F.MEM_RETIRE_STS_RESULT : Fld := ⟨0, 2⟩
/-- Table 5-17, RWL. -/
def F.MEM_RETIRE_THRESH_SYMBOLS : Fld := ⟨0, 32⟩
/-- Table 5-18, RO. -/
def F.MEM_PKG_STATE_STATE : Fld := ⟨30, 2⟩
/-- Table 5-18, RO. -/
def F.MEM_PKG_STATE_REASON : Fld := ⟨0, 4⟩
/-- Table 5-19, RC. -/
def F.MEM_CH_CE_SYMBOLS : Fld := ⟨0, 32⟩
/-- Table 5-19, RC. -/
def F.MEM_GRP_UE_STRIPES : Fld := ⟨0, 32⟩
/-- Table 5-19, RO. -/
def F.MEM_LOST_PLOTS : Fld := ⟨0, 32⟩
/-- Table 6-7, RO. -/
def F.KDV_STATE_ATTEMPTS : Fld := ⟨24, 8⟩
/-- Table 6-7, RO. -/
def F.KDV_STATE_REASON : Fld := ⟨16, 8⟩
/-- Table 6-7, RO. -/
def F.KDV_STATE_MODE : Fld := ⟨0, 4⟩
/-- Table 6-7, RW1S. -/
def F.KDV_MBX_CTRL_GO : Fld := ⟨31, 1⟩
/-- Table 6-7, RO. -/
def F.KDV_MBX_CTRL_BUSY : Fld := ⟨30, 1⟩
/-- Table 6-7, RW. -/
def F.KDV_MBX_CTRL_LENGTH : Fld := ⟨0, 6⟩
/-- Table 6-7, RW. -/
def F.KDV_MBX_DATA_DATA : Fld := ⟨0, 32⟩
/-- Table 6-11, RO. -/
def F.GLB_HP_LINK_SPEED : Fld := ⟨21, 3⟩
/-- Table 6-11, RO. -/
def F.GLB_HP_LINK_WIDTH : Fld := ⟨16, 5⟩
/-- Table 6-11, RO. -/
def F.GLB_HP_LINK_FLIT : Fld := ⟨10, 2⟩
/-- Table 6-11, RO. -/
def F.GLB_HP_LINK_MEM : Fld := ⟨9, 1⟩
/-- Table 6-11, RO. -/
def F.GLB_HP_LINK_CACHE : Fld := ⟨8, 1⟩
/-- Table 6-11, RO. -/
def F.GLB_HP_LINK_STATE : Fld := ⟨0, 3⟩
/-- Table 6-12, RO. -/
def F.GLB_HP_DOWN_EVT_COUNT : Fld := ⟨16, 16⟩
/-- Table 6-12, RW1C. -/
def F.GLB_HP_DOWN_EVT_DOWN : Fld := ⟨0, 1⟩
/-- Table 6-13, RO. -/
def F.GLB_HOSTM_DENY_EVT_COUNT : Fld := ⟨16, 16⟩
/-- Table 6-13, RW1C. -/
def F.GLB_HOSTM_DENY_EVT_DENY : Fld := ⟨0, 1⟩
/-- Table 6-14, RO. -/
def F.GLB_HOSTM_DENY_ADDR_LO_DPA_LO : Fld := ⟨6, 26⟩
/-- Table 6-14, RO. -/
def F.GLB_HOSTM_DENY_ADDR_HI_DPA_HI : Fld := ⟨0, 9⟩
/-- Table 7-4, RW. -/
def F.DBP_PRODUCER_LO_VALUE : Fld := ⟨0, 32⟩
/-- Table 7-4, RW. -/
def F.DBP_PRODUCER_HI_VALUE : Fld := ⟨0, 32⟩
/-- Table 7-4, RW. -/
def F.DBP_CQ_HEAD_LO_VALUE : Fld := ⟨0, 32⟩
/-- Table 7-4, RW. -/
def F.DBP_CQ_HEAD_HI_VALUE : Fld := ⟨0, 32⟩
/-- Table 7-21, RW. -/
def F.GLB_QE_STORE_VALID : Fld := ⟨31, 1⟩
/-- Table 7-21, RW. -/
def F.GLB_QE_STORE_PLOT : Fld := ⟨0, 11⟩
/-- Table 7-22, RO. -/
def F.GLB_INCARNATION_COUNT : Fld := ⟨0, 32⟩
/-- Table 7-23, RO. -/
def F.GLB_QE_HOLD_EVT_COUNT : Fld := ⟨16, 16⟩
/-- Table 7-23, RW1C. -/
def F.GLB_QE_HOLD_EVT_HOLD : Fld := ⟨0, 1⟩
/-- Table 7-24, RW. -/
def F.QCT_SQ_LO_ADDR : Fld := ⟨12, 20⟩
/-- Table 7-24, RW. -/
def F.QCT_SQ_HI_ADDR : Fld := ⟨0, 32⟩
/-- Table 7-24, RW. -/
def F.QCT_CQ_LO_ADDR : Fld := ⟨12, 20⟩
/-- Table 7-24, RW. -/
def F.QCT_CQ_HI_ADDR : Fld := ⟨0, 32⟩
/-- Table 7-24, RW. -/
def F.QCT_HDR_LO_ADDR : Fld := ⟨6, 26⟩
/-- Table 7-24, RW. -/
def F.QCT_HDR_HI_ADDR : Fld := ⟨0, 32⟩
/-- Table 7-24, RW. -/
def F.QCT_DB_LO_ADDR : Fld := ⟨6, 26⟩
/-- Table 7-24, RW. -/
def F.QCT_DB_HI_ADDR : Fld := ⟨0, 32⟩
/-- Table 7-24, RO. -/
def F.QCT_ACCEPT_LO_VALUE : Fld := ⟨0, 32⟩
/-- Table 7-24, RO. -/
def F.QCT_ACCEPT_HI_VALUE : Fld := ⟨0, 32⟩
/-- Table 7-24, RO. -/
def F.QCT_COMMIT_LO_VALUE : Fld := ⟨0, 32⟩
/-- Table 7-24, RO. -/
def F.QCT_COMMIT_HI_VALUE : Fld := ⟨0, 32⟩
/-- Table 7-25, RO. -/
def F.QCT_CFG_ALLOT : Fld := ⟨24, 8⟩
/-- Table 7-25, RW. -/
def F.QCT_CFG_LOG2N : Fld := ⟨16, 5⟩
/-- Table 7-25, RW. -/
def F.QCT_CFG_IRQ_EN : Fld := ⟨15, 1⟩
/-- Table 7-25, RW. -/
def F.QCT_CFG_VECTOR : Fld := ⟨0, 12⟩
/-- Table 7-25, RW. -/
def F.QCT_PASID_PASID_EN : Fld := ⟨31, 1⟩
/-- Table 7-25, RW. -/
def F.QCT_PASID_PASID : Fld := ⟨0, 20⟩
/-- Table 7-26, RW1S. -/
def F.QCT_CTRL_ARM : Fld := ⟨31, 1⟩
/-- Table 7-26, RW1S. -/
def F.QCT_CTRL_DISABLE : Fld := ⟨30, 1⟩
/-- Table 7-26, RO. -/
def F.QCT_STATE_LQUEUE : Fld := ⟨16, 12⟩
/-- Table 7-26, RO. -/
def F.QCT_STATE_REASON : Fld := ⟨8, 8⟩
/-- Table 7-26, RO. -/
def F.QCT_STATE_STATE : Fld := ⟨0, 4⟩
/-- Table 7-27, RO. -/
def F.QCT_ERR_EVT_COUNT : Fld := ⟨16, 16⟩
/-- Table 7-27, RW1C. -/
def F.QCT_ERR_EVT_ERR : Fld := ⟨0, 1⟩
/-- Table 7-27, RO. -/
def F.QCT_BUFFERED_COUNT : Fld := ⟨0, 13⟩
/-- Table 8-13, RO. -/
def F.ALT_SUMMARY_CLEARING : Fld := ⟨16, 8⟩
/-- Table 8-13, RO. -/
def F.ALT_SUMMARY_BOUND : Fld := ⟨0, 8⟩
/-- Table 8-14, RO. -/
def F.ALT_KEY_CHECK_LO_ADDR : Fld := ⟨12, 20⟩
/-- Table 8-14, RO. -/
def F.ALT_KEY_CHECK_LO_ALLOT : Fld := ⟨0, 8⟩
/-- Table 8-14, RO. -/
def F.ALT_KEY_CHECK_HI_ADDR : Fld := ⟨0, 32⟩
/-- Table 8-15, RO. -/
def F.ALT_PORT_SHARE_ASSIGNED : Fld := ⟨0, 7⟩
/-- Table 8-16, RO. -/
def F.ALT_STATE_SLOT1_EPOCH : Fld := ⟨12, 2⟩
/-- Table 8-16, RO. -/
def F.ALT_STATE_SLOT1_LIVE : Fld := ⟨11, 1⟩
/-- Table 8-16, RO. -/
def F.ALT_STATE_SLOT0_EPOCH : Fld := ⟨9, 2⟩
/-- Table 8-16, RO. -/
def F.ALT_STATE_SLOT0_LIVE : Fld := ⟨8, 1⟩
/-- Table 8-16, RO. -/
def F.ALT_STATE_WEPOCH : Fld := ⟨4, 2⟩
/-- Table 8-16, RO. -/
def F.ALT_STATE_STATE : Fld := ⟨0, 4⟩
/-- Table 8-17, RO. -/
def F.ALT_SERIAL_SERIAL : Fld := ⟨0, 32⟩
/-- Table 8-17, RO. -/
def F.ALT_TOKEN_LO_TOKEN : Fld := ⟨0, 32⟩
/-- Table 8-17, RO. -/
def F.ALT_TOKEN_HI_TOKEN : Fld := ⟨0, 32⟩
/-- Table 8-17, RO. -/
def F.ALT_COUNT0_NPLOT : Fld := ⟨16, 12⟩
/-- Table 8-17, RO. -/
def F.ALT_COUNT0_NPAV : Fld := ⟨0, 8⟩
/-- Table 8-17, RO. -/
def F.ALT_COUNT1_NVEC : Fld := ⟨16, 12⟩
/-- Table 8-17, RO. -/
def F.ALT_COUNT1_NBLOCK : Fld := ⟨0, 11⟩
/-- Table 8-17, RO. -/
def F.ALT_COUNT2_NQUEUE : Fld := ⟨0, 12⟩
/-- Table 8-17, RO. -/
def F.ALT_MODULES_LMOD : Fld := ⟨16, 16⟩
/-- Table 8-17, RO. -/
def F.ALT_MODULES_NMOD : Fld := ⟨0, 16⟩
/-- Table 8-17, RO. -/
def F.ALT_PROT_BASE_LO_ADDR : Fld := ⟨12, 20⟩
/-- Table 8-17, RO. -/
def F.ALT_PROT_BASE_HI_ADDR : Fld := ⟨0, 32⟩
/-- Table 8-17, RO. -/
def F.ALT_PROT_PAGES_PAGES : Fld := ⟨0, 32⟩
/-- Table 8-17, RO. -/
def F.ALT_TAG_BASE_LO_ADDR : Fld := ⟨12, 20⟩
/-- Table 8-17, RO. -/
def F.ALT_TAG_BASE_HI_ADDR : Fld := ⟨0, 32⟩
/-- Table 8-18, RO. -/
def F.ALT_PAVMAP_PAV3 : Fld := ⟨24, 8⟩
/-- Table 8-18, RO. -/
def F.ALT_PAVMAP_PAV2 : Fld := ⟨16, 8⟩
/-- Table 8-18, RO. -/
def F.ALT_PAVMAP_PAV1 : Fld := ⟨8, 8⟩
/-- Table 8-18, RO. -/
def F.ALT_PAVMAP_PAV0 : Fld := ⟨0, 8⟩
/-- Table 8-19, RO. -/
def F.ALT_SHAREMAP_SH3 : Fld := ⟨24, 8⟩
/-- Table 8-19, RO. -/
def F.ALT_SHAREMAP_SH2 : Fld := ⟨16, 8⟩
/-- Table 8-19, RO. -/
def F.ALT_SHAREMAP_SH1 : Fld := ⟨8, 8⟩
/-- Table 8-19, RO. -/
def F.ALT_SHAREMAP_SH0 : Fld := ⟨0, 8⟩
/-- Table 8-20, RO. -/
def F.ALT_VEC_ALLOT : Fld := ⟨24, 8⟩
/-- Table 8-20, RO. -/
def F.ALT_VEC_ENTRY : Fld := ⟨0, 11⟩
/-- Table 8-21, RO. -/
def F.ALT_PLOTMAP_VALID1 : Fld := ⟨31, 1⟩
/-- Table 8-21, RO. -/
def F.ALT_PLOTMAP_HOST1 : Fld := ⟨30, 1⟩
/-- Table 8-21, RO. -/
def F.ALT_PLOTMAP_PLOT1 : Fld := ⟨16, 11⟩
/-- Table 8-21, RO. -/
def F.ALT_PLOTMAP_VALID0 : Fld := ⟨15, 1⟩
/-- Table 8-21, RO. -/
def F.ALT_PLOTMAP_HOST0 : Fld := ⟨14, 1⟩
/-- Table 8-21, RO. -/
def F.ALT_PLOTMAP_PLOT0 : Fld := ⟨0, 11⟩
/-- Table 8-22, RO. -/
def F.ALT_BLKMAP_VALID1 : Fld := ⟨31, 1⟩
/-- Table 8-22, RO. -/
def F.ALT_BLKMAP_BLOCK1 : Fld := ⟨16, 10⟩
/-- Table 8-22, RO. -/
def F.ALT_BLKMAP_VALID0 : Fld := ⟨15, 1⟩
/-- Table 8-22, RO. -/
def F.ALT_BLKMAP_BLOCK0 : Fld := ⟨0, 10⟩
/-- Table 9-10, RW1S. -/
def F.TRL_MODULE_ID_LOCK : Fld := ⟨31, 1⟩
/-- Table 9-10, RWL. -/
def F.TRL_MODULE_ID_ID : Fld := ⟨0, 16⟩
/-- Table 9-11, RW. -/
def F.TRL_CTRL_UNREACH_MS : Fld := ⟨16, 8⟩
/-- Table 9-11, RW. -/
def F.TRL_CTRL_HOP_LIMIT : Fld := ⟨8, 6⟩
/-- Table 9-11, RW. -/
def F.TRL_CTRL_RETX_US : Fld := ⟨0, 8⟩
/-- Table 9-12, RO. -/
def F.TRL_STATUS_SEND_STREAMS : Fld := ⟨16, 16⟩
/-- Table 9-12, RO. -/
def F.TRL_STATUS_RECV_STREAMS : Fld := ⟨0, 16⟩
/-- Table 9-13, RO. -/
def F.TRL_DROP_EVT_COUNT : Fld := ⟨16, 16⟩
/-- Table 9-13, RW1C. -/
def F.TRL_DROP_EVT_EVT : Fld := ⟨0, 1⟩
/-- Table 9-13, RO. -/
def F.TRL_UNREACH_EVT_COUNT : Fld := ⟨16, 16⟩
/-- Table 9-13, RW1C. -/
def F.TRL_UNREACH_EVT_EVT : Fld := ⟨0, 1⟩
/-- Table 9-14, RO. -/
def F.TRL_UNREACH_ID_ID : Fld := ⟨0, 16⟩
/-- Table 9-15, RW1S. -/
def F.TRL_PORT_CFG_RETRAIN : Fld := ⟨31, 1⟩
/-- Table 9-15, RW. -/
def F.TRL_PORT_CFG_DATELINE : Fld := ⟨7, 1⟩
/-- Table 9-15, RW. -/
def F.TRL_PORT_CFG_X4_ONLY : Fld := ⟨6, 1⟩
/-- Table 9-15, RW. -/
def F.TRL_PORT_CFG_REACH : Fld := ⟨4, 2⟩
/-- Table 9-15, RW. -/
def F.TRL_PORT_CFG_EN : Fld := ⟨0, 1⟩
/-- Table 9-16, RO. -/
def F.TRL_PORT_STATUS_PEER_MODULE : Fld := ⟨16, 16⟩
/-- Table 9-16, RO. -/
def F.TRL_PORT_STATUS_PEER_PORT : Fld := ⟨11, 5⟩
/-- Table 9-16, RO. -/
def F.TRL_PORT_STATUS_LANES_GOOD : Fld := ⟨7, 4⟩
/-- Table 9-16, RO. -/
def F.TRL_PORT_STATUS_WIDTH : Fld := ⟨5, 2⟩
/-- Table 9-16, RO. -/
def F.TRL_PORT_STATUS_STATE : Fld := ⟨0, 4⟩
/-- Table 9-17, RC. -/
def F.TRL_PORT_REPLAY_FLITS : Fld := ⟨0, 32⟩
/-- Table 9-17, RC. -/
def F.TRL_PORT_FEC_UE_CODEWORDS : Fld := ⟨0, 32⟩
/-- Table 9-17, RC. -/
def F.TRL_PORT_LANE_CE_SYMBOLS : Fld := ⟨0, 32⟩
/-- Table 9-17, RO. -/
def F.TRL_PORT_DOWN_EVT_COUNT : Fld := ⟨16, 16⟩
/-- Table 9-17, RW1C. -/
def F.TRL_PORT_DOWN_EVT_EVT : Fld := ⟨0, 1⟩
/-- Table 9-17, RW. -/
def F.TRL_PORT_LANE_THRESH_SYMBOLS : Fld := ⟨0, 32⟩
/-- Table 9-18, RW. -/
def F.TRL_GROUP_PORTS : Fld := ⟨0, 18⟩
/-- Table 9-19, RW. -/
def F.TRL_ROUTE_VALID : Fld := ⟨31, 1⟩
/-- Table 9-19, RW. -/
def F.TRL_ROUTE_G3 : Fld := ⟨15, 5⟩
/-- Table 9-19, RW. -/
def F.TRL_ROUTE_G2 : Fld := ⟨10, 5⟩
/-- Table 9-19, RW. -/
def F.TRL_ROUTE_G1 : Fld := ⟨5, 5⟩
/-- Table 9-19, RW. -/
def F.TRL_ROUTE_G0 : Fld := ⟨0, 5⟩
/-- Table 10-11, RW1S. -/
def F.ORG_CTRL_LOCK : Fld := ⟨31, 1⟩
/-- Table 10-11, RWL. -/
def F.ORG_CTRL_AUTO_EXCLUDE : Fld := ⟨4, 1⟩
/-- Table 10-11, RWL. -/
def F.ORG_CTRL_KW_LOAD_EN : Fld := ⟨3, 1⟩
/-- Table 10-11, RW. -/
def F.ORG_CTRL_PRED_EN : Fld := ⟨2, 1⟩
/-- Table 10-11, RWL. -/
def F.ORG_CTRL_LEASE_EN : Fld := ⟨1, 1⟩
/-- Table 10-11, RO. -/
def F.ORG_STATUS_ACTIVE_CORE : Fld := ⟨31, 1⟩
/-- Table 10-11, RO. -/
def F.ORG_STATUS_STANDBY_OK : Fld := ⟨30, 1⟩
/-- Table 10-11, RO. -/
def F.ORG_STATUS_CLAMP : Fld := ⟨7, 1⟩
/-- Table 10-11, RO. -/
def F.ORG_STATUS_QUIESCE : Fld := ⟨6, 1⟩
/-- Table 10-11, RO. -/
def F.ORG_STATUS_PRED_RUN : Fld := ⟨5, 1⟩
/-- Table 10-11, RO. -/
def F.ORG_STATUS_HB_LOST : Fld := ⟨4, 1⟩
/-- Table 10-11, RO. -/
def F.ORG_STATUS_CEIL_TERM : Fld := ⟨0, 4⟩
/-- Table 10-11, RWL. -/
def F.ORG_PERIOD_LEASE_US : Fld := ⟨16, 16⟩
/-- Table 10-11, RWL. -/
def F.ORG_PERIOD_LOOP_HZ : Fld := ⟨0, 16⟩
/-- Table 10-11, RWL. -/
def F.ORG_LEASE_CFG_MAX : Fld := ⟨16, 12⟩
/-- Table 10-11, RWL. -/
def F.ORG_LEASE_CFG_FLOOR : Fld := ⟨0, 12⟩
/-- Table 10-11, RWL. -/
def F.ORG_LEASE_TIME_MS : Fld := ⟨0, 16⟩
/-- Table 10-11, RO. -/
def F.ORG_CEIL_BUDGET : Fld := ⟨16, 16⟩
/-- Table 10-11, RO. -/
def F.ORG_CEIL_CEILING : Fld := ⟨0, 16⟩
/-- Table 10-11, RWL. -/
def F.ORG_CAP_OPER_WATTS : Fld := ⟨0, 16⟩
/-- Table 10-11, RWL. -/
def F.ORG_RESERVE_CAP_NOBUS : Fld := ⟨16, 16⟩
/-- Table 10-11, RWL. -/
def F.ORG_RESERVE_WATTS : Fld := ⟨0, 16⟩
/-- Table 10-11, RO. -/
def F.ORG_BUS_CAP_VALID : Fld := ⟨31, 1⟩
/-- Table 10-11, RO. -/
def F.ORG_BUS_CAP_WATTS : Fld := ⟨0, 16⟩
/-- Table 10-11, RWL. -/
def F.ORG_FLOW_CFG_K_FLOW : Fld := ⟨16, 16⟩
/-- Table 10-11, RWL. -/
def F.ORG_FLOW_CFG_FE_LIMIT : Fld := ⟨8, 8⟩
/-- Table 10-11, RWL. -/
def F.ORG_FLOW_CFG_FE_TIME : Fld := ⟨0, 8⟩
/-- Table 10-11, RWL. -/
def F.ORG_FLOW_REQ_QMAX : Fld := ⟨24, 8⟩
/-- Table 10-11, RWL. -/
def F.ORG_FLOW_REQ_QMIN : Fld := ⟨16, 8⟩
/-- Table 10-11, RO. -/
def F.ORG_FLOW_REQ_REQ : Fld := ⟨0, 16⟩
/-- Table 10-11, RWL. -/
def F.ORG_HOT_CFG_STEP : Fld := ⟨16, 8⟩
/-- Table 10-11, RWL. -/
def F.ORG_HOT_CFG_HYST : Fld := ⟨8, 4⟩
/-- Table 10-11, RWL. -/
def F.ORG_HOT_CFG_LIMIT : Fld := ⟨0, 8⟩
/-- Table 10-11, RWL. -/
def F.ORG_PAIR_CFG_SAMPLES : Fld := ⟨8, 8⟩
/-- Table 10-11, RWL. -/
def F.ORG_PAIR_CFG_DISAGREE : Fld := ⟨0, 8⟩
/-- Table 10-11, RWL. -/
def F.ORG_KW_CFG_POWER : Fld := ⟨16, 8⟩
/-- Table 10-11, RWL. -/
def F.ORG_KW_CFG_UMIN : Fld := ⟨8, 8⟩
/-- Table 10-11, RWL. -/
def F.ORG_KW_CFG_LB : Fld := ⟨0, 8⟩
/-- Table 10-12, RO. -/
def F.ORG_HAZ_STATUS_LATCHED : Fld := ⟨8, 6⟩
/-- Table 10-12, RO. -/
def F.ORG_HAZ_STATUS_ACTIVE : Fld := ⟨0, 6⟩
/-- Table 10-12, WO. -/
def F.ORG_HAZ_ACK_LEAK : Fld := ⟨1, 1⟩
/-- Table 10-12, RO. -/
def F.ORG_HAZ_EVT_COUNT : Fld := ⟨16, 16⟩
/-- Table 10-12, RW1C. -/
def F.ORG_HAZ_EVT_EVT : Fld := ⟨0, 1⟩
/-- Table 10-12, RO. -/
def F.ORG_WARN_EVT_COUNT : Fld := ⟨16, 16⟩
/-- Table 10-12, RW1C. -/
def F.ORG_WARN_EVT_EVT : Fld := ⟨0, 1⟩
/-- Table 10-12, RO. -/
def F.ORG_PRED_STATUS_LOADED : Fld := ⟨31, 1⟩
/-- Table 10-12, RO. -/
def F.ORG_PRED_STATUS_RESULT : Fld := ⟨16, 8⟩
/-- Table 10-12, RO. -/
def F.ORG_PRED_STATUS_VERSION : Fld := ⟨0, 16⟩
/-- Table 10-12, RO. -/
def F.ORG_PRED_FORECAST_T10 : Fld := ⟨16, 16⟩
/-- Table 10-12, RO. -/
def F.ORG_PRED_FORECAST_T3 : Fld := ⟨0, 16⟩
/-- Table 10-13, RWL. -/
def F.ORG_ZONE_CFG_EN : Fld := ⟨31, 1⟩
/-- Table 10-13, RW. -/
def F.ORG_ZONE_CFG_MODE : Fld := ⟨30, 1⟩
/-- Table 10-13, RWL. -/
def F.ORG_ZONE_CFG_SRC : Fld := ⟨28, 2⟩
/-- Table 10-13, RW. -/
def F.ORG_ZONE_SP_SP : Fld := ⟨0, 32⟩
/-- Table 10-13, RWL. -/
def F.ORG_ZONE_KP_KP : Fld := ⟨0, 32⟩
/-- Table 10-13, RWL. -/
def F.ORG_ZONE_KI_KI : Fld := ⟨0, 32⟩
/-- Table 10-13, RWL. -/
def F.ORG_ZONE_KFF_KFF : Fld := ⟨0, 32⟩
/-- Table 10-13, RWL. -/
def F.ORG_ZONE_UMIN_UMIN : Fld := ⟨0, 32⟩
/-- Table 10-13, RWL. -/
def F.ORG_ZONE_UMAX_UMAX : Fld := ⟨0, 32⟩
/-- Table 10-13, RW. -/
def F.ORG_ZONE_MAN_MAN : Fld := ⟨0, 32⟩
/-- Table 10-13, RO. -/
def F.ORG_ZONE_OUT_U : Fld := ⟨0, 32⟩
/-- Table 10-13, RO. -/
def F.ORG_ZONE_INTEG_I : Fld := ⟨0, 32⟩
/-- Table 10-13, RWL. -/
def F.ORG_ZONE_FE_TIME : Fld := ⟨16, 16⟩
/-- Table 10-13, RWL. -/
def F.ORG_ZONE_FE_LIMIT : Fld := ⟨0, 16⟩
/-- Table 10-13, RO. -/
def F.ORG_ZONE_SAT_EVT_COUNT : Fld := ⟨16, 16⟩
/-- Table 10-13, RW1C. -/
def F.ORG_ZONE_SAT_EVT_EVT : Fld := ⟨0, 1⟩
/-- Table 10-13, RO. -/
def F.ORG_ZONE_FE_EVT_COUNT : Fld := ⟨16, 16⟩
/-- Table 10-13, RW1C. -/
def F.ORG_ZONE_FE_EVT_EVT : Fld := ⟨0, 1⟩
/-- Table 10-13, RO. -/
def F.ORG_ZONE_XFER_DIFF : Fld := ⟨0, 32⟩
/-- Table 10-13, RO. -/
def F.ORG_ZONE_READ_Y : Fld := ⟨0, 32⟩
/-- Table 10-14, RW. -/
def F.ORG_SENSOR_EXCLUDE : Fld := ⟨31, 1⟩
/-- Table 10-14, RO. -/
def F.ORG_SENSOR_SUSPECT : Fld := ⟨30, 1⟩
/-- Table 10-14, RO. -/
def F.ORG_SENSOR_PAIRFLAG : Fld := ⟨29, 1⟩
/-- Table 10-14, RO. -/
def F.ORG_SENSOR_OPEN : Fld := ⟨28, 1⟩
/-- Table 10-14, RO. -/
def F.ORG_SENSOR_LEAK : Fld := ⟨26, 2⟩
/-- Table 10-14, RO. -/
def F.ORG_SENSOR_VALUE : Fld := ⟨0, 16⟩
/-- Table 10-15, RO. -/
def F.ORG_PAV_LIMIT : Fld := ⟨16, 12⟩
/-- Table 10-15, RO. -/
def F.ORG_PAV_HOT : Fld := ⟨15, 1⟩
/-- Table 10-15, RO. -/
def F.ORG_PAV_KW : Fld := ⟨14, 1⟩
/-- Table 10-15, RO. -/
def F.ORG_PAV_PAIR : Fld := ⟨13, 1⟩
/-- Table 10-15, RO. -/
def F.ORG_PAV_DEMAND : Fld := ⟨0, 12⟩
/-- Table 11-7, RW1S. -/
def F.VDR_CTRL_LOCK : Fld := ⟨31, 1⟩
/-- Table 11-7, RWL. -/
def F.VDR_CTRL_MAXBOOST : Fld := ⟨8, 4⟩
/-- Table 11-7, RW. -/
def F.VDR_CTRL_EDIT : Fld := ⟨0, 1⟩
/-- Table 11-7, RO. -/
def F.VDR_STATUS_FORCED : Fld := ⟨5, 1⟩
/-- Table 11-7, RO. -/
def F.VDR_STATUS_RAIL_UV : Fld := ⟨4, 1⟩
/-- Table 11-7, RO. -/
def F.VDR_STATUS_BOOSTING : Fld := ⟨0, 4⟩
/-- Table 11-7, RO. -/
def F.VDR_RAIL_MV : Fld := ⟨0, 16⟩
/-- Table 11-7, RO. -/
def F.VDR_RAIL_EVT_COUNT : Fld := ⟨16, 16⟩
/-- Table 11-7, RW1C. -/
def F.VDR_RAIL_EVT_EVT : Fld := ⟨0, 1⟩
/-- Table 11-7, RWL. -/
def F.VDR_VERIFY_WINDOW : Fld := ⟨8, 8⟩
/-- Table 11-7, RWL. -/
def F.VDR_VERIFY_DELTA : Fld := ⟨0, 8⟩
/-- Table 11-7, RW. -/
def F.VDR_PROG_RELEASE : Fld := ⟨8, 8⟩
/-- Table 11-7, RW. -/
def F.VDR_PROG_ENTRY : Fld := ⟨0, 8⟩
/-- Table 11-7, RWL (s = 7), RO. -/
def F.VDR_SW_CFG_PARALLEL : Fld := ⟨0, 1⟩
/-- Table 11-8, RWL (c = 14, 15), RO. -/
def F.VDR_CH_CFG_FITTED : Fld := ⟨31, 1⟩
/-- Table 11-8, RO. -/
def F.VDR_CH_CFG_OWNER : Fld := ⟨30, 1⟩
/-- Table 11-8, RWL. -/
def F.VDR_CH_CFG_PROG : Fld := ⟨16, 4⟩
/-- Table 11-8, RWL. -/
def F.VDR_CH_CFG_LIMIT : Fld := ⟨0, 12⟩
/-- Table 11-8, RWL. -/
def F.VDR_CH_CLOSE_ICLOSE : Fld := ⟨16, 12⟩
/-- Table 11-8, RWL. -/
def F.VDR_CH_CLOSE_RESTART_STEP : Fld := ⟨0, 12⟩
/-- Table 11-8, WO. -/
def F.VDR_CH_CMD_OP : Fld := ⟨30, 2⟩
/-- Table 11-8, WO. -/
def F.VDR_CH_CMD_LEVEL : Fld := ⟨0, 12⟩
/-- Table 11-8, RO. -/
def F.VDR_CH_STATUS_STATE : Fld := ⟨28, 4⟩
/-- Table 11-8, RO. -/
def F.VDR_CH_STATUS_PHASE : Fld := ⟨26, 2⟩
/-- Table 11-8, RO. -/
def F.VDR_CH_STATUS_SUSPECT : Fld := ⟨25, 1⟩
/-- Table 11-8, RO. -/
def F.VDR_CH_STATUS_PC : Fld := ⟨16, 8⟩
/-- Table 11-8, RO. -/
def F.VDR_CH_STATUS_TARGET : Fld := ⟨0, 12⟩
/-- Table 11-8, RO. -/
def F.VDR_CH_MEAS_LEVEL : Fld := ⟨16, 12⟩
/-- Table 11-8, RO. -/
def F.VDR_CH_MEAS_CURRENT : Fld := ⟨0, 12⟩
/-- Table 11-8, RO. -/
def F.VDR_CH_CYCLES_STARTS : Fld := ⟨0, 32⟩
/-- Table 11-8, WO. -/
def F.VDR_CH_CTRL_RESET : Fld := ⟨0, 1⟩
/-- Table 11-8, RO. -/
def F.VDR_CH_LAST_DEFER_US : Fld := ⟨0, 32⟩
/-- Table 11-9, RO. -/
def F.VDR_CH_EVT_COUNT : Fld := ⟨16, 16⟩
/-- Table 11-9, RW1C. -/
def F.VDR_CH_EVT_EVT : Fld := ⟨0, 1⟩
/-- Table 11-10, RW. -/
def F.VDR_PSTORE_WORD : Fld := ⟨0, 32⟩
/-- Table 12-4, RW1S. -/
def F.TBC_CTRL_RECOVER : Fld := ⟨7, 1⟩
/-- Table 12-4, RWL. -/
def F.TBC_CTRL_AUTO_RECOVER : Fld := ⟨6, 1⟩
/-- Table 12-4, RWL. -/
def F.TBC_CTRL_BRS_EN : Fld := ⟨5, 1⟩
/-- Table 12-4, RWL. -/
def F.TBC_CTRL_FD_EN : Fld := ⟨4, 1⟩
/-- Table 12-4, RWL. -/
def F.TBC_CTRL_MODE : Fld := ⟨2, 2⟩
/-- Table 12-4, RWL. -/
def F.TBC_CTRL_EN : Fld := ⟨0, 1⟩
/-- Table 12-4, RWL. -/
def F.TBC_NBT_NSJW : Fld := ⟨25, 7⟩
/-- Table 12-4, RWL. -/
def F.TBC_NBT_NTSEG1 : Fld := ⟨16, 9⟩
/-- Table 12-4, RWL. -/
def F.TBC_NBT_NTSEG2 : Fld := ⟨9, 7⟩
/-- Table 12-4, RWL. -/
def F.TBC_NBT_NBRP : Fld := ⟨0, 9⟩
/-- Table 12-4, RWL. -/
def F.TBC_DBT_TDC_EN : Fld := ⟨31, 1⟩
/-- Table 12-4, RWL. -/
def F.TBC_DBT_TDCO : Fld := ⟨24, 7⟩
/-- Table 12-4, RWL. -/
def F.TBC_DBT_DSJW : Fld := ⟨20, 4⟩
/-- Table 12-4, RWL. -/
def F.TBC_DBT_DTSEG1 : Fld := ⟨15, 5⟩
/-- Table 12-4, RWL. -/
def F.TBC_DBT_DTSEG2 : Fld := ⟨11, 4⟩
/-- Table 12-4, RWL. -/
def F.TBC_DBT_DBRP : Fld := ⟨0, 5⟩
/-- Table 12-4, RO. -/
def F.TBC_ERR_STATE : Fld := ⟨30, 2⟩
/-- Table 12-4, RO. -/
def F.TBC_ERR_CFG_ERR : Fld := ⟨29, 1⟩
/-- Table 12-4, RO. -/
def F.TBC_ERR_LEC : Fld := ⟨24, 3⟩
/-- Table 12-4, RO. -/
def F.TBC_ERR_TEC : Fld := ⟨16, 8⟩
/-- Table 12-4, RO. -/
def F.TBC_ERR_REC : Fld := ⟨0, 8⟩
/-- Table 12-4, RO. -/
def F.TBC_EVT_COUNT : Fld := ⟨16, 16⟩
/-- Table 12-4, RW1C. -/
def F.TBC_EVT_EVT : Fld := ⟨0, 1⟩
/-- Table 12-5, RO. -/
def F.TBC_RX_STATUS_COUNT : Fld := ⟨0, 7⟩
/-- Table 12-5, WO. -/
def F.TBC_RX_POP_POP : Fld := ⟨0, 1⟩
/-- Table 12-5, RO. -/
def F.TBC_RX_HDR_IDE : Fld := ⟨31, 1⟩
/-- Table 12-5, RO. -/
def F.TBC_RX_HDR_FDF : Fld := ⟨30, 1⟩
/-- Table 12-5, RO. -/
def F.TBC_RX_HDR_BRS : Fld := ⟨29, 1⟩
/-- Table 12-5, RO. -/
def F.TBC_RX_HDR_ID : Fld := ⟨0, 29⟩
/-- Table 12-5, RO. -/
def F.TBC_RX_INFO_RTR : Fld := ⟨31, 1⟩
/-- Table 12-5, RO. -/
def F.TBC_RX_INFO_ESI : Fld := ⟨30, 1⟩
/-- Table 12-5, RO. -/
def F.TBC_RX_INFO_FILTER : Fld := ⟨8, 7⟩
/-- Table 12-5, RO. -/
def F.TBC_RX_INFO_DLC : Fld := ⟨0, 4⟩
/-- Table 12-5, RO. -/
def F.TBC_RX_DATA_DATA : Fld := ⟨0, 32⟩
/-- Table 12-6, RW1S. -/
def F.TBC_MB_CTRL_REQ : Fld := ⟨31, 1⟩
/-- Table 12-6, RW1S. -/
def F.TBC_MB_CTRL_CANCEL : Fld := ⟨30, 1⟩
/-- Table 12-6, RO. -/
def F.TBC_MB_CTRL_OWNED : Fld := ⟨27, 1⟩
/-- Table 12-6, RW. -/
def F.TBC_MB_CTRL_ONESHOT : Fld := ⟨26, 1⟩
/-- Table 12-6, RO. -/
def F.TBC_MB_CTRL_STATE : Fld := ⟨20, 4⟩
/-- Table 12-6, RO. -/
def F.TBC_MB_CTRL_CANCEL_RESULT : Fld := ⟨18, 2⟩
/-- Table 12-6, RW. -/
def F.TBC_MB_ID_ID : Fld := ⟨0, 29⟩
/-- Table 12-6, RW. -/
def F.TBC_MB_FLAGS_IDE : Fld := ⟨7, 1⟩
/-- Table 12-6, RW. -/
def F.TBC_MB_FLAGS_FDF : Fld := ⟨6, 1⟩
/-- Table 12-6, RW. -/
def F.TBC_MB_FLAGS_BRS : Fld := ⟨5, 1⟩
/-- Table 12-6, RW. -/
def F.TBC_MB_FLAGS_DLC : Fld := ⟨0, 4⟩
/-- Table 12-6, RW. -/
def F.TBC_MB_DATA_DATA : Fld := ⟨0, 32⟩
/-- Table 12-7, RW; RO for f ≤ 31. -/
def F.TBC_FILT_ID_EN : Fld := ⟨31, 1⟩
/-- Table 12-7, As EN. -/
def F.TBC_FILT_ID_IDE : Fld := ⟨30, 1⟩
/-- Table 12-7, As EN. -/
def F.TBC_FILT_ID_ID : Fld := ⟨0, 29⟩
/-- Table 12-7, As EN. -/
def F.TBC_FILT_MASK_MASK : Fld := ⟨0, 29⟩
/-- Table 12-8, RW1S. -/
def F.TBC_LOCK_LOCK : Fld := ⟨31, 1⟩
/-- Table 12-8, RO. -/
def F.TBC_NODE_SLOT : Fld := ⟨0, 6⟩
/-- Table 12-8, RWL. -/
def F.TBC_TIME_CFG_MASTER : Fld := ⟨31, 1⟩
/-- Table 12-8, RWL. -/
def F.TBC_TIME_CFG_SRC : Fld := ⟨30, 1⟩
/-- Table 12-8, RWL. -/
def F.TBC_TIME_CFG_TIMEOUT : Fld := ⟨16, 8⟩
/-- Table 12-8, RWL. -/
def F.TBC_TIME_CFG_PERIOD_MS : Fld := ⟨0, 16⟩
/-- Table 12-8, WO. -/
def F.TBC_TIME_SET_LO_NT : Fld := ⟨0, 32⟩
/-- Table 12-8, WO. -/
def F.TBC_TIME_SET_HI_NT : Fld := ⟨0, 16⟩
/-- Table 12-8, RO. -/
def F.TBC_NT_LO_NT : Fld := ⟨0, 32⟩
/-- Table 12-8, RO. -/
def F.TBC_NT_HI_NT : Fld := ⟨0, 16⟩
/-- Table 12-8, RO. -/
def F.TBC_TIME_STATUS_VALID : Fld := ⟨31, 1⟩
/-- Table 12-8, RO. -/
def F.TBC_TIME_STATUS_MASTER_ACTIVE : Fld := ⟨30, 1⟩
/-- Table 12-8, RO. -/
def F.TBC_TIME_STATUS_RATE : Fld := ⟨8, 16⟩
/-- Table 12-8, RO. -/
def F.TBC_TIME_STATUS_CYCLE : Fld := ⟨0, 8⟩
/-- Table 12-8, RO. -/
def F.TBC_TIME_EVT_COUNT : Fld := ⟨16, 16⟩
/-- Table 12-8, RW1C. -/
def F.TBC_TIME_EVT_EVT : Fld := ⟨0, 1⟩
/-- Table 12-8, RO. -/
def F.TBC_PEER_AGE_MS : Fld := ⟨0, 32⟩
/-- Table 13-13, RO. -/
def F.GHM_STATUS_ID_LOW : Fld := ⟨7, 1⟩
/-- Table 13-13, RO. -/
def F.GHM_STATUS_ATTEST : Fld := ⟨6, 1⟩
/-- Table 13-13, RO. -/
def F.GHM_STATUS_OWNER : Fld := ⟨5, 1⟩
/-- Table 13-13, RO. -/
def F.GHM_STATUS_PHASE : Fld := ⟨0, 4⟩
/-- Table 13-13, RO. -/
def F.GHM_IDENT_ENTERPRISE : Fld := ⟨0, 32⟩
/-- Table 13-13, RO. -/
def F.GHM_SVN_SVN : Fld := ⟨0, 32⟩
/-- Table 13-13, RO. -/
def F.GHM_SVN_FLOOR_FLOOR : Fld := ⟨0, 32⟩
/-- Table 13-13, RO. -/
def F.GHM_XMSS_REMAIN_INDICES : Fld := ⟨0, 32⟩
/-- Table 13-13, RO. -/
def F.GHM_DEBUG_STATE : Fld := ⟨0, 32⟩
/-- Table 13-13, RO. -/
def F.GHM_EVT_COUNT : Fld := ⟨16, 16⟩
/-- Table 13-13, RW1C. -/
def F.GHM_EVT_EVT : Fld := ⟨0, 1⟩
/-- Table 13-13, RW1S. -/
def F.GHM_MBX_CTRL_GO : Fld := ⟨31, 1⟩
/-- Table 13-13, RO. -/
def F.GHM_MBX_CTRL_BUSY : Fld := ⟨30, 1⟩
/-- Table 13-13, RW. -/
def F.GHM_MBX_CTRL_LENGTH : Fld := ⟨0, 9⟩
/-- Table 13-13, RW. -/
def F.GHM_MBX_DATA_DATA : Fld := ⟨0, 32⟩
/-- Table 14-10, RW1S. -/
def F.CKP_CTRL_LOCK : Fld := ⟨31, 1⟩
/-- Table 14-10, RWL. -/
def F.CKP_CTRL_STABLE_N : Fld := ⟨8, 8⟩
/-- Table 14-10, RWL. -/
def F.CKP_CTRL_AUTO_RETURN : Fld := ⟨0, 1⟩
/-- Table 14-10, RO. -/
def F.CKP_CLK_STATUS_ON_FALLBACK : Fld := ⟨16, 5⟩
/-- Table 14-10, RO. -/
def F.CKP_CLK_STATUS_STATE : Fld := ⟨0, 10⟩
/-- Table 14-10, RO. -/
def F.CKP_CLK_COUNT_COUNT : Fld := ⟨0, 20⟩
/-- Table 14-10, RO. -/
def F.CKP_CLK_EVT_COUNT : Fld := ⟨16, 16⟩
/-- Table 14-10, RW1C. -/
def F.CKP_CLK_EVT_EVT : Fld := ⟨0, 1⟩
/-- Table 14-10, WO. -/
def F.CKP_CLK_RETURN_SOURCE : Fld := ⟨0, 5⟩
/-- Table 14-11, RW. -/
def F.CKP_GATE_PRED : Fld := ⟨19, 1⟩
/-- Table 14-11, RW. -/
def F.CKP_GATE_TB1 : Fld := ⟨18, 1⟩
/-- Table 14-11, RW. -/
def F.CKP_GATE_PORT : Fld := ⟨0, 18⟩
/-- Table 14-11, RW. -/
def F.CKP_CLKOBS_EN : Fld := ⟨31, 1⟩
/-- Table 14-11, RO. -/
def F.CKP_CLKOBS_TOO_FAST : Fld := ⟨30, 1⟩
/-- Table 14-11, RW. -/
def F.CKP_CLKOBS_SEL : Fld := ⟨16, 9⟩
/-- Table 14-11, RW. -/
def F.CKP_CLKOBS_DIV : Fld := ⟨0, 16⟩
/-- Table 14-12, RO. -/
def F.CKP_VIN_SAG : Fld := ⟨17, 1⟩
/-- Table 14-12, RO. -/
def F.CKP_VIN_HOLDUP : Fld := ⟨16, 1⟩
/-- Table 14-12, RO. -/
def F.CKP_VIN_VIN : Fld := ⟨0, 16⟩
/-- Table 14-12, RWL. -/
def F.CKP_VIN_CFG_WARN : Fld := ⟨16, 10⟩
/-- Table 14-12, RWL. -/
def F.CKP_VIN_CFG_RESET : Fld := ⟨0, 10⟩
/-- Table 14-12, RO. -/
def F.CKP_VIN_EVT_COUNT : Fld := ⟨16, 16⟩
/-- Table 14-12, RW1C. -/
def F.CKP_VIN_EVT_SAG : Fld := ⟨0, 1⟩
/-- Table 14-12, WO. -/
def F.CKP_RESET_KEY : Fld := ⟨8, 8⟩
/-- Table 14-12, WO. -/
def F.CKP_RESET_KIND : Fld := ⟨0, 2⟩
/-- Table 14-12, ROS. -/
def F.CKP_RESET_CAUSE_TRIGGER : Fld := ⟨4, 4⟩
/-- Table 14-12, ROS. -/
def F.CKP_RESET_CAUSE_KIND : Fld := ⟨0, 4⟩
/-- Table 14-12, RO. -/
def F.CKP_START_ATTEMPTS : Fld := ⟨24, 8⟩
/-- Table 14-12, RO. -/
def F.CKP_START_REASON : Fld := ⟨16, 8⟩
/-- Table 14-12, RO. -/
def F.CKP_START_MODE : Fld := ⟨0, 4⟩
/-- Table 14-12, RO. -/
def F.CKP_PIN_WATTS : Fld := ⟨0, 16⟩
/-- Table 15-10, RW1S. -/
def F.SUN_CTRL_LOCK : Fld := ⟨31, 1⟩
/-- Table 15-10, RW. -/
def F.SUN_CTRL_FREEZE : Fld := ⟨16, 1⟩
/-- Table 15-10, RWL. -/
def F.SUN_CTRL_FREEZE_S : Fld := ⟨0, 8⟩
/-- Table 15-10, RO. -/
def F.SUN_STATUS_FROZEN : Fld := ⟨31, 1⟩
/-- Table 15-10, RO. -/
def F.SUN_STATUS_PERM_FULL : Fld := ⟨30, 1⟩
/-- Table 15-10, RO. -/
def F.SUN_STATUS_UNFLUSHED : Fld := ⟨16, 10⟩
/-- Table 15-10, RO. -/
def F.SUN_STATUS_RAM_COUNT : Fld := ⟨0, 10⟩
/-- Table 15-10, RO. -/
def F.SUN_SEQ_NEXT : Fld := ⟨0, 32⟩
/-- Table 15-10, RO. -/
def F.SUN_OPSEC_LO_OPSEC : Fld := ⟨0, 32⟩
/-- Table 15-10, RO. -/
def F.SUN_OPSEC_HI_OPSEC : Fld := ⟨0, 8⟩
/-- Table 15-10, RO. -/
def F.SUN_PCYCLE_COUNT : Fld := ⟨0, 32⟩
/-- Table 15-10, RC. -/
def F.SUN_LOST_RECORDS : Fld := ⟨0, 32⟩
/-- Table 15-10, RWL. -/
def F.SUN_TRIG_EN_LO_EN : Fld := ⟨0, 32⟩
/-- Table 15-10, RWL. -/
def F.SUN_TRIG_EN_HI_EN : Fld := ⟨0, 32⟩
/-- Table 15-10, WO. -/
def F.SUN_SOFT_CONTEXT : Fld := ⟨16, 16⟩
/-- Table 15-10, WO. -/
def F.SUN_SOFT_TRIG : Fld := ⟨0, 2⟩
/-- Table 15-10, RO. -/
def F.SUN_PAIR_STATUS_FAILS_B : Fld := ⟨24, 8⟩
/-- Table 15-10, RO. -/
def F.SUN_PAIR_STATUS_FAILS_A : Fld := ⟨16, 8⟩
/-- Table 15-10, RO. -/
def F.SUN_PAIR_STATUS_CORE_B : Fld := ⟨4, 4⟩
/-- Table 15-10, RO. -/
def F.SUN_PAIR_STATUS_CORE_A : Fld := ⟨0, 4⟩
/-- Table 15-10, RW1S. -/
def F.SUN_PAIR_CTRL_SWAP : Fld := ⟨31, 1⟩
/-- Table 15-10, RW1S. -/
def F.SUN_PAIR_CTRL_READMIT_A : Fld := ⟨30, 1⟩
/-- Table 15-10, RW1S. -/
def F.SUN_PAIR_CTRL_READMIT_B : Fld := ⟨29, 1⟩
/-- Table 15-10, RWL. -/
def F.SUN_PAIR_CFG_MISMATCH_N : Fld := ⟨8, 8⟩
/-- Table 15-10, RWL. -/
def F.SUN_PAIR_CFG_HB_MISS : Fld := ⟨0, 8⟩
/-- Table 15-10, RO. -/
def F.SUN_PAIR_EVT_COUNT : Fld := ⟨16, 16⟩
/-- Table 15-10, RW1C. -/
def F.SUN_PAIR_EVT_EVT : Fld := ⟨0, 1⟩
/-- Table 15-10, RWL. -/
def F.SUN_HB_CFG_EN : Fld := ⟨31, 1⟩
/-- Table 15-10, RWL. -/
def F.SUN_HB_CFG_TIMEOUT_MS : Fld := ⟨0, 16⟩
/-- Table 15-10, RO. -/
def F.SUN_HB_STATUS_HB_LOST : Fld := ⟨31, 1⟩
/-- Table 15-10, RO. -/
def F.SUN_HB_STATUS_ISOLATE : Fld := ⟨30, 1⟩
/-- Table 15-10, RO. -/
def F.SUN_HB_STATUS_AGE_MS : Fld := ⟨0, 16⟩
/-- Table 15-10, RO. -/
def F.SUN_HB_EVT_COUNT : Fld := ⟨16, 16⟩
/-- Table 15-10, RW1C. -/
def F.SUN_HB_EVT_EVT : Fld := ⟨0, 1⟩
/-- Table 15-10, RO. -/
def F.SUN_HEALTH_BYTES : Fld := ⟨0, 32⟩
/-- Table 15-10, RO. -/
def F.SUN_SELFTEST_FAIL : Fld := ⟨0, 7⟩
/-- Table 15-10, RO. -/
def F.SUN_SELFTEST_EVT_COUNT : Fld := ⟨16, 16⟩
/-- Table 15-10, RW1C. -/
def F.SUN_SELFTEST_EVT_EVT : Fld := ⟨0, 1⟩
/-- Table 15-11, RWL. -/
def F.SUN_TRIG_CFG_FLUSH : Fld := ⟨31, 1⟩
/-- Table 15-11, RWL. -/
def F.SUN_TRIG_CFG_LIST : Fld := ⟨28, 2⟩
/-- Table 15-11, RWL. -/
def F.SUN_TRIG_CFG_HOLDOFF : Fld := ⟨0, 16⟩
/-- Table 15-11, RWL. -/
def F.SUN_LIST_VALID : Fld := ⟨31, 1⟩
/-- Table 15-11, RWL. -/
def F.SUN_LIST_OFFSET : Fld := ⟨2, 24⟩
/-- Table 15-11, RO. -/
def F.SUN_LIST_GEN_GEN : Fld := ⟨0, 16⟩
/-- Table 15-11, RW. -/
def F.SUN_RD_SEQ_SEQ : Fld := ⟨0, 32⟩
/-- Table 15-11, RO. -/
def F.SUN_RD_STATUS_BUSY : Fld := ⟨31, 1⟩
/-- Table 15-11, RO. -/
def F.SUN_RD_STATUS_WHERE : Fld := ⟨0, 2⟩
/-- Table 15-11, RO. -/
def F.SUN_RD_DATA_DATA : Fld := ⟨0, 32⟩
/-- Table 16-2, RO. -/
def F.GLB_IDENT_DEVICE : Fld := ⟨16, 16⟩
/-- Table 16-2, RO. -/
def F.GLB_IDENT_VARIANT : Fld := ⟨8, 8⟩
/-- Table 16-2, RO. -/
def F.GLB_IDENT_STEPPING : Fld := ⟨0, 8⟩
/-- Table 16-3, RO. -/
def F.GLB_COUNTS_PAV_GOOD : Fld := ⟨16, 8⟩
/-- Table 16-3, RO. -/
def F.GLB_COUNTS_PAV_ASSIGN : Fld := ⟨8, 8⟩
/-- Table 16-3, RO. -/
def F.GLB_COUNTS_CISTERNS : Fld := ⟨0, 8⟩
/-- Table 16-4, RO. -/
def F.GLB_STATUS_OVERALL : Fld := ⟨16, 8⟩
/-- Table 16-4, RO. -/
def F.GLB_STATUS_MEM_ACTIVE : Fld := ⟨7, 1⟩
/-- Table 16-4, RO. -/
def F.GLB_STATUS_HB_LOST : Fld := ⟨6, 1⟩
/-- Table 16-4, RO. -/
def F.GLB_STATUS_QUIESCE : Fld := ⟨5, 1⟩
/-- Table 16-4, RO. -/
def F.GLB_STATUS_CLAMP : Fld := ⟨4, 1⟩
/-- Table 16-4, RO. -/
def F.GLB_STATUS_MODE : Fld := ⟨0, 4⟩
/-- Table 16-5, RO. -/
def F.GLB_ACC_EVT_COUNT : Fld := ⟨16, 16⟩
/-- Table 16-5, RW1C. -/
def F.GLB_ACC_EVT_EVT : Fld := ⟨0, 1⟩
/-- Table 16-5, RO. -/
def F.GLB_CAP_CAP : Fld := ⟨0, 32⟩
/-- Table 16-5, RO. -/
def F.GLB_SERIAL_LO_SERIAL : Fld := ⟨0, 32⟩
/-- Table 16-5, RO. -/
def F.GLB_SERIAL_HI_SERIAL : Fld := ⟨0, 32⟩

/-- The register rows of the PAV block. -/
def regRowsPAV : List RegRow := [
  ⟨"PAV_STATUS", 0x1000000, [(65536, 160)], 0xff00, 0x0, 0x0, 0x0, 0x0, 0x0, 0x0, none⟩,
  ⟨"PAV_FAULT", 0x1000004, [(65536, 160)], 0x0, 0x0, 0x0, 0x0, 0x0, 0x0, 0x0, none⟩,
  ⟨"PAV_FAULT_INSN_LO", 0x1000008, [(65536, 160)], 0x0, 0x0, 0x0, 0x0, 0x0, 0x0, 0x0, none⟩,
  ⟨"PAV_FAULT_INSN_HI", 0x100000c, [(65536, 160)], 0x0, 0x0, 0x0, 0x0, 0x0, 0x0, 0x0, none⟩,
  ⟨"PAV_FAULT_EVT", 0x1000010, [(65536, 160)], 0x0, 0x0, 0x0, 0x1, 0x0, 0x0, 0x0, none⟩,
  ⟨"PAV_SHARE_LIMIT", 0x1000014, [(65536, 160)], 0x0, 0xffffff, 0x0, 0x0, 0x0, 0x0, 0x0, none⟩,
  ⟨"PAV_OPPOINT", 0x1000018, [(65536, 160)], 0x190, 0x0, 0x0, 0x0, 0x0, 0x0, 0x0, none⟩,
  ⟨"PAV_BED_ECC", 0x100001c, [(65536, 160)], 0x0, 0x0, 0x0, 0x0, 0x0, 0x0, 0xffff, none⟩]
/-- The register rows of the CIS block. -/
def regRowsCIS : List RegRow := [
  ⟨"CIS_STATUS", 0x2000000, [(65536, 16)], 0x0, 0x0, 0x0, 0x0, 0x0, 0x0, 0x0, none⟩,
  ⟨"CIS_DUP_EVT", 0x2000004, [(65536, 16)], 0x0, 0x0, 0x0, 0x1, 0x0, 0x0, 0x0, none⟩,
  ⟨"CIS_REFUSED", 0x2000008, [(65536, 16)], 0x0, 0x0, 0x0, 0x0, 0x0, 0x0, 0xffffffff, none⟩,
  ⟨"CIS_LEDGER_ECC", 0x200000c, [(65536, 16)], 0x0, 0x0, 0x0, 0x0, 0x0, 0x0, 0xffff, none⟩,
  ⟨"CIS_BLOCK_STATE", 0x2000100, [(65536, 16), (4, 64)], 0x0, 0x0, 0x0, 0x0, 0x0, 0x0, 0x0, none⟩,
  ⟨"CIS_BLOCK_GROUP", 0x2000200, [(65536, 16), (4, 64)], 0x0, 0x0, 0x0, 0x0, 0x0, 0x0, 0x0, none⟩]
/-- The register rows of the MEM block. -/
def regRowsMEM : List RegRow := [
  ⟨"MEM_IDENT", 0x100000, [], 0x0, 0x0, 0x0, 0x0, 0x0, 0x0, 0x0, some 0x100004⟩,
  ⟨"MEM_CTRL", 0x100004, [], 0x130, 0x0, 0xff0, 0x0, 0x80000000, 0x0, 0x0, some 0x100004⟩,
  ⟨"MEM_SCRUB_PERIOD", 0x100008, [], 0x18, 0x0, 0xff, 0x0, 0x0, 0x0, 0x0, some 0x100004⟩,
  ⟨"MEM_STATUS", 0x10000c, [], 0x0, 0x0, 0x0, 0x0, 0x0, 0x0, 0x0, some 0x100004⟩,
  ⟨"MEM_OWED", 0x100010, [], 0x0, 0x0, 0x0, 0x0, 0x0, 0x0, 0x0, some 0x100004⟩,
  ⟨"MEM_SCRUB_POS", 0x100014, [], 0x0, 0x0, 0x0, 0x0, 0x0, 0x0, 0x0, some 0x100004⟩,
  ⟨"MEM_CE_EVT", 0x100020, [], 0x0, 0x0, 0x0, 0x1, 0x0, 0x0, 0x0, some 0x100004⟩,
  ⟨"MEM_UE_EVT", 0x100024, [], 0x0, 0x0, 0x0, 0x1, 0x0, 0x0, 0x0, some 0x100004⟩,
  ⟨"MEM_MAP_EVT", 0x100028, [], 0x0, 0x0, 0x0, 0x1, 0x0, 0x0, 0x0, some 0x100004⟩,
  ⟨"MEM_UE_ADDR_LO", 0x100030, [], 0x0, 0x0, 0x0, 0x0, 0x0, 0x0, 0x0, some 0x100004⟩,
  ⟨"MEM_UE_ADDR_HI", 0x100034, [], 0x0, 0x0, 0x0, 0x0, 0x0, 0x0, 0x0, some 0x100004⟩,
  ⟨"MEM_POISON", 0x100038, [], 0x0, 0x0, 0x0, 0x0, 0x0, 0x0, 0x0, some 0x100004⟩,
  ⟨"MEM_RETIRE_CMD", 0x100040, [], 0x0, 0x0, 0x0, 0x0, 0x0, 0xffffffff, 0x0, some 0x100004⟩,
  ⟨"MEM_RETIRE_STS", 0x100044, [], 0x0, 0x0, 0x0, 0x0, 0x0, 0x0, 0x0, some 0x100004⟩,
  ⟨"MEM_RETIRE_THRESH", 0x100048, [], 0x10000, 0x0, 0xffffffff, 0x0, 0x0, 0x0, 0x0, some 0x100004⟩,
  ⟨"MEM_PKG_STATE", 0x100100, [(4, 20)], 0x0, 0x0, 0x0, 0x0, 0x0, 0x0, 0x0, some 0x100004⟩,
  ⟨"MEM_CH_CE", 0x100200, [(16, 20), (4, 4)], 0x0, 0x0, 0x0, 0x0, 0x0, 0x0, 0xffffffff, some 0x100004⟩,
  ⟨"MEM_GRP_UE", 0x100400, [(4, 4)], 0x0, 0x0, 0x0, 0x0, 0x0, 0x0, 0xffffffff, some 0x100004⟩,
  ⟨"MEM_LOST", 0x100500, [(4, 64)], 0x0, 0x0, 0x0, 0x0, 0x0, 0x0, 0x0, some 0x100004⟩]
/-- The register rows of the KDV block. -/
def regRowsKDV : List RegRow := [
  ⟨"KDV_STATE", 0x400000c, [], 0x2, 0x0, 0x0, 0x0, 0x0, 0x0, 0x0, none⟩,
  ⟨"KDV_MBX_CTRL", 0x4000010, [], 0x0, 0x3f, 0x0, 0x0, 0x80000000, 0x0, 0x0, none⟩,
  ⟨"KDV_MBX_DATA", 0x4000014, [(4, 8)], 0x0, 0xffffffff, 0x0, 0x0, 0x0, 0x0, 0x0, none⟩]
/-- The register rows of the GLB block. -/
def regRowsGLB : List RegRow := [
  ⟨"GLB_HP_LINK", 0x100, [], 0x0, 0x0, 0x0, 0x0, 0x0, 0x0, 0x0, none⟩,
  ⟨"GLB_HP_DOWN_EVT", 0x104, [], 0x0, 0x0, 0x0, 0x1, 0x0, 0x0, 0x0, none⟩,
  ⟨"GLB_HOSTM_DENY_EVT", 0x108, [], 0x0, 0x0, 0x0, 0x1, 0x0, 0x0, 0x0, none⟩,
  ⟨"GLB_HOSTM_DENY_ADDR_LO", 0x10c, [], 0x0, 0x0, 0x0, 0x0, 0x0, 0x0, 0x0, none⟩,
  ⟨"GLB_HOSTM_DENY_ADDR_HI", 0x110, [], 0x0, 0x0, 0x0, 0x0, 0x0, 0x0, 0x0, none⟩,
  ⟨"GLB_QE_STORE", 0x200, [], 0x0, 0x800007ff, 0x0, 0x0, 0x0, 0x0, 0x0, none⟩,
  ⟨"GLB_INCARNATION", 0x204, [], 0x0, 0x0, 0x0, 0x0, 0x0, 0x0, 0x0, none⟩,
  ⟨"GLB_QE_HOLD_EVT", 0x208, [], 0x0, 0x0, 0x0, 0x1, 0x0, 0x0, 0x0, none⟩,
  ⟨"GLB_IDENT", 0x0, [], 0xa900000, 0x0, 0x0, 0x0, 0x0, 0x0, 0x0, none⟩,
  ⟨"GLB_COUNTS", 0x4, [], 0x9010, 0x0, 0x0, 0x0, 0x0, 0x0, 0x0, none⟩,
  ⟨"GLB_STATUS", 0x8, [], 0x20042, 0x0, 0x0, 0x0, 0x0, 0x0, 0x0, none⟩,
  ⟨"GLB_ACC_EVT", 0xc, [], 0x0, 0x0, 0x0, 0x1, 0x0, 0x0, 0x0, none⟩,
  ⟨"GLB_CAP", 0x10, [(4, 4)], 0x0, 0x0, 0x0, 0x0, 0x0, 0x0, 0x0, none⟩,
  ⟨"GLB_SERIAL_LO", 0x20, [], 0x0, 0x0, 0x0, 0x0, 0x0, 0x0, 0x0, none⟩,
  ⟨"GLB_SERIAL_HI", 0x24, [], 0x0, 0x0, 0x0, 0x0, 0x0, 0x0, 0x0, none⟩]
/-- The register rows of the DBP block. -/
def regRowsDBP : List RegRow := [
  ⟨"DBP_PRODUCER_LO", 0x3000000, [(4096, 4096)], 0x0, 0xffffffff, 0x0, 0x0, 0x0, 0x0, 0x0, none⟩,
  ⟨"DBP_PRODUCER_HI", 0x3000004, [(4096, 4096)], 0x0, 0xffffffff, 0x0, 0x0, 0x0, 0x0, 0x0, none⟩,
  ⟨"DBP_CQ_HEAD_LO", 0x3000008, [(4096, 4096)], 0x0, 0xffffffff, 0x0, 0x0, 0x0, 0x0, 0x0, none⟩,
  ⟨"DBP_CQ_HEAD_HI", 0x300000c, [(4096, 4096)], 0x0, 0xffffffff, 0x0, 0x0, 0x0, 0x0, 0x0, none⟩]
/-- The register rows of the QCT block. -/
def regRowsQCT : List RegRow := [
  ⟨"QCT_SQ_LO", 0x800000, [(256, 4096)], 0x0, 0xfffff000, 0x0, 0x0, 0x0, 0x0, 0x0, none⟩,
  ⟨"QCT_SQ_HI", 0x800004, [(256, 4096)], 0x0, 0xffffffff, 0x0, 0x0, 0x0, 0x0, 0x0, none⟩,
  ⟨"QCT_CQ_LO", 0x800008, [(256, 4096)], 0x0, 0xfffff000, 0x0, 0x0, 0x0, 0x0, 0x0, none⟩,
  ⟨"QCT_CQ_HI", 0x80000c, [(256, 4096)], 0x0, 0xffffffff, 0x0, 0x0, 0x0, 0x0, 0x0, none⟩,
  ⟨"QCT_HDR_LO", 0x800010, [(256, 4096)], 0x0, 0xffffffc0, 0x0, 0x0, 0x0, 0x0, 0x0, none⟩,
  ⟨"QCT_HDR_HI", 0x800014, [(256, 4096)], 0x0, 0xffffffff, 0x0, 0x0, 0x0, 0x0, 0x0, none⟩,
  ⟨"QCT_DB_LO", 0x800018, [(256, 4096)], 0x0, 0xffffffc0, 0x0, 0x0, 0x0, 0x0, 0x0, none⟩,
  ⟨"QCT_DB_HI", 0x80001c, [(256, 4096)], 0x0, 0xffffffff, 0x0, 0x0, 0x0, 0x0, 0x0, none⟩,
  ⟨"QCT_ACCEPT_LO", 0x800038, [(256, 4096)], 0x0, 0x0, 0x0, 0x0, 0x0, 0x0, 0x0, none⟩,
  ⟨"QCT_ACCEPT_HI", 0x80003c, [(256, 4096)], 0x0, 0x0, 0x0, 0x0, 0x0, 0x0, 0x0, none⟩,
  ⟨"QCT_COMMIT_LO", 0x800040, [(256, 4096)], 0x0, 0x0, 0x0, 0x0, 0x0, 0x0, 0x0, none⟩,
  ⟨"QCT_COMMIT_HI", 0x800044, [(256, 4096)], 0x0, 0x0, 0x0, 0x0, 0x0, 0x0, 0x0, none⟩,
  ⟨"QCT_CFG", 0x800020, [(256, 4096)], 0x60000, 0x1f8fff, 0x0, 0x0, 0x0, 0x0, 0x0, none⟩,
  ⟨"QCT_PASID", 0x800024, [(256, 4096)], 0x0, 0x800fffff, 0x0, 0x0, 0x0, 0x0, 0x0, none⟩,
  ⟨"QCT_CTRL", 0x800028, [(256, 4096)], 0x0, 0x0, 0x0, 0x0, 0xc0000000, 0x0, 0x0, none⟩,
  ⟨"QCT_STATE", 0x80002c, [(256, 4096)], 0x0, 0x0, 0x0, 0x0, 0x0, 0x0, 0x0, none⟩,
  ⟨"QCT_ERR_EVT", 0x800030, [(256, 4096)], 0x0, 0x0, 0x0, 0x1, 0x0, 0x0, 0x0, none⟩,
  ⟨"QCT_BUFFERED", 0x800034, [(256, 4096)], 0x0, 0x0, 0x0, 0x0, 0x0, 0x0, 0x0, none⟩]
/-- The register rows of the ALT block. -/
def regRowsALT : List RegRow := [
  ⟨"ALT_SUMMARY", 0x400000, [], 0x0, 0x0, 0x0, 0x0, 0x0, 0x0, 0x0, none⟩,
  ⟨"ALT_KEY_CHECK_LO", 0x400010, [], 0x0, 0x0, 0x0, 0x0, 0x0, 0x0, 0x0, none⟩,
  ⟨"ALT_KEY_CHECK_HI", 0x400014, [], 0x0, 0x0, 0x0, 0x0, 0x0, 0x0, 0x0, none⟩,
  ⟨"ALT_PORT_SHARE", 0x400100, [(4, 18)], 0x0, 0x0, 0x0, 0x0, 0x0, 0x0, 0x0, none⟩,
  ⟨"ALT_STATE", 0x401000, [(64, 256)], 0x30, 0x0, 0x0, 0x0, 0x0, 0x0, 0x0, none⟩,
  ⟨"ALT_SERIAL", 0x401004, [(64, 256)], 0x0, 0x0, 0x0, 0x0, 0x0, 0x0, 0x0, none⟩,
  ⟨"ALT_TOKEN_LO", 0x401008, [(64, 256)], 0x0, 0x0, 0x0, 0x0, 0x0, 0x0, 0x0, none⟩,
  ⟨"ALT_TOKEN_HI", 0x40100c, [(64, 256)], 0x0, 0x0, 0x0, 0x0, 0x0, 0x0, 0x0, none⟩,
  ⟨"ALT_COUNT0", 0x401010, [(64, 256)], 0x0, 0x0, 0x0, 0x0, 0x0, 0x0, 0x0, none⟩,
  ⟨"ALT_COUNT1", 0x401014, [(64, 256)], 0x0, 0x0, 0x0, 0x0, 0x0, 0x0, 0x0, none⟩,
  ⟨"ALT_COUNT2", 0x401018, [(64, 256)], 0x0, 0x0, 0x0, 0x0, 0x0, 0x0, 0x0, none⟩,
  ⟨"ALT_MODULES", 0x40101c, [(64, 256)], 0x0, 0x0, 0x0, 0x0, 0x0, 0x0, 0x0, none⟩,
  ⟨"ALT_PROT_BASE_LO", 0x401020, [(64, 256)], 0x0, 0x0, 0x0, 0x0, 0x0, 0x0, 0x0, none⟩,
  ⟨"ALT_PROT_BASE_HI", 0x401024, [(64, 256)], 0x0, 0x0, 0x0, 0x0, 0x0, 0x0, 0x0, none⟩,
  ⟨"ALT_PROT_PAGES", 0x401028, [(64, 256)], 0x0, 0x0, 0x0, 0x0, 0x0, 0x0, 0x0, none⟩,
  ⟨"ALT_TAG_BASE_LO", 0x40102c, [(64, 256)], 0x0, 0x0, 0x0, 0x0, 0x0, 0x0, 0x0, none⟩,
  ⟨"ALT_TAG_BASE_HI", 0x401030, [(64, 256)], 0x0, 0x0, 0x0, 0x0, 0x0, 0x0, 0x0, none⟩,
  ⟨"ALT_PAVMAP", 0x410000, [(256, 256), (4, 36)], 0xffffffff, 0x0, 0x0, 0x0, 0x0, 0x0, 0x0, none⟩,
  ⟨"ALT_SHAREMAP", 0x420000, [(32, 256), (4, 5)], 0x0, 0x0, 0x0, 0x0, 0x0, 0x0, 0x0, none⟩,
  ⟨"ALT_VEC", 0x430000, [(4, 4096)], 0x0, 0x0, 0x0, 0x0, 0x0, 0x0, 0x0, none⟩,
  ⟨"ALT_PLOTMAP", 0x500000, [(4096, 256), (4, 1024)], 0x0, 0x0, 0x0, 0x0, 0x0, 0x0, 0x0, none⟩,
  ⟨"ALT_BLKMAP", 0x600000, [(2048, 256), (4, 512)], 0x0, 0x0, 0x0, 0x0, 0x0, 0x0, 0x0, none⟩]
/-- The register rows of the TRL block. -/
def regRowsTRL : List RegRow := [
  ⟨"TRL_MODULE_ID", 0x200000, [], 0x0, 0x0, 0xffff, 0x0, 0x80000000, 0x0, 0x0, some 0x200000⟩,
  ⟨"TRL_CTRL", 0x200004, [], 0xa2014, 0xff3fff, 0x0, 0x0, 0x0, 0x0, 0x0, some 0x200000⟩,
  ⟨"TRL_STATUS", 0x200008, [], 0x0, 0x0, 0x0, 0x0, 0x0, 0x0, 0x0, some 0x200000⟩,
  ⟨"TRL_DROP_EVT", 0x20000c, [], 0x0, 0x0, 0x0, 0x1, 0x0, 0x0, 0x0, some 0x200000⟩,
  ⟨"TRL_UNREACH_EVT", 0x200010, [], 0x0, 0x0, 0x0, 0x1, 0x0, 0x0, 0x0, some 0x200000⟩,
  ⟨"TRL_UNREACH_ID", 0x200014, [], 0x0, 0x0, 0x0, 0x0, 0x0, 0x0, 0x0, some 0x200000⟩,
  ⟨"TRL_PORT_CFG", 0x200100, [(64, 18)], 0x0, 0xf1, 0x0, 0x0, 0x80000000, 0x0, 0x0, some 0x200000⟩,
  ⟨"TRL_PORT_STATUS", 0x200104, [(64, 18)], 0x0, 0x0, 0x0, 0x0, 0x0, 0x0, 0x0, some 0x200000⟩,
  ⟨"TRL_PORT_REPLAY", 0x200108, [(64, 18)], 0x0, 0x0, 0x0, 0x0, 0x0, 0x0, 0xffffffff, some 0x200000⟩,
  ⟨"TRL_PORT_FEC_UE", 0x20010c, [(64, 18)], 0x0, 0x0, 0x0, 0x0, 0x0, 0x0, 0xffffffff, some 0x200000⟩,
  ⟨"TRL_PORT_LANE_CE", 0x200110, [(64, 18), (4, 4)], 0x0, 0x0, 0x0, 0x0, 0x0, 0x0, 0xffffffff, some 0x200000⟩,
  ⟨"TRL_PORT_DOWN_EVT", 0x200120, [(64, 18)], 0x0, 0x0, 0x0, 0x1, 0x0, 0x0, 0x0, some 0x200000⟩,
  ⟨"TRL_PORT_LANE_THRESH", 0x200124, [(64, 18)], 0x10000, 0xffffffff, 0x0, 0x0, 0x0, 0x0, 0x0, some 0x200000⟩,
  ⟨"TRL_GROUP", 0x201000, [(4, 18)], 0x0, 0x3ffff, 0x0, 0x0, 0x0, 0x0, 0x0, some 0x200000⟩,
  ⟨"TRL_ROUTE", 0x300000, [(4, 65536)], 0x0, 0x800fffff, 0x0, 0x0, 0x0, 0x0, 0x0, some 0x200000⟩]
/-- The register rows of the ORG block. -/
def regRowsORG : List RegRow := [
  ⟨"ORG_CTRL", 0x80000, [], 0x0, 0x4, 0x1a, 0x0, 0x80000000, 0x0, 0x0, some 0x80000⟩,
  ⟨"ORG_STATUS", 0x80004, [], 0x5, 0x0, 0x0, 0x0, 0x0, 0x0, 0x0, some 0x80000⟩,
  ⟨"ORG_PERIOD", 0x80008, [], 0x3e803e8, 0x0, 0xffffffff, 0x0, 0x0, 0x0, 0x0, some 0x80000⟩,
  ⟨"ORG_LEASE_CFG", 0x8000c, [], 0xc00010, 0x0, 0xfff0fff, 0x0, 0x0, 0x0, 0x0, some 0x80000⟩,
  ⟨"ORG_LEASE_TIME", 0x80010, [], 0x7d0, 0x0, 0xffff, 0x0, 0x0, 0x0, 0x0, some 0x80000⟩,
  ⟨"ORG_CEIL", 0x80014, [], 0xa00230, 0x0, 0x0, 0x0, 0x0, 0x0, 0x0, some 0x80000⟩,
  ⟨"ORG_CAP_OPER", 0x80018, [], 0x640, 0x0, 0xffff, 0x0, 0x0, 0x0, 0x0, some 0x80000⟩,
  ⟨"ORG_RESERVE", 0x8001c, [], 0x3200190, 0x0, 0xffffffff, 0x0, 0x0, 0x0, 0x0, some 0x80000⟩,
  ⟨"ORG_BUS_CAP", 0x80020, [], 0x0, 0x0, 0x0, 0x0, 0x0, 0x0, 0x0, some 0x80000⟩,
  ⟨"ORG_FLOW_CFG", 0x80024, [], 0x2801e32, 0x0, 0xffffffff, 0x0, 0x0, 0x0, 0x0, some 0x80000⟩,
  ⟨"ORG_FLOW_REQ", 0x80028, [], 0x80201000, 0x0, 0xffff0000, 0x0, 0x0, 0x0, 0x0, some 0x80000⟩,
  ⟨"ORG_HOT_CFG", 0x8002c, [], 0x8035f, 0x0, 0xff0fff, 0x0, 0x0, 0x0, 0x0, some 0x80000⟩,
  ⟨"ORG_PAIR_CFG", 0x80030, [], 0x1030, 0x0, 0xffff, 0x0, 0x0, 0x0, 0x0, some 0x80000⟩,
  ⟨"ORG_KW_CFG", 0x80034, [], 0x100d23, 0x0, 0xffffff, 0x0, 0x0, 0x0, 0x0, some 0x80000⟩,
  ⟨"ORG_HAZ_STATUS", 0x80040, [], 0x0, 0x0, 0x0, 0x0, 0x0, 0x0, 0x0, some 0x80000⟩,
  ⟨"ORG_HAZ_ACK", 0x80044, [], 0x0, 0x0, 0x0, 0x0, 0x0, 0xffffffff, 0x0, some 0x80000⟩,
  ⟨"ORG_HAZ_EVT", 0x80050, [(4, 6)], 0x0, 0x0, 0x0, 0x1, 0x0, 0x0, 0x0, some 0x80000⟩,
  ⟨"ORG_WARN_EVT", 0x80080, [(4, 8)], 0x0, 0x0, 0x0, 0x1, 0x0, 0x0, 0x0, some 0x80000⟩,
  ⟨"ORG_PRED_STATUS", 0x800c0, [], 0x0, 0x0, 0x0, 0x0, 0x0, 0x0, 0x0, some 0x80000⟩,
  ⟨"ORG_PRED_FORECAST", 0x80100, [(4, 12)], 0x0, 0x0, 0x0, 0x0, 0x0, 0x0, 0x0, some 0x80000⟩,
  ⟨"ORG_ZONE_CFG", 0x80200, [(64, 12)], 0x10000000, 0x40000000, 0xb0000000, 0x0, 0x0, 0x0, 0x0, some 0x80000⟩,
  ⟨"ORG_ZONE_SP", 0x80204, [(64, 12)], 0x0, 0xffffffff, 0x0, 0x0, 0x0, 0x0, 0x0, some 0x80000⟩,
  ⟨"ORG_ZONE_KP", 0x80208, [(64, 12)], 0xccd, 0x0, 0xffffffff, 0x0, 0x0, 0x0, 0x0, some 0x80000⟩,
  ⟨"ORG_ZONE_KI", 0x8020c, [(64, 12)], 0x52, 0x0, 0xffffffff, 0x0, 0x0, 0x0, 0x0, some 0x80000⟩,
  ⟨"ORG_ZONE_KFF", 0x80210, [(64, 12)], 0x10000, 0x0, 0xffffffff, 0x0, 0x0, 0x0, 0x0, some 0x80000⟩,
  ⟨"ORG_ZONE_UMIN", 0x80214, [(64, 12)], 0x1999, 0x0, 0xffffffff, 0x0, 0x0, 0x0, 0x0, some 0x80000⟩,
  ⟨"ORG_ZONE_UMAX", 0x80218, [(64, 12)], 0x10000, 0x0, 0xffffffff, 0x0, 0x0, 0x0, 0x0, some 0x80000⟩,
  ⟨"ORG_ZONE_MAN", 0x8021c, [(64, 12)], 0x10000, 0xffffffff, 0x0, 0x0, 0x0, 0x0, 0x0, some 0x80000⟩,
  ⟨"ORG_ZONE_OUT", 0x80220, [(64, 12)], 0x10000, 0x0, 0x0, 0x0, 0x0, 0x0, 0x0, some 0x80000⟩,
  ⟨"ORG_ZONE_INTEG", 0x80224, [(64, 12)], 0x0, 0x0, 0x0, 0x0, 0x0, 0x0, 0x0, some 0x80000⟩,
  ⟨"ORG_ZONE_FE", 0x80228, [(64, 12)], 0x320500, 0x0, 0xffffffff, 0x0, 0x0, 0x0, 0x0, some 0x80000⟩,
  ⟨"ORG_ZONE_SAT_EVT", 0x8022c, [(64, 12)], 0x0, 0x0, 0x0, 0x1, 0x0, 0x0, 0x0, some 0x80000⟩,
  ⟨"ORG_ZONE_FE_EVT", 0x80230, [(64, 12)], 0x0, 0x0, 0x0, 0x1, 0x0, 0x0, 0x0, some 0x80000⟩,
  ⟨"ORG_ZONE_XFER", 0x80234, [(64, 12)], 0x0, 0x0, 0x0, 0x0, 0x0, 0x0, 0x0, some 0x80000⟩,
  ⟨"ORG_ZONE_READ", 0x80238, [(64, 12)], 0x0, 0x0, 0x0, 0x0, 0x0, 0x0, 0x0, some 0x80000⟩,
  ⟨"ORG_SENSOR", 0x81000, [(4, 408)], 0x0, 0x80000000, 0x0, 0x0, 0x0, 0x0, 0x0, some 0x80000⟩,
  ⟨"ORG_PAV", 0x82000, [(4, 160)], 0xc00010, 0x0, 0x0, 0x0, 0x0, 0x0, 0x0, some 0x80000⟩]
/-- The register rows of the VDR block. -/
def regRowsVDR : List RegRow := [
  ⟨"VDR_CTRL", 0xc0000, [], 0x400, 0x1, 0xf00, 0x0, 0x80000000, 0x0, 0x0, some 0xc0000⟩,
  ⟨"VDR_STATUS", 0xc0004, [], 0x20, 0x0, 0x0, 0x0, 0x0, 0x0, 0x0, some 0xc0000⟩,
  ⟨"VDR_RAIL", 0xc0008, [], 0x0, 0x0, 0x0, 0x0, 0x0, 0x0, 0x0, some 0xc0000⟩,
  ⟨"VDR_RAIL_EVT", 0xc000c, [], 0x0, 0x0, 0x0, 0x1, 0x0, 0x0, 0x0, some 0xc0000⟩,
  ⟨"VDR_VERIFY", 0xc0010, [], 0x504, 0x0, 0xffff, 0x0, 0x0, 0x0, 0x0, some 0xc0000⟩,
  ⟨"VDR_PROG", 0xc0040, [(4, 16)], 0x0, 0xffff, 0x0, 0x0, 0x0, 0x0, 0x0, some 0xc0000⟩,
  ⟨"VDR_SW_CFG", 0xc0080, [(4, 8)], 0x0, 0x0, 0x1, 0x0, 0x0, 0x0, 0x0, some 0xc0000⟩,
  ⟨"VDR_CH_CFG", 0xc0200, [(64, 16)], 0xc80, 0x0, 0xf0fff, 0x0, 0x0, 0x0, 0x0, some 0xc0000⟩,
  ⟨"VDR_CH_CLOSE", 0xc0204, [(64, 16)], 0x3200064, 0x0, 0xfff0fff, 0x0, 0x0, 0x0, 0x0, some 0xc0000⟩,
  ⟨"VDR_CH_CMD", 0xc0208, [(64, 16)], 0x0, 0x0, 0x0, 0x0, 0x0, 0xffffffff, 0x0, some 0xc0000⟩,
  ⟨"VDR_CH_STATUS", 0xc020c, [(64, 16)], 0x0, 0x0, 0x0, 0x0, 0x0, 0x0, 0x0, some 0xc0000⟩,
  ⟨"VDR_CH_MEAS", 0xc0210, [(64, 16)], 0x0, 0x0, 0x0, 0x0, 0x0, 0x0, 0x0, some 0xc0000⟩,
  ⟨"VDR_CH_CYCLES", 0xc0214, [(64, 16)], 0x0, 0x0, 0x0, 0x0, 0x0, 0x0, 0x0, some 0xc0000⟩,
  ⟨"VDR_CH_CTRL", 0xc0218, [(64, 16)], 0x0, 0x0, 0x0, 0x0, 0x0, 0x1, 0x0, some 0xc0000⟩,
  ⟨"VDR_CH_LAST_DEFER", 0xc021c, [(64, 16)], 0x0, 0x0, 0x0, 0x0, 0x0, 0x0, 0x0, some 0xc0000⟩,
  ⟨"VDR_CH_EVT", 0xc0220, [(64, 16), (4, 6)], 0x0, 0x0, 0x0, 0x1, 0x0, 0x0, 0x0, some 0xc0000⟩,
  ⟨"VDR_PSTORE", 0xc1000, [(4, 256)], 0x0, 0xffffffff, 0x0, 0x0, 0x0, 0x0, 0x0, some 0xc0000⟩]
/-- The register rows of the TBC block. -/
def regRowsTBC : List RegRow := [
  ⟨"TBC_CTRL", 0xe0000, [(32768, 2)], 0x41, 0x0, 0x7d, 0x0, 0x80, 0x0, 0x0, some 0xf0000⟩,
  ⟨"TBC_NBT", 0xe0004, [(32768, 2)], 0x3e7e3e00, 0x0, 0xffffffff, 0x0, 0x0, 0x0, 0x0, some 0xf0000⟩,
  ⟨"TBC_DBT", 0xe0008, [(32768, 2)], 0xa07f3800, 0x0, 0xfffff81f, 0x0, 0x0, 0x0, 0x0, some 0xf0000⟩,
  ⟨"TBC_ERR", 0xe000c, [(32768, 2)], 0x0, 0x0, 0x0, 0x0, 0x0, 0x0, 0x0, some 0xf0000⟩,
  ⟨"TBC_EVT", 0xe0010, [(32768, 2), (4, 6)], 0x0, 0x0, 0x0, 0x1, 0x0, 0x0, 0x0, some 0xf0000⟩,
  ⟨"TBC_RX_STATUS", 0xe0030, [(32768, 2)], 0x0, 0x0, 0x0, 0x0, 0x0, 0x0, 0x0, some 0xf0000⟩,
  ⟨"TBC_RX_POP", 0xe0034, [(32768, 2)], 0x0, 0x0, 0x0, 0x0, 0x0, 0xffffffff, 0x0, some 0xf0000⟩,
  ⟨"TBC_RX_HDR", 0xe0040, [(32768, 2)], 0x0, 0x0, 0x0, 0x0, 0x0, 0x0, 0x0, some 0xf0000⟩,
  ⟨"TBC_RX_INFO", 0xe0044, [(32768, 2)], 0x0, 0x0, 0x0, 0x0, 0x0, 0x0, 0x0, some 0xf0000⟩,
  ⟨"TBC_RX_DATA", 0xe0080, [(32768, 2), (4, 16)], 0x0, 0x0, 0x0, 0x0, 0x0, 0x0, 0x0, some 0xf0000⟩,
  ⟨"TBC_MB_CTRL", 0xe1000, [(32768, 2), (128, 64)], 0x0, 0x4000000, 0x0, 0x0, 0xc0000000, 0x0, 0x0, some 0xf0000⟩,
  ⟨"TBC_MB_ID", 0xe1004, [(32768, 2), (128, 64)], 0x0, 0x1fffffff, 0x0, 0x0, 0x0, 0x0, 0x0, some 0xf0000⟩,
  ⟨"TBC_MB_FLAGS", 0xe1008, [(32768, 2), (128, 64)], 0x0, 0xef, 0x0, 0x0, 0x0, 0x0, 0x0, some 0xf0000⟩,
  ⟨"TBC_MB_DATA", 0xe1040, [(32768, 2), (128, 64), (4, 16)], 0x0, 0xffffffff, 0x0, 0x0, 0x0, 0x0, 0x0, some 0xf0000⟩,
  ⟨"TBC_FILT_ID", 0xe4000, [(32768, 2), (8, 128)], 0x0, 0xdfffffff, 0x0, 0x0, 0x0, 0x0, 0x0, some 0xf0000⟩,
  ⟨"TBC_FILT_MASK", 0xe4004, [(32768, 2), (8, 128)], 0x0, 0x1fffffff, 0x0, 0x0, 0x0, 0x0, 0x0, some 0xf0000⟩,
  ⟨"TBC_LOCK", 0xf0000, [], 0x0, 0x0, 0x0, 0x0, 0x80000000, 0x0, 0x0, some 0xf0000⟩,
  ⟨"TBC_NODE", 0xf0004, [], 0x0, 0x0, 0x0, 0x0, 0x0, 0x0, 0x0, some 0xf0000⟩,
  ⟨"TBC_TIME_CFG", 0xf0008, [], 0xa000a, 0x0, 0xc0ffffff, 0x0, 0x0, 0x0, 0x0, some 0xf0000⟩,
  ⟨"TBC_TIME_SET_LO", 0xf000c, [], 0x0, 0x0, 0x0, 0x0, 0x0, 0xffffffff, 0x0, some 0xf0000⟩,
  ⟨"TBC_TIME_SET_HI", 0xf0010, [], 0x0, 0x0, 0x0, 0x0, 0x0, 0xffffffff, 0x0, some 0xf0000⟩,
  ⟨"TBC_NT_LO", 0xf0014, [], 0x0, 0x0, 0x0, 0x0, 0x0, 0x0, 0x0, some 0xf0000⟩,
  ⟨"TBC_NT_HI", 0xf0018, [], 0x0, 0x0, 0x0, 0x0, 0x0, 0x0, 0x0, some 0xf0000⟩,
  ⟨"TBC_TIME_STATUS", 0xf001c, [], 0x0, 0x0, 0x0, 0x0, 0x0, 0x0, 0x0, some 0xf0000⟩,
  ⟨"TBC_TIME_EVT", 0xf0020, [(4, 2)], 0x0, 0x0, 0x0, 0x1, 0x0, 0x0, 0x0, some 0xf0000⟩,
  ⟨"TBC_PEER", 0xf0030, [(4, 2)], 0xffffffff, 0x0, 0x0, 0x0, 0x0, 0x0, 0x0, some 0xf0000⟩]
/-- The register rows of the GHM block. -/
def regRowsGHM : List RegRow := [
  ⟨"GHM_STATUS", 0x20000, [], 0x1, 0x0, 0x0, 0x0, 0x0, 0x0, 0x0, none⟩,
  ⟨"GHM_IDENT", 0x20004, [], 0x0, 0x0, 0x0, 0x0, 0x0, 0x0, 0x0, none⟩,
  ⟨"GHM_SVN", 0x20008, [], 0x0, 0x0, 0x0, 0x0, 0x0, 0x0, 0x0, none⟩,
  ⟨"GHM_SVN_FLOOR", 0x2000c, [], 0x0, 0x0, 0x0, 0x0, 0x0, 0x0, 0x0, none⟩,
  ⟨"GHM_XMSS_REMAIN", 0x20010, [(4, 2)], 0x0, 0x0, 0x0, 0x0, 0x0, 0x0, 0x0, none⟩,
  ⟨"GHM_DEBUG", 0x20020, [], 0x0, 0x0, 0x0, 0x0, 0x0, 0x0, 0x0, none⟩,
  ⟨"GHM_EVT", 0x20040, [(4, 4)], 0x0, 0x0, 0x0, 0x1, 0x0, 0x0, 0x0, none⟩,
  ⟨"GHM_MBX_CTRL", 0x20100, [], 0x0, 0x1ff, 0x0, 0x0, 0x80000000, 0x0, 0x0, none⟩,
  ⟨"GHM_MBX_DATA", 0x20200, [(4, 64)], 0x0, 0xffffffff, 0x0, 0x0, 0x0, 0x0, 0x0, none⟩]
/-- The register rows of the CKP block. -/
def regRowsCKP : List RegRow := [
  ⟨"CKP_CTRL", 0x10000, [], 0x801, 0x0, 0xff01, 0x0, 0x80000000, 0x0, 0x0, some 0x10000⟩,
  ⟨"CKP_CLK_STATUS", 0x10004, [], 0x0, 0x0, 0x0, 0x0, 0x0, 0x0, 0x0, some 0x10000⟩,
  ⟨"CKP_CLK_COUNT", 0x10010, [(4, 5)], 0x0, 0x0, 0x0, 0x0, 0x0, 0x0, 0x0, some 0x10000⟩,
  ⟨"CKP_CLK_EVT", 0x10030, [(4, 5)], 0x0, 0x0, 0x0, 0x1, 0x0, 0x0, 0x0, some 0x10000⟩,
  ⟨"CKP_CLK_RETURN", 0x10050, [], 0x0, 0x0, 0x0, 0x0, 0x0, 0xffffffff, 0x0, some 0x10000⟩,
  ⟨"CKP_GATE", 0x10060, [], 0xfffff, 0xfffff, 0x0, 0x0, 0x0, 0x0, 0x0, some 0x10000⟩,
  ⟨"CKP_CLKOBS", 0x10064, [], 0x0, 0x81ffffff, 0x0, 0x0, 0x0, 0x0, 0x0, some 0x10000⟩,
  ⟨"CKP_VIN", 0x10070, [], 0x0, 0x0, 0x0, 0x0, 0x0, 0x0, 0x0, some 0x10000⟩,
  ⟨"CKP_VIN_CFG", 0x10074, [], 0x1b80190, 0x0, 0x3ff03ff, 0x0, 0x0, 0x0, 0x0, some 0x10000⟩,
  ⟨"CKP_VIN_EVT", 0x10078, [], 0x0, 0x0, 0x0, 0x1, 0x0, 0x0, 0x0, some 0x10000⟩,
  ⟨"CKP_RESET", 0x10080, [], 0x0, 0x0, 0x0, 0x0, 0x0, 0xffffffff, 0x0, some 0x10000⟩,
  ⟨"CKP_RESET_CAUSE", 0x10084, [], 0x0, 0x0, 0x0, 0x0, 0x0, 0x0, 0x0, some 0x10000⟩,
  ⟨"CKP_START", 0x10088, [], 0x2, 0x0, 0x0, 0x0, 0x0, 0x0, 0x0, some 0x10000⟩,
  ⟨"CKP_PIN", 0x1008c, [], 0x0, 0x0, 0x0, 0x0, 0x0, 0x0, 0x0, some 0x10000⟩]
/-- The register rows of the SUN block. -/
def regRowsSUN : List RegRow := [
  ⟨"SUN_CTRL", 0x40000, [], 0x3c, 0x10000, 0xff, 0x0, 0x80000000, 0x0, 0x0, some 0x40000⟩,
  ⟨"SUN_STATUS", 0x40004, [], 0x0, 0x0, 0x0, 0x0, 0x0, 0x0, 0x0, some 0x40000⟩,
  ⟨"SUN_SEQ", 0x40008, [], 0x0, 0x0, 0x0, 0x0, 0x0, 0x0, 0x0, some 0x40000⟩,
  ⟨"SUN_OPSEC_LO", 0x4000c, [], 0x0, 0x0, 0x0, 0x0, 0x0, 0x0, 0x0, some 0x40000⟩,
  ⟨"SUN_OPSEC_HI", 0x40010, [], 0x0, 0x0, 0x0, 0x0, 0x0, 0x0, 0x0, some 0x40000⟩,
  ⟨"SUN_PCYCLE", 0x40014, [], 0x0, 0x0, 0x0, 0x0, 0x0, 0x0, 0x0, some 0x40000⟩,
  ⟨"SUN_LOST", 0x40018, [], 0x0, 0x0, 0x0, 0x0, 0x0, 0x0, 0xffffffff, some 0x40000⟩,
  ⟨"SUN_TRIG_EN_LO", 0x40020, [], 0xffffffff, 0x0, 0xffffffff, 0x0, 0x0, 0x0, 0x0, some 0x40000⟩,
  ⟨"SUN_TRIG_EN_HI", 0x40024, [], 0xffffffff, 0x0, 0xffffffff, 0x0, 0x0, 0x0, 0x0, some 0x40000⟩,
  ⟨"SUN_SOFT", 0x40028, [], 0x0, 0x0, 0x0, 0x0, 0x0, 0xffffffff, 0x0, some 0x40000⟩,
  ⟨"SUN_PAIR_STATUS", 0x40040, [], 0x20, 0x0, 0x0, 0x0, 0x0, 0x0, 0x0, some 0x40000⟩,
  ⟨"SUN_PAIR_CTRL", 0x40044, [], 0x0, 0x0, 0x0, 0x0, 0xe0000000, 0x0, 0x0, some 0x40000⟩,
  ⟨"SUN_PAIR_CFG", 0x40048, [], 0x302, 0x0, 0xffff, 0x0, 0x0, 0x0, 0x0, some 0x40000⟩,
  ⟨"SUN_PAIR_EVT", 0x40050, [(4, 4)], 0x0, 0x0, 0x0, 0x1, 0x0, 0x0, 0x0, some 0x40000⟩,
  ⟨"SUN_HB_CFG", 0x40060, [], 0x800007d0, 0x0, 0x8000ffff, 0x0, 0x0, 0x0, 0x0, some 0x40000⟩,
  ⟨"SUN_HB_STATUS", 0x40064, [], 0x8000ffff, 0x0, 0x0, 0x0, 0x0, 0x0, 0x0, some 0x40000⟩,
  ⟨"SUN_HB_EVT", 0x40068, [(4, 2)], 0x0, 0x0, 0x0, 0x1, 0x0, 0x0, 0x0, some 0x40000⟩,
  ⟨"SUN_HEALTH", 0x40070, [(4, 4)], 0x0, 0x0, 0x0, 0x0, 0x0, 0x0, 0x0, some 0x40000⟩,
  ⟨"SUN_SELFTEST", 0x40080, [], 0x0, 0x0, 0x0, 0x0, 0x0, 0x0, 0x0, some 0x40000⟩,
  ⟨"SUN_SELFTEST_EVT", 0x40084, [], 0x0, 0x0, 0x0, 0x1, 0x0, 0x0, 0x0, some 0x40000⟩,
  ⟨"SUN_TRIG_CFG", 0x40200, [(4, 64)], 0xa, 0x0, 0xb000ffff, 0x0, 0x0, 0x0, 0x0, some 0x40000⟩,
  ⟨"SUN_LIST", 0x40400, [(192, 4), (4, 48)], 0x0, 0x0, 0x83fffffc, 0x0, 0x0, 0x0, 0x0, some 0x40000⟩,
  ⟨"SUN_LIST_GEN", 0x40700, [(4, 4)], 0x0, 0x0, 0x0, 0x0, 0x0, 0x0, 0x0, some 0x40000⟩,
  ⟨"SUN_RD_SEQ", 0x40800, [], 0x0, 0xffffffff, 0x0, 0x0, 0x0, 0x0, 0x0, some 0x40000⟩,
  ⟨"SUN_RD_STATUS", 0x40804, [], 0x0, 0x0, 0x0, 0x0, 0x0, 0x0, 0x0, some 0x40000⟩,
  ⟨"SUN_RD_DATA", 0x40900, [(4, 64)], 0x0, 0x0, 0x0, 0x0, 0x0, 0x0, 0x0, some 0x40000⟩]
/-- All register rows. -/
def regRows : List RegRow :=
  regRowsPAV ++ regRowsCIS ++ regRowsMEM ++ regRowsKDV ++ regRowsGLB ++ regRowsDBP ++ regRowsQCT ++ regRowsALT ++ regRowsTRL ++ regRowsORG ++ regRowsVDR ++ regRowsTBC ++ regRowsGHM ++ regRowsCKP ++ regRowsSUN

/-- The row of the register at an offset, if a register lies there (R16, R688). -/
def regRowAt (off : Nat) : Option RegRow := regRows.find? (fun x => x.holds off)

end Sys2Proof.Machine
end

