-- ==== Sys2Proof/Machine/State.lean ====
section
/-! DEFINITION. The state of the block: everything the manual gives the module, as plain data, and the queue of
commands that wait. Registers that software writes or that hold counts stand in `Dev.regs`; a register that mirrors
other state (an allotment map, a queue state, a Pavilion status) has its home in the structure it mirrors and is
computed when read (Machine/Regs.lean). -/

namespace Sys2Proof.Machine

/-! ### Pavilions (chapter 3) -/

/-- A bed descriptor register (Table 3-7, reserved bits left out). -/
structure BedDesc where
  scaled : BitVec 1
  fmt : BitVec 4
  base : BitVec 22
  scaleBase : BitVec 22
  ext0 : BitVec 16
  ext1 : BitVec 16
  ext2 : BitVec 16
  ext3 : BitVec 16
  stride1 : Word32
  stride2 : Word32
  stride3 : Word32
  deriving DecidableEq, Repr

/-- The descriptor with every field 0 (Table 3-2). -/
def BedDesc.zero : BedDesc := ⟨0, 0, 0, 0, 0, 0, 0, 0, 0, 0, 0⟩

/-- A filled accumulator slot: operand pair with scaled marks, kind, shape and cells in order i × N + j (R145, R146). -/
structure Slot where
  fa : Fmt
  sa : Bool
  fb : Fmt
  sb : Bool
  kind : AccKind
  m : Nat
  n : Nat
  cells : Tab Cell
  deriving DecidableEq, Repr

/-- The states of a Pavilion (Table 3-20). -/
inductive PavSt where
  | unbound | boundIdle | running | stalled | quiesced | faulted | clearing | withdrawn
  deriving DecidableEq, Repr

/-- What the steward waits for. -/
inductive Block where
  | ewait (evn : Nat) (val : Word32)
  | fence
  | ending
  | signal (id : Nat)
  deriving DecidableEq, Repr

/-- A contribution packet (Table 4-4) with its payload (Table 4-5). `blk` is the block index as addressed. -/
structure Packet where
  srcModule : BitVec 16
  scaled : Bool
  fmtB : Nat
  fmtA : Nat
  kind : Nat
  group : Word32
  part : Word32
  blk : Nat
  queue : Nat
  seq : Nat
  nanmask : Word64
  payload : Bytes
  deriving DecidableEq, Repr

/-- The kind of an outstanding transfer or signal. -/
inductive XferKind where
  | mld | mst | csend | rsend | esig
  deriving DecidableEq, Repr

/-- An outstanding data-movement instruction or signal of a share, with what it reported its source held. -/
structure Xfer where
  id : Nat
  kind : XferKind
  pc : BitVec 22
  word : Word64
  desc : BedDesc
  ma : Nat
  len : Nat
  data : Bytes
  ev : Bool
  evn : BitVec 6
  count : Word32
  dstMod : Nat
  dstPav : Nat
  bedAddr : BitVec 22
  ord : Nat
  landOrd : Nat
  pkts : Tab Packet
  pkSent : List Nat
  landed : Bool
  sent : Bool
  retried : Bool
  deriving DecidableEq, Repr

/-- A held event-bearing message (R173, R174). `own` names the sending descriptor for messages of this module (R363); `byLand` marks an ordinal that is a landing ordinal
(a BED_DATA frame carries no other, Table 9-6). -/
structure EvMsg where
  group : Word32
  srcMod : BitVec 16
  src : Nat
  ord : Nat
  byLand : Bool
  evn : BitVec 6
  count : Word32
  own : Option (Nat × Nat)
  deriving DecidableEq, Repr

/-- The highest event ordinal and landing ordinal counted from one source Pavilion, and the highest landing ordinal whose
event was counted (R173, R360). -/
structure SrcMark where
  srcMod : BitVec 16
  src : Nat
  evOrd : Nat
  evLand : Nat
  landOrd : Nat
  deriving DecidableEq, Repr

/-- The event-bearing messages and RSENDs sent to one destination Pavilion within the share (R171, R360). -/
structure DstMark where
  dstMod : Nat
  dstPav : Nat
  ord : Nat
  landOrd : Nat
  deriving DecidableEq, Repr

/-- The share a Pavilion runs: its descriptor and the special registers of Table 3-6. -/
structure Share where
  q : Nat
  seq : Nat
  rank : Nat
  nshare : Nat
  lpav : Nat
  args : BitVec 22
  code : BitVec 22
  codeLen : Nat
  argsLen : Nat
  seed : Word64
  lmod : Nat
  nmod : Nat
  group : Word32
  deriving DecidableEq, Repr

/-- The latest phase-begin HINT of a Pavilion (R179, R500): power in 1/64 W, the clock at its end and at its arrival. -/
structure PhaseHint where
  power : Nat
  stop : Nat
  since : Nat
  deriving DecidableEq, Repr

/-- The descriptor hint of a running share (R500): mJ, us, shares, and the clock at the share's start. -/
structure DescHint where
  mJ : Nat
  us : Nat
  nshare : Nat
  since : Nat
  deriving DecidableEq, Repr

/-- A Pavilion (Table 3-1) and its governor. `runUs` is the share's running time in us (R190); `freq` is the island frequency in MHz
and `rail` the frequency whose voltage of the factory table the supply rail carries (R28, R50, R181); `newLease` holds from the BIND of
the Pavilion to its first lease (R404). -/
structure Pav where
  allot : Nat
  logical : Option Nat
  spare : Bool
  withdrawn : Bool
  clearing : Bool
  share : Option Share
  faulted : Bool
  stopped : Bool
  halted : Bool
  pc : Word64
  s : Tab Word64
  d : Tab BedDesc
  v : Tab Word32
  ibase : Word64
  slot0 : Option Slot
  slot1 : Option Slot
  ev : Tab Word32
  flags : Flags
  bed : Tab Byte
  block : Option Block
  xfers : List Xfer
  nextId : Nat
  srcs : List SrcMark
  dsts : List DstMark
  pend : List EvMsg
  lastGroup : Option Word32
  rxSame : Bool
  rxOther : Bool
  deferred : Option (FaultCode × BitVec 22 × Word64)
  phaseHint : Option PhaseHint
  descHint : Option DescHint
  runUs : Nat
  settling : Bool
  freq : Nat
  rail : Nat
  lease : Nat
  leaseEnd : Nat
  newLease : Bool
  deriving DecidableEq, Repr

/-! ### Cisterns (chapter 4) -/

/-- Ledger block states (Table 4-3). -/
inductive BlkSt where
  | idle | arming | armed | posting | posted | committed | faulted | clearing
  deriving DecidableEq, Repr

/-- A target record (Table 4-2). -/
structure Target where
  kind : Nat
  ev : Bool
  evn : BitVec 6
  module : Nat
  pav : Nat
  addr : Word64
  deriving DecidableEq, Repr

/-- The parameters a block records at its arming (Table 4-1), with the block's place i in the REDUCE. -/
structure ArmParams where
  gather : Bool
  i : Nat
  nb : Nat
  expect : Nat
  partBase : Word32
  fmt : Nat
  scaled : Bool
  rmode : Nat
  seed : Word64
  ibase : Word64
  targets : List Target
  q : Nat
  seq : Nat
  deriving DecidableEq, Repr

/-- One ledger: its integer (R78) and its NaN bit (R81). -/
structure Ledger where
  v : Int
  nan : Bool
  deriving DecidableEq, Repr

/-- A ledger block. `sendOut` counts the unacknowledged remote messages of each post, `evLeft` holds the messages with a post's event that
are not sent yet (post, offset from ADDR, bytes), `evOut` the posts whose event is sent and not acknowledged (R171), `waiters` the REDUCEs (queue, sequence, i) that wait on the block in the order they began (R201). -/
structure CisBlk where
  allot : Nat
  st : BlkSt
  fresh : Bool
  group : Word32
  count : Nat
  params : Option ArmParams
  ledgers : Tab Ledger
  arrived : Tab Bool
  flags : Flags
  postLeft : List Nat
  out : Bytes
  dataDone : List Nat
  sendOut : Tab Nat
  evLeft : List (Nat × Nat × Bytes)
  evOut : List Nat
  waiters : List (Nat × Nat × Nat)
  deriving DecidableEq, Repr

/-- Event-bearing posts of one Cistern to one destination Pavilion in one group (R171, R216). -/
structure CisMark where
  allot : Nat
  cistern : Nat
  dstMod : Nat
  dstPav : Nat
  group : Word32
  ord : Nat
  deriving DecidableEq, Repr

/-! ### Memory (chapter 5) -/

/-- Package states (Table 5-3). -/
inductive PkgSt where
  | good | failed | retired | rebuilding
  deriving DecidableEq, Repr

/-- A package: state, reason, rebuild cursor, corrected symbols in the current window. -/
structure Pkg where
  st : PkgSt
  reason : Nat
  cursor : Nat
  window : Nat
  recorded : Bool
  opsec : Nat
  deriving DecidableEq, Repr

/-- Who makes an access: the host, MEMORY_READ or MEMORY_WRITE, a line that the host writes back, the JTAG port, an outstanding transfer
of a Pavilion, the start of a share (code or arguments), a COPY or SEND (read or write), a frame of a message, a piece of a post. -/
inductive MemUser where
  | host | port | line | jtag
  | xfer (p id : Nat)
  | start (p q seq part : Nat)
  | exec (q seq part : Nat)
  | frame (src msg off : Nat)
  | post (b piece : Nat)
  deriving DecidableEq, Repr

/-- What an access gives: it waits, it is uncorrectable (a write: dropped), or it is done, a read with its bytes. -/
inductive RdRes where
  | wait | bad | ok (bs : Bytes)
  deriving DecidableEq, Repr

/-- An access that waits for a fill, an owe or a relock (R262, R264, R617); `late` owes of its plots were requested before it arrived. -/
inductive MemAcc where
  | write (ma : Nat) (data : Bytes) (poison : Bool) (user : MemUser) (late : Nat)
  | read (ma : Nat) (len : Nat) (user : MemUser) (late : Nat)
  deriving DecidableEq, Repr

/-- The phases of owing a plot (Table 5-4). -/
inductive OwePh where
  | drain | backInv | set
  deriving DecidableEq, Repr

/-- The memory controller. `raw` holds the bytes of the twenty packages' bursts: byte i of package k's burst of stripe
S at key 640 S + 32 k + i. `clean` lists the granules whose map bit is 0. `results` holds what accesses gave whose user has not taken
it yet. -/
structure Mem where
  raw : Tab Byte
  clean : Tab Bool
  filling : List Nat
  waiting : List MemAcc
  results : List (MemUser × RdRes)
  owing : List (Nat × OwePh)
  poison : Tab Bool
  lost : Tab Bool
  pkgs : Tab Pkg
  health : Nat
  trained : Bool
  clearCursor : Nat
  deriving DecidableEq, Repr

/-! ### Host port (chapter 6) -/

/-- A committed or failed HDM decoder. -/
structure Hdm where
  req : HdmReq
  dpaBase : Nat
  committed : Bool
  err : Bool
  deriving DecidableEq, Repr

/-- An MSI-X table entry. -/
structure Msix where
  addr : Word64
  data : Word32
  masked : Bool
  pending : Bool
  deriving DecidableEq, Repr

/-- Link modes the host port trained at (Table 6-1). -/
inductive HpMode where
  | none | flit68 | flit256 | pcie
  deriving DecidableEq, Repr

/-- An IDE stream (R315): the key it was given, whether it is in use, and in skid mode. -/
structure IdeStream where
  key : Option Bytes
  on : Bool
  skid : Bool
  deriving DecidableEq, Repr

/-- A host access that has not completed (R308, R313): the completion record of a descriptor, the read of a doorbell line, the data
written by a COPY, the header line. -/
inductive HostWait where
  | record (q seq : Nat)
  | line (q : Nat)
  | data (q seq : Nat)
  | header (q : Nat)
  deriving DecidableEq, Repr

/-- An ATS invalidation that has not completed: function, tag, and the accesses it waits for (R313). -/
structure AtsInval where
  fn : Nat
  tag : Nat
  waits : List HostWait
  deriving DecidableEq, Repr

/-- A translation that ATS gave (R312): function, PASID, page, and the page it stands for. -/
structure Translation where
  fn : Nat
  pasid : Option (BitVec 20)
  page : Nat
  frame : Nat
  deriving DecidableEq, Repr

/-- The host port. `cfg` holds what software wrote to configuration space, keyed 4096 fn + offset; `comp` the component and `devr` the
device registers of PF BAR2 (R291); `io` and `cm` are the IDE streams of CXL.io and CXL.cachemem; `aerUe` and `aerCe` the internal
errors that AER has recorded (R317, R324); `atc` the translations held (R312); `writes` the data
and header writes not yet globally observed. -/
structure HostPort where
  perst : Bool
  ready : Bool
  memActive : Bool
  mode : HpMode
  d3hot : Bool
  io : IdeStream
  cm : IdeStream
  cfg : Tab Word32
  comp : Tab Word32
  devr : Tab Word32
  hdm : Tab (Option Hdm)
  biEnable : Bool
  held : Tab Bool
  msix : Tab Msix
  vfEnable : Bool
  aerUe : Bool
  aerCe : Bool
  atc : List Translation
  writes : List HostWait
  inval : List AtsInval
  deriving DecidableEq, Repr

/-! ### Queue engine (chapter 7) -/

/-- Queue states (Table 7-16). -/
inductive Qst where
  | disabled | arming | running | paused | held | clearing | error
  deriving DecidableEq, Repr

/-- Arm phases (Table 7-18): after the arm is written, after the header read, after the scan. -/
inductive ArmPh where
  | header | scan | heldRecords
  deriving DecidableEq, Repr

/-- A completion record (Table 7-12). -/
structure Record where
  seq : Nat
  status : Nat
  flags : Flags
  fault : Nat
  lpav : Nat
  pc : Nat
  energy : Nat
  tag : Word64
  irq : Bool
  deriving DecidableEq, Repr

/-- How far a named share of a KERNEL is. -/
inductive ShareSt where
  | waiting | running | ended | stopped
  deriving DecidableEq, Repr

/-- The phases of a gang replay at a member (Table 7-15). -/
inductive GangPh where
  | none | stop | drain | ready
  deriving DecidableEq, Repr

/-- A contribution a descriptor made: module index, allotment-relative block, group; and whether that block is known
committed (R220, R221). -/
structure ContribMark where
  module : Nat
  blk : Nat
  phys : Option Nat
  group : Word32
  done : Bool
  deriving DecidableEq, Repr

/-- The execution of an accepted descriptor that has not committed; `redo` when it is executed again after its state was lost
(R382). -/
structure Exec where
  seq : Nat
  data : BitVec 1024
  started : Bool
  complete : Bool
  issued : Bool
  status : Nat
  flags : Flags
  fault : Nat
  faultRank : Option Nat
  lpav : Nat
  pc : Nat
  energy : Nat
  replayed : Bool
  shares : List (Nat × ShareSt)
  contribs : List ContribMark
  gangDone : Bool
  gangPh : GangPh
  sendLeft : Bool
  ord : Nat
  rxOther : Bool
  rearm : Bool
  redo : Bool
  deriving DecidableEq, Repr

/-- A descriptor in the queue store: sequence, bytes, and its place in the order of acceptance across queues (R344, R372). -/
structure Accepted where
  seq : Nat
  data : BitVec 1024
  ord : Nat
  deriving DecidableEq, Repr

/-- A queue: context, cursors, the values last delivered by its MMIO doorbell page; in the queue store, the accepted descriptors that
have not committed and the held records (R372); the executions; during an arm, the header's COMMIT and whether its identity differs
(R379); the sequences to execute again; the commits since the header line was written (R335). -/
structure Queue where
  st : Qst
  reason : Nat
  allot : Nat
  lqueue : Nat
  accept : Nat
  c : Nat
  producer : Nat
  cqHead : Nat
  dbProducer : Word64
  dbCqHead : Word64
  useLine : Bool
  lineArmed : Bool
  read : List (Nat × BitVec 1024)
  acc : List Accepted
  execs : List Exec
  held : List Record
  arm : Option ArmPh
  armAccept : Nat
  armCommit : Nat
  armStale : Bool
  hdrId : Word32 × Word32
  armHeld : Bool
  redo : List Nat
  sinceHdr : Nat
  disableReq : Bool
  released : Bool
  deriving DecidableEq, Repr

/-! ### Allotments (chapter 8) -/

/-- Allotment states (Table 8-2). -/
inductive AltSt where
  | unbound | bound | clearing
  deriving DecidableEq, Repr

/-- A key slot: epoch, Gatehouse handle, write counter (R419, R423). -/
structure KeySlot where
  epoch : BitVec 2
  handle : Word32
  counter : Nat
  deriving DecidableEq, Repr

/-- The dedup window for SENDs of one source queue (R361): highest sequence applied and the bits set below it. -/
structure SendWin where
  srcMod : BitVec 16
  queue : Nat
  high : Nat
  bits : List Nat
  deriving DecidableEq, Repr

/-- The home's record of a gang (R365, R368). -/
structure Gang where
  group : Word32
  size : Nat
  done : List (BitVec 16 × Nat × Nat)
  ready : List (BitVec 16 × Nat × Nat)
  complete : Bool
  deriving DecidableEq, Repr

/-- An allotment table entry. Bound plots carry their HOST bit; `lastUnbind` holds the sequence and the list of every UNBIND that has
released and whose record may not have landed (R405). -/
structure Allot where
  st : AltSt
  serial : Word32
  token : Word64
  pavs : Tab (Option Nat)
  plots : Tab (Option (Nat × Bool))
  blocks : Tab (Option Nat)
  queues : Tab (Option Nat)
  vecs : List Nat
  shares : Tab Nat
  modules : List (BitVec 16)
  protBase : Word64
  tagBase : Word64
  protPages : Word32
  slot0 : Option KeySlot
  slot1 : Option KeySlot
  wepoch : BitVec 2
  wins : List SendWin
  gangs : List Gang
  replays : List Word32
  lastUnbind : List (Nat × List Word64)
  deriving DecidableEq, Repr

/-- A key of the Gatehouse key store (R598 to R601): handle, token, the 32-byte key, whether installed, the clock at its delivery. -/
structure KeyEntry where
  handle : Word32
  token : Word64
  key : BitVec 256
  installed : Bool
  since : Nat
  deriving DecidableEq, Repr

/-- The UNBIND or CLEAR that runs (Table 8-5): what it names, what has been cleared, which phases have ended. -/
structure ClearOp where
  allot : Nat
  seq : Nat
  unbind : Bool
  whole : Bool
  stopDone : Bool
  revokeDone : Bool
  relDone : Bool
  named : List (ResKind × Nat)
  todo : List (ResKind × Nat)
  shareCut : List (Nat × Nat)
  list : List Word64
  deriving DecidableEq, Repr

/-! ### Trellis (chapter 9) -/

/-- Port states (Table 9-16). -/
inductive PortSt where
  | disabled | detect | equalise | fecLock | exchange | active | retrain | failed | mismatch | noId | conflict | down
  deriving DecidableEq, Repr

/-- A byte that goes out on a link; the first byte of a frame carries the frame's virtual channel, TV1 or TV0 (R440, R442). -/
abbrev TxByte := Byte × Option Bool

/-- A Trellis port: state, peer, lanes, whether it has narrowed to ×2 (R438), link sequence numbers, the acknowledgement last sent,
replay buffer, frames queued, link flits that allotments owe of their next periods (R459; key 0 for frames of no allotment), bytes
packed for the next link flit, bytes of a frame received in part and its channel (R440), and for each virtual channel the credits it has and those it owes its peer (R442). -/
structure Port where
  st : PortSt
  peerId : BitVec 16
  peerPort : BitVec 5
  lanes : BitVec 4
  tryLanes : BitVec 4
  narrowed : Bool
  away : Bool
  rxSeq : BitVec 16
  txSeq : BitVec 16
  ackSent : BitVec 16
  replay : List Flit
  replayTries : Nat
  nakAt : Option (BitVec 16)
  queue : List (Nat × Frame × Bool)
  debt : Tab Nat
  tail : List TxByte
  rx : Bytes
  rxTv : Bool
  cred0 : Nat
  cred1 : Nat
  owed0 : Nat
  owed1 : Nat
  deriving DecidableEq, Repr

/-- Where a message of a send stream came from; a transfer or packet carries the queue and sequence of its share's descriptor. -/
inductive Origin where
  | xfer (q : Nat) (sq : Nat) (p : Nat) (id : Nat)
  | packet (q : Nat) (sq : Nat) (p : Nat) (id : Nat) (k : Nat)
  | post (b : Nat) (tgt : Nat) (g : Word32)
  | postEv (b : Nat) (tgt : Nat) (g : Word32)
  | send (q : Nat) (seq : Nat)
  | control
  | reply
  deriving DecidableEq, Repr

/-- A send stream (R446 to R452): the frames not acknowledged, those that wait for its window, its messages without an outcome, and,
before it is open, the messages that wait for it. -/
structure SendStream where
  nonce : Word32
  isOpen : Bool
  full : Bool
  nextSeq : Word32
  nextMsg : Word32
  unack : List Frame
  left : List Frame
  msgs : List (Word32 × Origin × List Frame)
  backlog : List (List Frame × Origin)
  lastSent : Nat
  deriving DecidableEq, Repr

/-- A receive stream: nonce, EXPECT, frames accepted since the last ACK, and decisions of multi-frame messages. -/
structure RecvStream where
  nonce : Word32
  expect : Word32
  sinceAck : Nat
  decided : List (Word32 × Outcome8)
  parts : List (Word32 × Bytes)
  nakAt : Option Nat
  deriving DecidableEq, Repr

/-- The Trellis router: ports, streams, accepted frames not yet applied, messages that wait for a stream (R447); messages
of posts and SENDs refused with retry and those held behind them, each marked when it was refused itself (R208, R454, R455), the refused
ones sent again and not acknowledged; and the messages without an outcome of streams that were closed as idle (R446, R447). -/
structure Trl where
  ports : Tab Port
  send : Tab (Option SendStream)
  recv : Tab (Option RecvStream)
  inbox : List Frame
  lastNonce : Tab Word32
  waiting : List (BitVec 16 × List Frame × Origin)
  resend : List (BitVec 16 × List Frame × Origin × Bool)
  retried : List (BitVec 16 × List Frame × Origin)
  orphans : List (BitVec 16 × Word32 × Origin × List Frame)
  dead : List Nat
  deriving DecidableEq, Repr

/-! ### Valve drive (chapter 11) -/

/-- Channel states (Table 11-8). -/
inductive ChSt where
  | idle | run | defer | tripped | lockout | openLoad | fault
  deriving DecidableEq, Repr

/-- Channel phases (Table 11-4). -/
inductive ChPhase where
  | none | boost | hold | release
  deriving DecidableEq, Repr

/-- Channel commands (Table 11-3). -/
inductive ChCmd where
  | start (level : Nat) | level (level : Nat) | stop
  deriving DecidableEq, Repr

/-- What a channel's target follows: nothing, a fixed current, a multiple of the level, or a ramp to one. -/
inductive Tgt where
  | none | fixed (ma : Nat) | mul (m : Nat) | ramp (start : Nat) (m : Nat) (us : Nat) (since : Nat)
  deriving DecidableEq, Repr

/-- What a channel waits for at its instruction. -/
inductive ChWait where
  | time (until_ : Nat) | current (until_ : Nat) | ramp (until_ : Nat) | hold
  deriving DecidableEq, Repr

/-- A pending check of a valve's movement (R546, R547): closing or opening, the reading before, spoiled by another zone, and when it
began. -/
structure Verify where
  closing : Bool
  base : Int
  spoiled : Bool
  since : Nat
  deriving DecidableEq, Repr

/-- A channel of the valve drive. Times are values of the block's clock. `lastStart` is when the Orangery last sent START;
`cycles` is VDR_CH_CYCLES. -/
structure Chan where
  st : ChSt
  phase : ChPhase
  pc : Nat
  level : Nat
  target : Nat
  src : Tgt
  pwm : Nat
  current : Nat
  wait : Option ChWait
  cmd : Option ChCmd
  deferSince : Option Nat
  boostSince : Option Nat
  lastStart : Option Nat
  tripAt : Option Nat
  offPass : Nat
  suspect : Bool
  fails : Nat
  oks : Nat
  verify : Option Verify
  cycles : Nat
  saved : Nat
  deriving DecidableEq, Repr

/-- The valve drive: channels, the force of an always-on reset, the rail, and the command watchdog: when the latest command of the
Orangery arrived, nothing once the watchdog has acted (R529). -/
structure Vdr where
  chans : Tab Chan
  lastCmd : Option Nat
  resetForce : Bool
  railUv : Bool
  railMv : Nat
  deriving DecidableEq, Repr

/-! ### Orangery (chapter 10) -/

/-- A sensor: its reading, marks, and the counts of R479. `seen` holds once a conversion has arrived. -/
structure Sensor where
  seen : Bool
  value : Nat
  isOpen : Bool
  excl : Bool
  suspect : Bool
  low : Nat
  below : Nat
  good : Nat
  deriving DecidableEq, Repr

/-- A sensor pair, keyed by its lower index: flag and the counts of R477. -/
structure SPair where
  flag : Bool
  dis : Nat
  agr : Nat
  deriving DecidableEq, Repr

/-- What a zone loop keeps beside its registers: whether it was enabled, in automatic mode and held at its latest sample,
its following error, and the opening last commanded. -/
structure Zone where
  on : Bool
  auto : Bool
  wasHeld : Bool
  fe : Bool
  opening : Nat
  deriving DecidableEq, Repr

/-- What the Orangery keeps for a Pavilion, in 1/16 W: thermal limit T_p, limit L_p, demand D_p, metered power M_p. -/
structure OrgPav where
  tlim : Nat
  limit : Nat
  demand : Nat
  meter : Nat
  pairCap : Bool
  deriving DecidableEq, Repr

/-- The Orangery. `higher` holds the grants that wait for HIGHER_GRANTS; `ceil` is the ceiling C of the latest lease period in 1/1,024 W,
`budget` its budget B in 1/16 W, `lowAt` when a lower grant was last sent; `hazQuiesce` is a cause of R52;
`pReq` is P_req of R493 in 1/16 W, `predAt` when PRED_FAULT was last raised,
`relAt` when the clamp was last released, `pkgTemp` the readings of MR4_TEMPERATURE_READ;
`model` and `nextModel` are the predictor's loaded and accepted blobs, `run` the outputs of a run that has not completed,
`ready` those that wait for the next sample, `out` those in effect, `past` earlier 1 s forecasts with their time. -/
structure Org where
  sensors : Tab Sensor
  pairs : Tab SPair
  zones : Tab Zone
  pavs : Tab OrgPav
  higher : List (Nat × Nat)
  flowHist : List Nat
  flowLow : Nat
  flowFe : Bool
  flowOk : Option Nat
  lastWet : Option Nat
  leakAck : Bool
  warn : Nat
  hazQuiesce : Bool
  kwLoad : List Nat
  model : Option Bytes
  nextModel : Option Bytes
  run : Option (List Nat)
  ready : Option (List Nat)
  out : Option (List Nat)
  past : List (Nat × List Nat)
  raised : Nat
  ceil : Nat
  budget : Nat
  lowAt : Option Nat
  flowSent : Nat
  pReq : Nat
  capSent : Nat
  flowSentAt : Nat
  predAt : Option Nat
  relAt : Option Nat
  pkgTemp : Tab (BitVec 16)
  isoSeq : Option (Byte × Byte)
  deriving DecidableEq, Repr

/-- The heartbeat watchdog: the clock at the last edge and the edges of the present run (R661). -/
structure Hb where
  last : Option Nat
  run : Nat
  deriving DecidableEq, Repr

/-! ### Thermal bus (chapter 12) -/

/-- A controller: the mailbox on the bus with its frame, mailboxes updated meanwhile (R559), the receive FIFO with the filter
that took each frame, whether recovery from bus-off runs, and the µs left of the 11 recessive bits before a frame may start (R556). Mailbox contents and states stand in their registers. -/
structure Can where
  onBus : Option (Nat × CanFrame)
  again : List Nat
  fifo : List (CanFrame × Nat)
  recovering : Bool
  quiet : Nat
  deriving DecidableEq, Repr

/-- The network time line: NT is `t` at local count `l`, with rate `num / den`; `slew` is the difference still taken up and the
count at which it was taken (R575, R576). -/
structure TimeLine where
  t : Nat
  l : Nat
  num : Nat
  den : Nat
  slew : Int
  slewAt : Nat
  deriving DecidableEq, Repr

/-- The time service (R574 to R577): CYCLE and sync mark of the latest TIME_REF, the latest pair and its time, the running line, the master's
base (NT and local count at TIME_SET), CYCLE of the next TIME_REF sent, the sync mark of the one on the bus and of the previous one. -/
structure TimeSvc where
  last : Option (BitVec 8 × Nat)
  pair : Option (Nat × Nat)
  pairAt : Option Nat
  line : Option TimeLine
  valid : Bool
  setNt : Nat
  setAt : Nat
  cycle : BitVec 8
  sofAt : Option Nat
  sentAt : Option Nat
  ntHi : Nat
  peers : Tab (Option Nat)
  deriving DecidableEq, Repr

/-! ### Gatehouse (chapter 13) -/

/-- A journal record (Table 13-6). -/
structure JRec where
  seq : Nat
  key : Nat
  kind : Nat
  value : Nat
  keyHash : BitVec 256
  check : BitVec 128
  deriving DecidableEq, Repr

/-- The staging session (R604, R605): owner, KIND, total length, staged bytes, clock at the latest staging command. -/
structure Staging where
  owner : Mbx
  kind : Nat
  total : Nat
  data : Tab Byte
  since : Nat
  deriving DecidableEq, Repr

/-- What an SPDM requester has negotiated over one transport: version, its greatest message, whether algorithms are agreed and
whether the hash is SHA3-384; and a response that goes out in chunks. -/
structure SpdmConn where
  version : Option Nat
  xfer : Option Nat
  sha3 : Option Bool
  large : Option (Nat × Nat × Bytes)
  deriving DecidableEq, Repr

/-- A session: identifier, transport, whether FINISH has completed it, the secret of its key exchange, the keys in force for requests and
responses, and the number of the next sealed response (R594). -/
structure SpdmSession where
  id : Nat
  tr : SpdmTr
  open_ : Bool
  secret : Bytes
  reqKey : BitVec 256
  rspKey : BitVec 256
  rspSeq : Nat
  deriving DecidableEq, Repr

/-- The attestation key: the random draw it was generated from, its next index, and the index of the identity key that
certifies it (R588). -/
structure AttestKey where
  draw : Nat
  next : Nat
  cert : Nat
  deriving DecidableEq, Repr

/-- What trace has seen of a Pavilion (R609): the queue and sequence of its share, whether it stalls, its count of faults and its lease. -/
structure TracePav where
  run : Option (Nat × Nat)
  stalled : Bool
  faults : Nat
  lease : Nat
  deriving DecidableEq, Repr

/-- The Gatehouse. `ds` is the device secret once it is reconstructed (R584). `phase` is GHM_STATUS.PHASE; `image`, `config`, `owner`, `journal` stand in flash, `run` is the header of the
running image, `conf` the configuration applied; `ident` is the next index of the identity key, `attest` the attestation key, `signing` whether signature requests are served, `wait` the mailboxes whose GO waits; `journal` is the
flash sector in use (R591); `tracePavs` and `traceHaz` are what trace has seen of Pavilions and hazards. -/
structure Gate where
  phase : Nat
  up : Bool
  ds : Option (BitVec 256)
  image : Option Bytes
  run : Option Bytes
  config : Option Bytes
  conf : Option Bytes
  owner : Option Bytes
  journal : List JRec
  ident : Nat
  attest : Option AttestKey
  signing : Bool
  staging : Option Staging
  wait : List Mbx
  i3cConn : SpdmConn
  doeConn : SpdmConn
  sessions : List SpdmSession
  nextSess : Nat
  i3c : Option (BitVec 7)
  traceBase : Word64
  traceSize : Nat
  traceIx : Nat
  tracePavs : Tab TracePav
  traceHaz : Nat
  deriving DecidableEq, Repr

/-! ### Clocks, supply and start (chapter 14) -/

/-- The clocks: consecutive good windows and the clock of the latest bad window of each source, domains whose islands have not
relocked (R617), domains without a clock (R620), closed gates (bits of CKP_GATE), and the CKP_CLKOBS in effect (R626). -/
structure Clk where
  good : Tab Nat
  bad : Tab (Option Nat)
  pend : Option Nat
  relock : List Nat
  dead : List Nat
  gated : List Nat
  obs : Word32
  deriving DecidableEq, Repr

/-- The supply: phases of the hold-up that have ended, PWRGOOD, and the branches of Table 1-5 that are powered. -/
structure Supply where
  holdup : Option Nat
  pwrgood : Bool
  alwaysOn : Bool
  valve : Bool
  link : Bool
  memory : Bool
  compute : Bool
  deriving DecidableEq, Repr

/-- A start (Table 14-6): its reset kind as CKP_RESET_CAUSE gives it, whether it runs, the phases that have ended, whether a
reason has been recorded for it (R640), and the clock at the end of Always-on up. -/
structure Start where
  kind : Nat
  running : Bool
  qualified : Bool
  alwaysOn : Bool
  selfTest : Bool
  released : Bool
  trained : Bool
  keys : Bool
  compute : Bool
  recorded : Bool
  upAt : Option Nat
  deriving DecidableEq, Repr

/-! ### The core pair and the Sundial (chapter 15) -/

/-- What the Gatehouse keeps of a core: missed heartbeats, times of its declarations, whether debug halts it. -/
structure CoreRec where
  miss : Nat
  fails : List Nat
  halt : Bool
  deriving DecidableEq, Repr

/-- The core pair: the two cores, consecutive mismatches, whether the known-answer test is due, matching records and restarts of
a SYNCING core, whether its copy is made, a swap requested for the next sample, the core that takes over, and whether the
active core has failed a test. -/
structure Pair where
  a : CoreRec
  b : CoreRec
  mism : Nat
  testDue : Bool
  matches_ : Nat
  restarts : Nat
  copied : Bool
  swap : Bool
  takeOver : Option Nat
  actFail : Bool
  deriving DecidableEq, Repr

/-- A trigger that has fired and whose record is not made yet: number and CONTEXT. -/
abbrev Fired := Nat × Word32

/-- A Sundial record (Table 15-7). -/
structure SunRec where
  seq : Nat
  pcycle : Nat
  opsec : Nat
  trigger : Nat
  list : Nat
  nreg : Nat
  flags : Nat
  nt48 : Nat
  gen : Nat
  ctx : Nat
  supp : Nat
  lost : Nat
  usec : Nat
  vals : List Word32
  deriving DecidableEq, Repr

/-- The Sundial: the RAM buffer, oldest first, and how many of its newest records are not flushed; the permanent and circulating
areas; next SEQ; PCYCLE; seconds before this power cycle and the clock at its start; per trigger the clock of its latest record
and the count suppressed; records lost since the latest record; the clock at FREEZE; lists that changed and when; a lookup that
runs; the record read; the latched high half of OPSEC. -/
structure Sun where
  ram : List SunRec
  unflushed : Nat
  perm : List SunRec
  circ : List SunRec
  next : Nat
  pcycle : Nat
  base : Nat
  since : Nat
  last : Tab (Option Nat)
  supp : Tab Nat
  lost : Nat
  frozenAt : Option Nat
  changed : Tab (Option Nat)
  busy : Bool
  place : Nat
  found : Option SunRec
  opsecHi : Nat
  deriving DecidableEq, Repr

/-! ### What the module sends out -/

/-- The requests by which host memory is reached: those of CXL.cache in Table 6-9, and PCIe memory requests (R277, R312), a write with
its Relaxed Ordering attribute (R308). -/
inductive HostOp where
  | rdShared | rdCurr | itoMWr | woWrInv | cleanEvict | memRead | memWrite (ro : Bool)
  deriving DecidableEq, Repr

/-- A request to the host: its function, the PASID it carries, what it is, and whether its address is a translated one (R312). -/
structure HostReq where
  fn : Nat
  pasid : Option (BitVec 20)
  op : HostOp
  translated : Bool
  deriving DecidableEq, Repr

/-- What leaves the module: host writes, interrupts, replies, frames. The list of them is the model's record of outputs
(log 5). -/
inductive Output where
  | hostWrite (r : HostReq) (addr : Word64) (data : Bytes)
  | hostRead (r : HostReq) (addr : Word64) (len : Nat)
  | evict (r : HostReq) (addr : Word64)
  | snoopDone (q : Nat)
  | translate (fn : Nat) (pasid : Option (BitVec 20)) (page : Nat)
  | errMessage (kind : Nat)
  | msix (fn : Nat) (entry : Nat)
  | cxlData (ma : Nat) (data : Bytes) (poison : Bool)
  | cxlWriteDone (ma : Nat)
  | cfgReply (fn : Nat) (off : Nat) (v : Option Word32)
  | nak (port : Nat) (expect : BitVec 16)
  | flit (port : Nat) (f : Flit)
  | regData (off : Nat) (size : Nat) (v : Word64)
  | memData (ma : Nat) (data : Option Bytes)
  | invalidateDone (fn : Nat) (tag : Nat)
  | cacheDone
  | backInvalidate (ma : Nat)
  | snoopData (ma : Nat)
  | operatorEvent (code : Nat) (arg : Nat)
  | nmi (cause : Nat) (cores : List Nat)
  | can (t : Nat) (f : CanFrame)
  | canAck (t : Nat)
  | canError (t : Nat) (active : Bool)
  | canOverload (t : Nat)
  | hint (src : Nat) (kind : Nat) (power : Nat) (dur : Nat)
  | reply (mb : Mbx) (data : Bytes)
  | mctpVendor (vendor : BitVec 16) (data : Bytes)
  | spdm (tr : SpdmTr) (code : Nat) (data : Bytes)
  | spdmSealed (tr : SpdmTr) (sess : Nat) (data : Bytes) (tag : BitVec 128)
  | pldm (typ : Nat) (data : Bytes)
  | jtag (data : Bytes)
  | entdaa (id : Nat) (addr : BitVec 7)
  deriving DecidableEq, Repr

/-! ### The block -/

/-- Everything of the block but the queue of waiting commands. -/
structure Dev where
  regs : Tab Word32
  pavs : Tab Pav
  blks : Tab CisBlk
  cisMarks : List CisMark
  mem : Mem
  hp : HostPort
  qs : Tab Queue
  allots : Tab Allot
  clearOp : Option ClearOp
  keys : List KeyEntry
  trl : Trl
  vdr : Vdr
  org : Org
  cans : Tab Can
  time : TimeSvc
  hb : Hb
  gate : Gate
  clk : Clk
  sup : Supply
  boot : Start
  pair : Pair
  sun : Sun
  fired : List Fired
  clamp : Bool
  clockLoss : Bool
  m1024 : Bool
  clock : Nat
  steward : Nat
  freeIx : Nat
  acceptIx : Nat
  outbox : List Output
  deriving DecidableEq, Repr

/-- The standard programs at addresses 0x00 to 0x18 of the store (Table 11-5). -/
def standardPrograms : List Nat :=
  [0x70100000, 0x10100000, 0x200009C4, 0x500007D0, 0x40000BB8, 0x10200000, 0x34000000, 0x60000000, 0x10300000, 0x900007D0, 0,
   0, 0, 0, 0, 0, 0x70000000, 0x10100000, 0x20000BB8, 0x40004E20, 0x10200000, 0x20000258, 0x60000000, 0x10300000, 0]

/-- The triggers whose FLUSH is 0 at reset (Table 15-6). -/
def noFlush : List Nat := [7, 8, 9, 10, 11, 12, 13, 14, 20, 31, 43, 44, 46, 47, 48, 49, 50, 52, 53, 54, 55, 56, 61, 62, 63]

/-- Setpoints at reset (Table 10-13). -/
def setpointReset (z : Nat) : Nat := if z < 8 then 0x4B0000 else if z < 10 then 0x460000 else if z = 10 then 0x500000 else 0x550000

/-- Reset values that differ between the instances of a register, or that name a part (log 7). -/
def regInit (off : Nat) : Option Nat :=
  if off = Reg.GLB_INCARNATION then some 1
  else if off = Reg.GLB_IDENT then some 0x0A900100
  else if off = Reg.GLB_COUNTS then some 0xA09010
  else if off = Reg.TBC_NODE then some 63
  else if Reg.ORG_ZONE_SP 0 ≤ off ∧ off < Reg.ORG_ZONE_SP 12 ∧ (off - Reg.ORG_ZONE_SP 0) % 64 = 0 then
    some (setpointReset ((off - Reg.ORG_ZONE_SP 0) / 64))
  else if Reg.VDR_PROG 0 ≤ off ∧ off < Reg.VDR_PROG 16 then
    some (if off = Reg.VDR_PROG 0 then 0x0800 else if off = Reg.VDR_PROG 1 then 0x1710 else 0x1F1F)
  else if Reg.VDR_CH_CFG 0 ≤ off ∧ off < Reg.VDR_CH_CFG 16 ∧ (off - Reg.VDR_CH_CFG 0) % 64 = 0 then
    let c := (off - Reg.VDR_CH_CFG 0) / 64
    some ((if c ≤ 13 then 2 ^ 31 else 2 ^ 30) + (if c = 12 ∨ c = 13 then 2 ^ 16 else 0) + 0xC80)
  else if Reg.VDR_PSTORE 0 ≤ off ∧ off < Reg.VDR_PSTORE 25 then some (standardPrograms.getD ((off - Reg.VDR_PSTORE 0) / 4) 0)
  else if Reg.TBC_MB_CTRL 0 0 ≤ off ∧ off < Reg.TBC_MB_CTRL 2 0 ∧ (off - Reg.TBC_MB_CTRL 0 0) % 32768 < 2048 ∧
      (off - Reg.TBC_MB_CTRL 0 0) % 128 = 0 then some (2 ^ 27)
  else if Reg.SUN_TRIG_CFG 0 ≤ off ∧ off < Reg.SUN_TRIG_CFG 64 then
    some ((if noFlush.contains ((off - Reg.SUN_TRIG_CFG 0) / 4) then 0 else 2 ^ 31) + 0x000A)
  else none

/-- The reset value of the register at an offset; 0 where no register lies. -/
def regReset (off : Nat) : Word32 :=
  match regInit off with
  | some v => BitVec.ofNat 32 v
  | none =>
    match regRowAt off with
    | some r => BitVec.ofNat 32 r.reset
    | none => 0

/-- A Pavilion at reset. Physical Pavilions 158 and 159 are held as hot spares (log 7). -/
def Pav.reset (p : Nat) : Pav :=
  { allot := 0, logical := none, spare := decide (158 ≤ p), withdrawn := false, clearing := false, share := none,
    faulted := false, stopped := false, halted := false, pc := 0, s := [], d := [], v := [], ibase := 0,
    slot0 := none, slot1 := none, ev := [], flags := 0, bed := [], block := none, xfers := [], nextId := 0,
    srcs := [], dsts := [], pend := [], lastGroup := none, rxSame := false, rxOther := false, deferred := none,
    phaseHint := none, descHint := none, runUs := 0, settling := false, freq := 400, rail := 400, lease := 16, leaseEnd := 0,
    newLease := false }

/-- A ledger block at reset (R222): IDLE, unbound. -/
def CisBlk.reset : CisBlk :=
  { allot := 0, st := .idle, fresh := true, group := 0, count := 0, params := none, ledgers := [], arrived := [],
    flags := 0, postLeft := [], out := [], dataDone := [], sendOut := [], evLeft := [], evOut := [], waiters := [] }

/-- A package at a start: GOOD (R256). -/
def Pkg.reset : Pkg := { st := .good, reason := 0, cursor := 0, window := 0, recorded := false, opsec := 0 }

/-- A queue at reset: DISABLED. -/
def Queue.reset : Queue :=
  { st := .disabled, reason := 0, allot := 0, lqueue := 0, accept := 0, c := 0, producer := 0, cqHead := 0, dbProducer := 0, dbCqHead := 0,
    useLine := false, lineArmed := false, read := [], acc := [], execs := [], held := [], arm := none, armAccept := 0, armCommit := 0, armStale := false, hdrId := (0, 0), armHeld := false, redo := [],
    sinceHdr := 0, disableReq := false, released := false }

/-- An allotment table entry at reset: UNBOUND, serial 0, WEPOCH 3 (R390, Table 8-16). -/
def Allot.reset : Allot :=
  { st := .unbound, serial := 0, token := 0, pavs := [], plots := [], blocks := [], queues := [], vecs := [],
    shares := [], modules := [], protBase := 0, tagBase := 0, protPages := 0, slot0 := none, slot1 := none,
    wepoch := 3, wins := [], gangs := [], replays := [], lastUnbind := [] }

/-- A Trellis port at reset: DISABLED. -/
def Port.reset : Port :=
  { st := .disabled, peerId := 0, peerPort := 0, lanes := 0, tryLanes := 0, narrowed := false, rxSeq := 0, txSeq := 0, ackSent := 0,
    replay := [], replayTries := 0, away := false, nakAt := none, queue := [], debt := [], tail := [], rx := [], rxTv := false, cred0 := 0, cred1 := 0,
    owed0 := 0, owed1 := 0 }

/-- The memory controller at a POWER reset: nothing trained, every granule owed (R266). -/
def Mem.reset : Mem :=
  { raw := [], clean := [], filling := [], waiting := [], results := [], owing := [], poison := [], lost := [], pkgs := [],
    health := 0, trained := false, clearCursor := 0 }

/-- An IDE stream at reset: off, without a key (R315). -/
def IdeStream.reset : IdeStream := ⟨none, false, false⟩

/-- The host port at reset: PERST_N asserted, no link. -/
def HostPort.reset : HostPort :=
  { perst := true, ready := false, memActive := false, mode := .none, d3hot := false, io := IdeStream.reset, cm := IdeStream.reset,
    cfg := [], comp := [], devr := [], hdm := [], biEnable := false, held := [], msix := [], vfEnable := false, aerUe := false,
    aerCe := false, atc := [], writes := [], inval := [] }

/-- The Trellis at reset. -/
def Trl.reset : Trl := { ports := [], send := [], recv := [], inbox := [], lastNonce := [], waiting := [], resend := [], retried := [], orphans := [], dead := [] }

/-- A channel at reset: unpowered, its valve open. -/
def Chan.reset : Chan :=
  { st := .idle, phase := .none, pc := 0, level := 0, target := 0, src := .none, pwm := 0, current := 0, wait := none, cmd := none,
    deferSince := none, boostSince := none, lastStart := none, tripAt := none, offPass := 0, suspect := false, fails := 0,
    oks := 0, verify := none, cycles := 0, saved := 0 }

/-- The valve drive at reset: forced off (R544). -/
def Vdr.reset : Vdr := { chans := [], lastCmd := some 0, resetForce := true, railUv := false, railMv := 0 }

/-- A sensor at reset: no conversion yet, VALUE 0. -/
def Sensor.reset : Sensor := { seen := false, value := 0, isOpen := false, excl := false, suspect := false, low := 0, below := 0, good := 0 }
/-- A pair at reset. -/
def SPair.reset : SPair := ⟨false, 0, 0⟩
/-- A zone at reset: not enabled. -/
def Zone.reset : Zone := ⟨false, false, false, false, 65536⟩
/-- A Pavilion at reset: limits at the lease maximum, demand at the floor cap (Table 10-15). -/
def OrgPav.reset : OrgPav := ⟨0xC0, 0xC0, 0x10, 0, false⟩
/-- The Orangery at reset. -/
def Org.reset : Org :=
  { sensors := [], pairs := [], zones := [], pavs := [], higher := [], flowHist := [], flowLow := 0, flowFe := false, flowOk := none,
    lastWet := none, leakAck := false, warn := 0, hazQuiesce := false, kwLoad := [], model := none,
    nextModel := none, run := none, ready := none, out := none, past := [], raised := 0, ceil := 573440, budget := 2560, lowAt := none, flowSent := 0x1000, pReq := 8960, capSent := 0, flowSentAt := 0, predAt := none, relAt := none, pkgTemp := [], isoSeq := none }

/-- A controller at reset. -/
def Can.reset : Can := ⟨none, [], [], false, 22⟩
/-- The time service at reset: not valid. -/
def TimeSvc.reset : TimeSvc :=
  { last := none, pair := none, pairAt := none, line := none, valid := false, setNt := 0, setAt := 0, cycle := 0, sofAt := none, sentAt := none, ntHi := 0, peers := [] }

/-- An SPDM transport with nothing negotiated. -/
def SpdmConn.reset : SpdmConn := ⟨none, none, none, none⟩
/-- The Gatehouse at reset: the ROM check runs; flash as delivered (log 7). -/
def Gate.reset : Gate :=
  { phase := 1, up := false, ds := none, image := some Config.factoryImage, run := none, config := some Config.factoryConfig, conf := none, owner := none,
    journal := [], ident := 0, attest := none, signing := false, staging := none, wait := [], i3cConn := SpdmConn.reset,
    doeConn := SpdmConn.reset, sessions := [], nextSess := 1, i3c := none, traceBase := 0, traceSize := 0, traceIx := 0,
    tracePavs := [], traceHaz := 0 }
/-- The clocks at reset: no source stable yet, every domain on its reference (Table 14-10). -/
def Clk.reset : Clk := ⟨[], [], none, [], [], [], 0⟩
/-- The supply right after a POWER reset: the always-on and valve branches are powered (Table 1-5). -/
def Supply.reset : Supply := ⟨none, false, true, true, false, false, false⟩
/-- The POWER start before Input qualify (log 6). -/
def Start.reset : Start :=
  { kind := 0, running := false, qualified := false, alwaysOn := false, selfTest := false, released := false, trained := false, keys := false,
    compute := false, recorded := true, upAt := none }
/-- A core of which nothing has been seen. -/
def CoreRec.reset : CoreRec := ⟨0, [], false⟩
/-- The core pair at reset. -/
def Pair.reset : Pair := ⟨CoreRec.reset, CoreRec.reset, 0, false, 0, 0, false, false, none, false⟩
/-- The Sundial at the first POWER reset of a part: nothing recorded (log 7). -/
def Sun.reset : Sun :=
  { ram := [], unflushed := 0, perm := [], circ := [], next := 0, pcycle := 1, base := 0, since := 0, last := [], supp := [], lost := 0,
    frozenAt := none, changed := [], busy := false, place := 0, found := none, opsecHi := 0 }

/-- The block right after a POWER reset. -/
def Dev.reset : Dev :=
  { regs := [], pavs := [], blks := [], cisMarks := [], mem := Mem.reset, hp := HostPort.reset, qs := [], allots := [],
    clearOp := none, keys := [], trl := Trl.reset, vdr := Vdr.reset, org := Org.reset, cans := [], time := TimeSvc.reset, hb := ⟨none, 0⟩, clockLoss := false, gate := Gate.reset, clk := Clk.reset, sup := Supply.reset, boot := Start.reset, pair := Pair.reset, sun := Sun.reset, fired := [], clamp := false, m1024 := false, clock := 0, steward := 0,
    freeIx := 0, acceptIx := 0, outbox := [] }

/-- The state of the machine: the block and the commands that wait, first in, first out (log 1). -/
structure State where
  pending : List Instr
  dev : Dev
  deriving DecidableEq, Repr

/-- Right after reset: no command waits. -/
def State.reset : State := { pending := [], dev := Dev.reset }

/-- Faults of the model. The manual gives every command an effect, so no meaning raises one; safe. -/
inductive Fault where
  /-- Raised by no meaning. Safe: a stop proves nothing false. -/
  | none
  deriving DecidableEq, Repr

/-- Refusals of the model. -/
inductive Refusal where
  /-- Raised by an arm of `exec` that has no meaning yet; it names the row. Safe: the machine stops. -/
  | notModelled (mnemonic : String)
  deriving DecidableEq, Repr

end Sys2Proof.Machine
end

