-- ==== Sys2Proof/Machine/Ops.lean ====
section
/-! DEFINITION. The named operations on the block's state that all meanings share: registers and their fields, event
flags, Pavilions, ledger blocks, queues, allotments, outputs, and the translations of allotment-relative indices. -/

namespace Sys2Proof.Machine

/-- A command's effect on the block: the queue stays as it is and the command completes. -/
def onDev (s : State) (f : Dev → Dev) : Host.Outcome State Fault Refusal := .next { s with dev := f s.dev }

/-! ### Registers -/

/-- The stored value of a register. -/
def Dev.reg (d : Dev) (off : Nat) : Word32 := Tab.getD regReset d.regs off
/-- Store a register. -/
def Dev.setReg (d : Dev) (off : Nat) (v : Word32) : Dev := { d with regs := Tab.setD regReset d.regs off v }
/-- A field of a stored register. -/
def Dev.fld (d : Dev) (off : Nat) (f : Fld) : Nat := f.get (d.reg off)
/-- Store a field of a register. -/
def Dev.setFld (d : Dev) (off : Nat) (f : Fld) (v : Nat) : Dev := d.setReg off (f.put (d.reg off) v)
/-- Set an RW1C event flag (bit 0) and count the setting in bits [31:16] (R12). -/
def Dev.raise (d : Dev) (off : Nat) : Dev :=
  let w := (d.reg off).toNat
  d.setReg off (BitVec.ofNat 32 (sat16 (w / 65536) * 65536 + w % 65536 / 2 * 2 + 1))
/-- Add to an RC counter field, which stops at its greatest value. -/
def Dev.bump (d : Dev) (off : Nat) (f : Fld) (n : Nat) : Dev := d.setFld off f (min (2 ^ f.width - 1) (d.fld off f + n))
/-- Return the registers at offsets `lo` to `hi - 1` to their reset values. -/
def Dev.resetRegs (d : Dev) (lo hi : Nat) : Dev := { d with regs := d.regs.clearRange lo hi }

/-! ### Parts of the block -/

/-- A physical Pavilion. -/
def Dev.pav (d : Dev) (p : Nat) : Pav := Tab.getD Pav.reset d.pavs p
def Dev.setPav (d : Dev) (p : Nat) (x : Pav) : Dev := { d with pavs := Tab.setD Pav.reset d.pavs p x }
def Dev.updPav (d : Dev) (p : Nat) (f : Pav → Pav) : Dev := d.setPav p (f (d.pav p))
/-- A ledger block by physical index. -/
def Dev.blk (d : Dev) (b : Nat) : CisBlk := Tab.get CisBlk.reset d.blks b
def Dev.setBlk (d : Dev) (b : Nat) (x : CisBlk) : Dev := { d with blks := Tab.set CisBlk.reset d.blks b x }
def Dev.updBlk (d : Dev) (b : Nat) (f : CisBlk → CisBlk) : Dev := d.setBlk b (f (d.blk b))
/-- A queue. -/
def Dev.queue (d : Dev) (q : Nat) : Queue := Tab.get Queue.reset d.qs q
def Dev.setQueue (d : Dev) (q : Nat) (x : Queue) : Dev := { d with qs := Tab.set Queue.reset d.qs q x }
def Dev.updQueue (d : Dev) (q : Nat) (f : Queue → Queue) : Dev := d.setQueue q (f (d.queue q))
/-- An allotment table entry. -/
def Dev.allot (d : Dev) (a : Nat) : Allot := Tab.get Allot.reset d.allots a
def Dev.setAllot (d : Dev) (a : Nat) (x : Allot) : Dev := { d with allots := Tab.set Allot.reset d.allots a x }
def Dev.updAllot (d : Dev) (a : Nat) (f : Allot → Allot) : Dev := d.setAllot a (f (d.allot a))
/-- A Trellis port. -/
def Dev.port (d : Dev) (p : Nat) : Port := Tab.get Port.reset d.trl.ports p
def Dev.setPort (d : Dev) (p : Nat) (x : Port) : Dev := { d with trl := { d.trl with ports := Tab.set Port.reset d.trl.ports p x } }
def Dev.updPort (d : Dev) (p : Nat) (f : Port → Port) : Dev := d.setPort p (f (d.port p))
/-- Record an output of the module, newest last. -/
def Dev.emit (d : Dev) (o : Output) : Dev := { d with outbox := d.outbox ++ [o] }
/-- Take the next index of the free values. -/
def Dev.takeFree (d : Dev) : Dev × Nat := ({ d with freeIx := d.freeIx + 1 }, d.freeIx)
/-- Fire a Sundial trigger with its CONTEXT (Table 15-6); SUNDIAL_TRIGGER or the tick makes the record. -/
def Dev.fire (d : Dev) (t ctx : Nat) : Dev := { d with fired := d.fired ++ [(t, BitVec.ofNat 32 ctx)] }
/-- Is a valve channel energised: does it run a program, or has a START arrived for its next slot? -/
def Dev.energised (d : Dev) (c : Nat) : Bool :=
  let x := Tab.get Chan.reset d.vdr.chans c
  x.st == .run || x.st == .defer || (match x.cmd with | some (.start _) => true | _ => false)
/-- Is ISOLATE_N asserted (R663)? -/
def Dev.isolateN (d : Dev) : Bool := d.fld Reg.SUN_HB_STATUS F.SUN_HB_STATUS_ISOLATE == 1
/-- Is compute quiesced, by any cause of R52 (R471, R663, R664)? -/
def Dev.quiesced (d : Dev) : Bool := d.org.hazQuiesce || d.isolateN || d.energised 12 || d.energised 13
/-- The control core that is ACTIVE, 0 or 1, if one is (R647). -/
def Dev.activeIx (d : Dev) : Option Nat :=
  if d.fld Reg.SUN_PAIR_STATUS F.SUN_PAIR_STATUS_CORE_A = 0 then some 0
  else if d.fld Reg.SUN_PAIR_STATUS F.SUN_PAIR_STATUS_CORE_B = 0 then some 1 else none
/-- What the Gatehouse keeps of a core. -/
def Dev.coreRec (d : Dev) (k : Nat) : CoreRec := if k = 0 then d.pair.a else d.pair.b
/-- The core that is ACTIVE and computes: debug does not halt it (R606). -/
def Dev.activeCore (d : Dev) : Option Nat := d.activeIx.filter (fun k => !(d.coreRec k).halt && !d.clk.dead.contains 4)
/-- Is the gate of a block closed (R621 to R624): bits of CKP_GATE? -/
def Dev.isGated (d : Dev) (g : Nat) : Bool := d.clk.gated.contains g
/-- The state of a core (Table 15-2). -/
def Dev.coreSt (d : Dev) (k : Nat) : Nat :=
  d.fld Reg.SUN_PAIR_STATUS (if k = 0 then F.SUN_PAIR_STATUS_CORE_A else F.SUN_PAIR_STATUS_CORE_B)
def Dev.setCoreSt (d : Dev) (k st : Nat) : Dev :=
  d.setFld Reg.SUN_PAIR_STATUS (if k = 0 then F.SUN_PAIR_STATUS_CORE_A else F.SUN_PAIR_STATUS_CORE_B) st
/-- The other core. -/
def otherCore (k : Nat) : Nat := 1 - k
/-- Is the module in Lodge (Table 6-7)? -/
def Dev.inLodge (d : Dev) : Bool := d.fld Reg.KDV_STATE F.KDV_STATE_MODE == 1
/-- Is a clock domain of Table 14-10's order on the internal oscillator (R618)? -/
def Dev.onFallback (d : Dev) (dm : Nat) : Bool := (d.fld Reg.CKP_CLK_STATUS F.CKP_CLK_STATUS_ON_FALLBACK).testBit dm
/-- The state of a clock source: 0 not yet stable, 1 stable, 2 failed (Table 14-10). -/
def Dev.srcState (d : Dev) (m : Nat) : Nat := bitsOf (d.fld Reg.CKP_CLK_STATUS F.CKP_CLK_STATUS_STATE) (2 * m) 2
def Dev.setSrcState (d : Dev) (m st : Nat) : Dev :=
  let old := d.fld Reg.CKP_CLK_STATUS F.CKP_CLK_STATUS_STATE
  d.setFld Reg.CKP_CLK_STATUS F.CKP_CLK_STATUS_STATE (old - bitsOf old (2 * m) 2 * 2 ^ (2 * m) + st * 2 ^ (2 * m))
/-- The source of a clock domain (Table 1-4). -/
def domSrc (dm : Nat) : Nat := if dm ≤ 1 then 0 else dm - 1
/-- Does a domain run on its reference: stable, in use, and the domain has a clock (R615 to R620)? -/
def Dev.refOk (d : Dev) (dm : Nat) : Bool := d.srcState (domSrc dm) == 1 && !d.onFallback dm && !d.clk.dead.contains dm
/-- The clock domain of a Trellis port. -/
def portDomain (p : Nat) : Nat := if p < 9 then 2 else 3
/-- Are the Pavilions, Cisterns and stripe engines stalled: their islands have not relocked, or have no clock (R617, R620)? -/
def Dev.stalled (d : Dev) : Bool := d.clk.relock.contains 1 || d.clk.dead.contains 1
/-- Has a domain a stable clock: its reference, or the internal oscillator in its place (R615, R616, R620)? -/
def Dev.clocked (d : Dev) (dm : Nat) : Bool :=
  !d.clk.dead.contains dm && (if d.onFallback dm then true else d.srcState (domSrc dm) == 1)
/-- Have the compute islands power and a locked clock (Table 1-5, R615, R617, R620)? -/
def Dev.computeOn (d : Dev) : Bool := d.sup.compute && d.clocked 1 && !d.stalled
/-- Does the always-on island run: it has power and a clock (R620)? -/
def Dev.islandOn (d : Dev) : Bool := d.sup.alwaysOn && !d.clk.dead.contains 4
/-- A non-maskable event: it goes to the Gatehouse and to the active and standby cores, while their island has a clock. Cause m is clock
source m, 5 the supply (R616, R620, R628). -/
def Dev.nmi (d : Dev) (cause : Nat) : Dev :=
  if d.clk.dead.contains 4 then d
  else d.emit (.nmi cause ((List.range 2).filter (fun k =>
    decide (d.fld Reg.SUN_PAIR_STATUS (if k = 0 then F.SUN_PAIR_STATUS_CORE_A else F.SUN_PAIR_STATUS_CORE_B) ≤ 1))))
/-- Floor cap and lease maximum in 1/16 W (R498, R499); FLOOR is limited to the range of Table 10-11. -/
def Dev.floorCap (d : Dev) : Nat := min 0x40 (max 8 (d.fld Reg.ORG_LEASE_CFG F.ORG_LEASE_CFG_FLOOR))
def Dev.leaseMax (d : Dev) : Nat := d.fld Reg.ORG_LEASE_CFG F.ORG_LEASE_CFG_MAX
/-- The lease time in ms, limited to the range of Table 10-11. -/
def Dev.leaseTime (d : Dev) : Nat := min 60000 (max 10 (d.fld Reg.ORG_LEASE_TIME F.ORG_LEASE_TIME_MS))
/-- Seconds the always-on island has been powered (Table 15-7). -/
def Dev.opsec (d : Dev) : Nat := d.sun.base + (d.clock - d.sun.since) / 1000000
/-- Plots the module has (R1). -/
def Dev.nplots (d : Dev) : Nat := if d.m1024 then 1024 else 2048

/-- Change the first element that satisfies a test. -/
def updFirst {α : Type} (t : α → Bool) (f : α → α) : List α → List α
  | [] => []
  | x :: r => if t x then f x :: r else x :: updFirst t f r

/-! ### Allotment-relative indices (R53, R54) -/

/-- This module's ID. -/
def Dev.moduleId (d : Dev) : BitVec 16 := BitVec.ofNat 16 (d.fld Reg.TRL_MODULE_ID F.TRL_MODULE_ID_ID)

/-- The number of modules of a binding; 1 without module entries (R392). -/
def Allot.nmod (a : Allot) : Nat := if a.modules.isEmpty then 1 else a.modules.length

/-- The index at which this module's own ID stands (R392). -/
def Dev.lmod (d : Dev) (a : Allot) : Nat := if a.modules.isEmpty then 0 else a.modules.idxOf d.moduleId

/-- The module ID of an allotment-relative module index. -/
def Dev.modId (d : Dev) (a : Allot) (k : Nat) : BitVec 16 := if a.modules.isEmpty then d.moduleId else a.modules.getD k 0

/-- The physical Pavilion of a logical index of allotment `a`. -/
def Dev.pavOf (d : Dev) (a l : Nat) : Option Nat := if a = 0 then none else Tab.get none (d.allot a).pavs l
/-- The physical plot of a logical plot. -/
def Dev.plotOf (d : Dev) (a l : Nat) : Option Nat := if a = 0 then none else (Tab.get none (d.allot a).plots l).map Prod.fst
/-- The physical ledger block of a logical block. -/
def Dev.blkOf (d : Dev) (a l : Nat) : Option Nat := if a = 0 then none else Tab.get none (d.allot a).blocks l
/-- The physical queue of a logical queue. -/
def Dev.queueOf (d : Dev) (a l : Nat) : Option Nat := if a = 0 then none else Tab.get none (d.allot a).queues l

/-- Is a plot address well formed for a transfer of `len` bytes (R163)? -/
def plotAddrOk (addr : Word64) (len : Nat) : Bool :=
  decide (addr.toNat < 2 ^ 41) && decide (addr.toNat % 16 = 0) && decide (addr.toNat % 2 ^ 30 + len ≤ 2 ^ 30)

/-- The module memory address of a plot address of allotment `a` (R163, R239); none when malformed or not bound. -/
def Dev.plotMA (d : Dev) (a : Nat) (addr : Word64) (len : Nat) : Option Nat :=
  if plotAddrOk addr len then
    match d.plotOf a (addr.toNat / 2 ^ 30) with
    | some p => some (p * 2 ^ 30 + addr.toNat % 2 ^ 30)
    | none => none
  else none

/-- The allotment bound on this module under a token (R391); 0 when none is. -/
def Dev.allotOfToken (d : Dev) (t : Word64) : Nat :=
  match d.allots.find? (fun e => decide (e.2.st ≠ .unbound ∧ e.2.token = t)) with
  | some e => e.1
  | none => 0

/-- Group g is newer than group c (R172). -/
def groupNewer (g c : Word32) : Bool := decide (1 ≤ (g - c).toNat ∧ (g - c).toNat < 2 ^ 31)
/-- Group g is older than group c; a difference of exactly 2^31 makes it older (R172). -/
def groupOlder (g c : Word32) : Bool := decide (2 ^ 31 ≤ (g - c).toNat)

end Sys2Proof.Machine
end

