-- ==== Sys2Proof/Machine/Memory.lean ====
section
/-! DEFINITION. The memory controller (chapter 5): stripes and their code, the clearance map, owing, poison, scrub,
package failure, retirement and rebuild. -/

namespace Sys2Proof.Machine

/-- The global granule index of a module memory address (R237). -/
def granuleOf (ma : Nat) : Nat := ma / 65536
/-- The global stripe index (R237). -/
def stripeOf (ma : Nat) : Nat := ma / 512
/-- The plot of an address (R237). -/
def plotAt (ma : Nat) : Nat := ma / 2 ^ 30
/-- The stripe engine that serves a stripe (R238). -/
def stripeGroup (s : Nat) : Nat := ((s % 256) ^^^ (s / 256 % 256) ^^^ (s / 65536 % 256) ^^^ (s / 16777216 % 256)) % 4

def Mem.pkg (m : Mem) (k : Nat) : Pkg := Tab.get Pkg.reset m.pkgs k
def Mem.setPkg (m : Mem) (k : Nat) (x : Pkg) : Mem := { m with pkgs := Tab.set Pkg.reset m.pkgs k x }
/-- The clearance map: does granule `g` read as zeros (R259)? -/
def Mem.owed (m : Mem) (g : Nat) : Bool := !Tab.get false m.clean g
/-- Is a plot lost (R267)? -/
def Mem.isLost (m : Mem) (p : Nat) : Bool := Tab.get false m.lost p
/-- Is a stripe in the poison table (R244)? -/
def Mem.isPoison (m : Mem) (s : Nat) : Bool := Tab.get false m.poison s
/-- Is a plot being owed (Table 5-4)? -/
def Mem.isOwing (m : Mem) (p : Nat) : Bool := m.owing.any (fun e => e.1 == p)

/-- Is a package in a state that makes it an erasure (Table 5-3)? -/
def PkgSt.erased : PkgSt → Bool
  | .good => false
  | .failed | .retired | .rebuilding => true
/-- Does a package take writes (Table 5-3)? -/
def PkgSt.written : PkgSt → Bool
  | .good | .rebuilding => true
  | .failed | .retired => false
/-- Is the package an erasure in stripe `s` (R235, R256)? -/
def Pkg.erasedAt (x : Pkg) (s : Nat) : Bool :=
  match x.st with
  | .good => false
  | .failed | .retired => true
  | .rebuilding => decide (x.cursor ≤ s)

/-- The packages erased in a stripe. -/
def Mem.erasures (m : Mem) (s : Nat) : List Nat := (List.range 20).filter (fun k => (m.pkg k).erasedAt s)
/-- How many packages are erased (Table 5-2). -/
def Mem.nErased (m : Mem) : Nat := ((List.range 20).filter (fun k => (m.pkg k).st.erased)).length

/-- The byte of package `k`, codeword `i` of a stripe, with the symbol errors of this read. -/
def Mem.symbol (m : Mem) (errs : List SymErr) (s i k : Nat) : Nat :=
  errs.foldl (fun b e => if e.stripe = s ∧ e.pkg.val = k ∧ e.cw.val = i then b ^^^ e.x.toNat else b)
    (Tab.get 0 m.raw (640 * s + 32 * k + i)).toNat

/-- Decode a stripe: its 512 data bytes and the package of each corrected symbol; none when uncorrectable (R235, R236). -/
def Mem.decode (m : Mem) (errs : List SymErr) (s : Nat) : Option (Bytes × List Nat) :=
  let era := m.erasures s
  (List.range 32).foldr (fun i acc =>
    match acc, rsDecode era ((List.range 20).map (m.symbol errs s i)) with
    | some (data, fixed), some (ws, es) => some ((ws.take 16).map (BitVec.ofNat 8) ++ data, es ++ fixed)
    | _, _ => none) (some ([], []))

/-- Encode 512 data bytes and store them in every package that takes writes (R231 to R234). -/
def Mem.encode (m : Mem) (s : Nat) (data : Bytes) : Mem :=
  let cws := (chunks 16 data).map (fun c => rsEncode (c.map BitVec.toNat))
  let put := fun (r : Tab Byte) (k : Nat) =>
    if (m.pkg k).st.written then Tab.setRun 0 r (640 * s + 32 * k) (cws.map (fun c => BitVec.ofNat 8 (c.getD k 0))) else r
  { m with raw := (List.range 20).foldl put m.raw }

/-- Record an uncorrectable stripe or a dropped write (R243, R246). -/
def Dev.reportUE (d : Dev) (s : Nat) : Dev :=
  let d := d.raise Reg.MEM_UE_EVT
  let d := d.setReg Reg.MEM_UE_ADDR_LO (BitVec.ofNat 32 (s * 512 % 2 ^ 32))
  let d := d.setReg Reg.MEM_UE_ADDR_HI (BitVec.ofNat 32 (s * 512 / 2 ^ 32))
  (d.bump (Reg.MEM_GRP_UE (stripeGroup s)) F.MEM_GRP_UE_STRIPES 1).fire 39 (stripeGroup s)

/-- Count corrected symbols against their packages (R249, R252). -/
def Dev.countFixed (d : Dev) (s : Nat) (fixed : List Nat) : Dev :=
  if fixed.isEmpty then d
  else
    let d := d.raise Reg.MEM_CE_EVT
    fixed.foldl (fun d k =>
      let d := d.bump (Reg.MEM_CH_CE k (stripeGroup s)) F.MEM_CH_CE_SYMBOLS 1
      { d with mem := d.mem.setPkg k { d.mem.pkg k with window := (d.mem.pkg k).window + 1 } }) d

/-- Read one stripe: zeros of an owed granule, its data, or uncorrectable (R236, R244, R260, R267). -/
def Dev.readStripe (d : Dev) (errs : List SymErr) (s : Nat) : Dev × Option Bytes :=
  if d.mem.isLost (plotAt (s * 512)) then (d.reportUE s, none)
  else if d.mem.owed (granuleOf (s * 512)) then (d, some (List.replicate 512 0))
  else if d.mem.isPoison s then (d.reportUE s, none)
  else
    match d.mem.decode errs s with
    | some (data, fixed) => (d.countFixed s fixed, some data)
    | none => (d.reportUE s, none)

/-- Replace bytes of a list from an offset. -/
def overlay (base : Bytes) (off : Nat) (bs : Bytes) : Bytes := base.take off ++ bs ++ base.drop (off + bs.length)

/-- Enter or remove a stripe in the poison table. -/
def Mem.setPoison (m : Mem) (s : Nat) (b : Bool) : Mem := { m with poison := Tab.set false m.poison s b }

/-- Write bytes within one stripe of a granule that is not owed; true when the write was dropped (R242, R244 to R247). A dropped poisoned
write of a stripe that decodes is reported like any dropped write, in the address and the group's count too (DESIGN CHOICE, log 87). -/
def Dev.writeStripe (d : Dev) (errs : List SymErr) (s off : Nat) (bs : Bytes) (poison : Bool) : Dev × Bool :=
  let room := decide (d.mem.poison.length < 4096)
  let store := fun (d : Dev) (data : Bytes) (p : Bool) => { d with mem := (d.mem.encode s data).setPoison s p }
  if bs.length = 512 && !poison then (store d bs false, false)
  else
    match (if d.mem.isPoison s then none else d.mem.decode errs s) with
    | some (data, fixed) =>
      let d := if bs.length = 512 then d else d.countFixed s fixed
      if poison && !room then (d.reportUE s, true) else (store d (overlay data off bs) poison, false)
    | none =>
      if !room then (d.reportUE s, true)
      else (store (if bs.length = 512 then d else d.reportUE s) (overlay (List.replicate 512 0) off bs) true, false)

/-- Cut a run of bytes at multiples of `n`. -/
def cutAt (n : Nat) : Nat → Nat → Bytes → List (Nat × Bytes)
  | 0, _, _ => []
  | f + 1, ma, bs =>
    if bs.isEmpty then []
    else let k := n - ma % n; (ma, bs.take k) :: cutAt n f (ma + k) (bs.drop k)

/-- Back-invalidate every line of a range that the host holds (R270). -/
def Dev.backInvalidate (d : Dev) (ma len : Nat) : Dev :=
  let hit := d.hp.held.filter (fun e => decide (ma / 64 ≤ e.1 ∧ e.1 * 64 < ma + len))
  let d := hit.foldl (fun d e => d.emit (.backInvalidate (e.1 * 64))) d
  { d with hp := { d.hp with held := d.hp.held.filter (fun e => !decide (ma / 64 ≤ e.1 ∧ e.1 * 64 < ma + len)) } }

/-- Perform a write within one granule that is not owed. -/
def Dev.performWrite (d : Dev) (errs : List SymErr) (ma : Nat) (bs : Bytes) (poison : Bool) : Dev × Bool :=
  (cutAt 512 bs.length ma bs).foldl (fun r x =>
    let (d, b) := r.1.writeStripe errs (stripeOf x.1) (x.1 % 512) x.2 poison
    (d, r.2 || b)) (d, false)

/-- The address and the length of a waiting access, and how many owes it waits for. -/
def MemAcc.place : MemAcc → Nat × Nat × Nat
  | .write ma bs _ _ l => (ma, bs.length, l)
  | .read ma len _ l => (ma, len, l)
/-- Who made a waiting access. -/
def MemAcc.user : MemAcc → MemUser
  | .write _ _ _ u _ => u
  | .read _ _ u _ => u
/-- Does a waiting access touch a granule of a range? -/
def MemAcc.meets (a : MemAcc) (ma len : Nat) : Bool :=
  decide (granuleOf ma ≤ granuleOf (a.place.1 + a.place.2.1 - 1) ∧ granuleOf a.place.1 ≤ granuleOf (ma + len - 1))

/-- How many owes of the plots of a range have been requested and have not ended. -/
def Mem.owesIn (m : Mem) (ma len : Nat) : Nat := (m.owing.filter (fun e => decide (plotAt ma ≤ e.1 ∧ e.1 * 2 ^ 30 < ma + len))).length
/-- Does a range hold a FILLING granule, or one for which an earlier access waits? -/
def Mem.behind (m : Mem) (ma len : Nat) : Bool :=
  m.filling.any (fun g => decide (granuleOf ma ≤ g ∧ g * 65536 < ma + len)) || m.waiting.any (fun a => a.meets ma len)
/-- Does an access to a range wait when it arrives (R262, R264, R617)? -/
def Dev.blocked (d : Dev) (ma len : Nat) : Bool := d.stalled || d.mem.owesIn ma len != 0 || d.mem.behind ma len

/-- Give a user what its access gave. -/
def Dev.tell (d : Dev) (u : MemUser) (r : RdRes) : Dev := { d with mem := { d.mem with results := d.mem.results.filter (fun e => e.1 != u) ++ [(u, r)] } }

/-- The host answers a snoop of a line it holds and brings its copy when it has modified it (R270). No command brings the answer:
whether the line was modified and its bytes are free (log 22). The copy is older than every access that waits; of a plot that is being
owed it lands at once, before Set, and into a granule owed already it need not (R264). -/
def Dev.lineBack (d : Dev) (line : Nat) : Dev :=
  let (d, k) := d.takeFree
  let ma := 64 * line
  let bs := (List.range 64).map (Config.hostByte k)
  let g := granuleOf ma
  if Config.freeChoice k % 2 = 0 then d
  else if d.mem.isLost (plotAt ma) then d.reportUE (stripeOf ma)
  else if d.mem.owed g then
    if d.mem.isOwing (plotAt ma) then d
    else { d with mem := { d.mem with filling := if d.mem.filling.contains g then d.mem.filling else d.mem.filling ++ [g],
                                      waiting := .write ma bs false .line 0 :: d.mem.waiting } }
  else (d.performWrite [] ma bs false).1

/-- The lines of a range that the host holds. -/
def Dev.heldLines (d : Dev) (ma len : Nat) : List Nat :=
  (d.hp.held.filter (fun e => decide (ma / 64 ≤ e.1 ∧ e.1 * 64 < ma + len))).map Prod.fst

/-- Before a module write, the lines of the range that the host holds are back-invalidated, and the write waits for the answers. -/
def Dev.snoopWrite (d : Dev) (ma len : Nat) : Dev := (d.heldLines ma len).foldl Dev.lineBack (d.backInvalidate ma len)

/-- Before a module read, the host is snooped for the lines of the range that it may hold modified. -/
def Dev.snoopRead (d : Dev) (ma len : Nat) : Dev :=
  let ls := d.heldLines ma len
  let d := { d with hp := { d.hp with held := d.hp.held.filter (fun e => !ls.contains e.1) } }
  ls.foldl (fun (d : Dev) l => (d.emit (.snoopData (64 * l))).lineBack l) d

/-- A write within one granule has its turn: it is dropped in a lost plot, starts the fill of an owed granule and waits for it, or is
performed once the host's copies are in (R242, R261, R267, R270); true when it was dropped. -/
def Dev.tryWrite (d : Dev) (errs : List SymErr) (ma : Nat) (bs : Bytes) (poison : Bool) (u : MemUser) : Dev × Option Bool :=
  let g := granuleOf ma
  if d.mem.isLost (plotAt ma) then (d.reportUE (stripeOf ma), some true)
  else if d.mem.owed g then
    ({ d with mem := { d.mem with filling := if d.mem.filling.contains g then d.mem.filling else d.mem.filling ++ [g] } }, none)
  else
    let d := if u = .host then d else d.snoopWrite ma bs.length
    let (d, dropped) := d.performWrite errs ma bs poison
    (d, some dropped)

/-- The stripes of a range. -/
def stripesOf (ma len : Nat) : List Nat := (List.range (stripeOf (ma + len - 1) + 1 - stripeOf ma)).map (· + stripeOf ma)

/-- Read a range stripe by stripe, whatever waits (R231, R243). -/
def Dev.performRead (d : Dev) (errs : List SymErr) (ma len : Nat) : Dev × RdRes :=
  if len = 0 then (d, .ok []) else
  let r := (stripesOf ma len).foldl (fun (r : Dev × Option Bytes) s =>
    match r.1.readStripe errs s with
    | (d, some bs) => (d, r.2.map (· ++ bs))
    | (d, none) => (d, none)) (d, some [])
  match r with
  | (d, some bs) => (d, .ok ((bs.drop (ma % 512)).take len))
  | (d, none) => (d, .bad)

/-- A read has its turn: the host's modified copies come first, and one for a granule that must be filled is waited for (R270). -/
def Dev.tryRead (d : Dev) (errs : List SymErr) (ma len : Nat) (u : MemUser) : Dev × RdRes :=
  let d := if u = .host then d else d.snoopRead ma len
  if d.mem.behind ma len then (d, .wait) else d.performRead errs ma len

/-- Admit a line to the snoop filter; a full filter back-invalidates a line first, and which one is open (R269). -/
def Dev.snoopAdd (d : Dev) (line : Nat) : Dev :=
  if !d.hp.biEnable ∨ Tab.get false d.hp.held line then d
  else
    let d := if 131072 ≤ d.hp.held.length then
        let (d, k) := d.takeFree
        match d.hp.held[Config.freeChoice k % d.hp.held.length]? with
        | some e => (d.backInvalidate (e.1 * 64) 64).lineBack e.1
        | none => d
      else d
    { d with hp := { d.hp with held := Tab.set false d.hp.held line true } }

/-- A read has been performed: the host gets its data, and the line enters the snoop filter, or poison (R243, R269); MEMORY_READ and the
JTAG port get the bytes; any other user takes its result. -/
def Dev.readDone (d : Dev) (ma : Nat) (u : MemUser) (r : RdRes) : Dev :=
  match u, r with
  | .host, .ok bs => (d.snoopAdd (ma / 64)).emit (.cxlData ma bs false)
  | .host, _ => d.emit (.cxlData ma (List.replicate 64 0) true)
  | .port, .ok bs => d.emit (.memData ma (some bs))
  | .port, _ => d.emit (.memData ma none)
  | .jtag, .ok bs => d.emit (.jtag bs)
  | .jtag, _ => d.emit (.jtag [])
  | u, r => d.tell u r

/-- A write has been performed or dropped: the host is answered (R264, R322); any other user learns that it was dropped. -/
def Dev.writeDone (d : Dev) (ma : Nat) (u : MemUser) (dropped : Bool) : Dev :=
  match u with
  | .host => d.emit (.cxlWriteDone ma)
  | .port | .line | .jtag => d
  | u => if dropped then d.tell u .bad else d

/-- Give an access its turn; true when it has been performed or dropped, false when it must wait again. -/
def Dev.serveAcc (d : Dev) (errs : List SymErr) (a : MemAcc) : Dev × Bool :=
  match a with
  | .write ma bs poison u _ =>
    match d.tryWrite errs ma bs poison u with
    | (d, some dropped) => (d.writeDone ma u dropped, true)
    | (d, none) => (d, false)
  | .read ma len u _ =>
    match d.tryRead errs ma len u with
    | (d, .wait) => (d, false)
    | (d, r) => (d.readDone ma u r, true)

/-- An access waits behind those that wait already. -/
def Dev.accWaits (d : Dev) (a : MemAcc) : Dev := { d with mem := { d.mem with waiting := d.mem.waiting ++ [a] } }

/-- An access arrives (R240, R262, R264): it waits its turn or has it at once. -/
def Dev.arrive (d : Dev) (errs : List SymErr) (a : MemAcc) : Dev :=
  if d.blocked a.place.1 a.place.2.1 then d.accWaits a
  else
    match d.serveAcc errs a with
    | (d, true) => d
    | (d, false) => d.accWaits a

/-- A read arrives. -/
def Dev.readArrives (d : Dev) (errs : List SymErr) (ma len : Nat) (u : MemUser) : Dev := d.arrive errs (.read ma len u (d.mem.owesIn ma len))

/-- A write of a run of bytes arrives, one access for each granule of it. -/
def Dev.writeArrives (d : Dev) (errs : List SymErr) (ma : Nat) (bs : Bytes) (poison : Bool) (u : MemUser) : Dev :=
  (cutAt 65536 bs.length ma bs).foldl (fun (d : Dev) x => d.arrive errs (.write x.1 x.2 poison u (d.mem.owesIn x.1 x.2.length))) d

/-- Has an access of a user arrived whose result it has not taken? -/
def Mem.begun (m : Mem) (u : MemUser) : Bool := m.results.any (fun e => e.1 == u) || m.waiting.any (fun a => a.user == u)
/-- What the accesses of a user give: they wait, or are done. -/
def Mem.resultOf (m : Mem) (u : MemUser) : RdRes :=
  if m.waiting.any (fun a => a.user == u) then .wait
  else match m.results.find? (fun e => e.1 == u) with | some e => e.2 | none => .wait
/-- What the writes of several users give together. -/
def Mem.resultOfAll (m : Mem) (t : MemUser → Bool) : RdRes :=
  if m.waiting.any (fun a => t a.user) then .wait else if m.results.any (fun e => t e.1 && e.2 == .bad) then .bad else .ok []
/-- A user takes its result. -/
def Dev.taken (d : Dev) (u : MemUser) : Dev := { d with mem := { d.mem with results := d.mem.results.filter (fun e => e.1 != u) } }
/-- The accesses of users that have gone: what they write stays in its place, what they read nobody takes. -/
def MemAcc.orphan (t : MemUser → Bool) : MemAcc → MemAcc
  | .write ma bs p u l => .write ma bs p (if t u then .port else u) l
  | a => a
/-- Users go away. -/
def Dev.usersGone (d : Dev) (t : MemUser → Bool) : Dev :=
  { d with mem := { d.mem with results := d.mem.results.filter (fun e => !t e.1)
                               waiting := (d.mem.waiting.map (MemAcc.orphan t)).filter (fun a => !t a.user) } }

/-- A read of a user: it arrives once, and its command comes again until it has been performed (log 69). -/
def Dev.issueRead (d : Dev) (u : MemUser) (ma len : Nat) : Dev := if d.mem.begun u then d else d.readArrives [] ma len u
/-- A module read of a run of bytes. -/
def Dev.memRead (d : Dev) (u : MemUser) (ma len : Nat) : Dev × RdRes :=
  let d := d.issueRead u ma len
  match d.mem.resultOf u with
  | .wait => (d, .wait)
  | r => (d.taken u, r)
/-- A write of a user arrives once. -/
def Dev.issueWrite (d : Dev) (u : MemUser) (ma : Nat) (bs : Bytes) : Dev :=
  if d.mem.begun u then d else (d.tell u (.ok [])).writeArrives [] ma bs false u
/-- A module write of a run of bytes: it waits, it is done, or a part of it was dropped (R164, R243, R267). -/
def Dev.memWrite (d : Dev) (u : MemUser) (ma : Nat) (bs : Bytes) : Dev × RdRes :=
  let d := d.issueWrite u ma bs
  match d.mem.resultOf u with
  | .wait => (d, .wait)
  | r => (d.taken u, r)

/-- Must a waiting access go on waiting: for an owe requested before it came, a fill, or an access ahead of it (R262, R264)? -/
def Mem.mustWait (m : Mem) (a : MemAcc) : Bool := a.place.2.2 != 0 || m.behind a.place.1 a.place.2.1

/-- Give the waiting accesses their turn in order of arrival; those that must still wait keep their places. -/
def Dev.runWaiting (d : Dev) : Dev :=
  if d.stalled then d
  else
    let turn := fun (d : Dev) (a : MemAcc) =>
      if d.mem.mustWait a then d.accWaits a
      else
        match d.serveAcc [] a with
        | (d, true) => d
        | (d, false) => d.accWaits a
    d.mem.waiting.foldl turn { d with mem := { d.mem with waiting := [] } }

/-- Write a whole granule as zeros and clear its map bit (R261, R263). -/
def Mem.zeroGranule (m : Mem) (g : Nat) : Mem :=
  let raw := (List.range 128).foldl (fun r i => (List.range 20).foldl (fun r k =>
    if (m.pkg k).st.written then Tab.clearRange r (640 * (128 * g + i) + 32 * k) (640 * (128 * g + i) + 32 * k + 32) else r) r) m.raw
  { m with raw := raw, clean := Tab.set false m.clean g true }

/-- Give HEALTH its value afresh (Table 5-2, R258). -/
def Mem.freshHealth (m : Mem) : Mem := { m with health := min 3 m.nErased }

/-- Request the owe of a plot (R264); a second one follows the first. -/
def Dev.oweRequest (d : Dev) (p : Nat) : Dev := { d with mem := { d.mem with owing := d.mem.owing ++ [(p, .drain)] } }

/-- The phase of the owe of a plot that goes on. -/
def Mem.oweOf (m : Mem) (p : Nat) : Option OwePh := (m.owing.find? (fun e => e.1 == p)).map Prod.snd
/-- Move that owe to its next phase. -/
def Mem.owePhase (m : Mem) (p : Nat) (ph : OwePh) : Mem := { m with owing := updFirst (fun e => e.1 == p) (fun _ => (p, ph)) m.owing }
/-- That owe has ended. -/
def Mem.oweEnds (m : Mem) (p : Nat) : Mem := { m with owing := m.owing.eraseP (fun e => e.1 == p) }

/-- Retire a package (R253, R254) with its reason and the OPSEC of its retirement. -/
def Mem.retire (m : Mem) (k reason opsec : Nat) : Mem :=
  (m.setPkg k { m.pkg k with st := .retired, reason := reason, recorded := false, opsec := opsec }).freshHealth

/-- Give the block a memory controller; a change of HEALTH fires trigger 41. -/
def Dev.setMem (d : Dev) (m : Mem) : Dev :=
  let h := d.mem.health
  let d := { d with mem := m }
  if m.health = h then d else d.fire 41 m.health

/-- Do the bytes of a range exist (R2, R237)? -/
def Dev.maExists (d : Dev) (ma len : Nat) : Bool := decide (ma + len ≤ d.nplots * 2 ^ 30)

/-! ### Commands of the memory controller -/

/-- MEMORY_READ (R231, R236, R240, R243, R260, R262, R267). -/
def execMemoryRead (ma len : Nat) (errs : List SymErr) (s : State) : Host.Outcome State Fault Refusal := onDev s fun d =>
  if d.maExists ma len then d.readArrives errs ma len .port else d

/-- MEMORY_WRITE (R242, R244 to R246, R261, R262, R264, R267, R270). -/
def execMemoryWrite (ma : Nat) (data : Bytes) (errs : List SymErr) (s : State) : Host.Outcome State Fault Refusal := onDev s fun d =>
  if d.maExists ma data.length then d.writeArrives errs ma data false .port else d

/-- FILL_COMPLETE (R261, R262): zeros are written, the waiting accesses of the granule are performed in order. A granule
of a plot that became lost is not filled (R267). -/
def execFillComplete (g : Nat) (s : State) : Host.Outcome State Fault Refusal := onDev s fun d =>
  if d.stalled || !d.mem.filling.contains g then d
  else
    let d := { d with mem := { d.mem with filling := d.mem.filling.filter (· != g) } }
    let d := if d.mem.isLost (g / 16384) then d else { d with mem := d.mem.zeroGranule g }
    d.runWaiting

/-- The next granule at or above `g` that the clearer may write: owed, not filling, its plot neither lost nor being owed. -/
def Mem.nextOwed (m : Mem) (limit : Nat) : Nat → Nat → Option Nat
  | 0, _ => none
  | f + 1, g =>
    if limit ≤ g then none
    else if m.isLost (g / 16384) || m.isOwing (g / 16384) then m.nextOwed limit f ((g / 16384 + 1) * 16384)
    else if m.owed g && !m.filling.contains g then some g
    else m.nextOwed limit f (g + 1)

/-- CLEARER_GRANULE (R263): the next owed granule in ascending order from a cursor that wraps. -/
def execClearerGranule (s : State) : Host.Outcome State Fault Refusal := onDev s fun d =>
  let m := d.mem
  let fuel := m.clean.length + m.filling.length + m.lost.length + m.owing.length + 1
  let lim := d.nplots * 16384
  if d.stalled then d else
  match (match m.nextOwed lim fuel m.clearCursor with | some g => some g | none => m.nextOwed lim fuel 0) with
  | some g => { d with mem := { m.zeroGranule g with clearCursor := g + 1 } }
  | none => d

/-- The first stripe at or above `s` that patrol scrub reads: in a clean granule, not in the poison table, its plot not
lost (R248). -/
def Mem.nextScrub (m : Mem) (s : Nat) : Option Nat :=
  m.clean.findSome? (fun e => if e.1 < s / 128 then none else
    (List.range 128).findSome? (fun i =>
      let t := 128 * e.1 + i
      if s ≤ t ∧ m.isPoison t = false ∧ m.isLost (e.1 / 16384) = false then some t else none))

/-- SCRUB_STRIPE (R248, R249). In a plot that is being owed the scrubber waits (R264). -/
def execScrubStripe (errs : List SymErr) (s : State) : Host.Outcome State Fault Refusal := onDev s fun d =>
  if d.fld Reg.MEM_CTRL F.MEM_CTRL_SCRUB_EN = 0 then d
  else
    let pos := (d.reg Reg.MEM_SCRUB_POS).toNat
    match (match d.mem.nextScrub pos with | some t => some t | none => d.mem.nextScrub 0) with
    | none => d
    | some t =>
      if d.stalled || d.mem.isOwing (plotAt (512 * t)) then d else
      let next := if t + 1 < d.nplots * 2097152 then t + 1 else 0
      let d := d.setReg Reg.MEM_SCRUB_POS (BitVec.ofNat 32 next)
      match d.mem.decode errs t with
      | some (data, fixed) =>
        let d := d.countFixed t fixed
        if fixed.isEmpty then d else { d with mem := d.mem.encode t data }
      | none => d.reportUE t

/-- PACKAGE_FAILURE (R255, R257): the package is FAILED with reason 4; a RETIRED package stays so. HEALTH changes with the set of erased
packages alone (R258). -/
def execPackageFailure (pkg : Fin 20) (s : State) : Host.Outcome State Fault Refusal := onDev s fun d =>
  let x := d.mem.pkg pkg.val
  if x.st = .retired then d
  else
    let m := d.mem.setPkg pkg.val { x with st := .failed, reason := 4, cursor := 0 }
    (d.setMem (if x.st.erased then m else m.freshHealth)).fire 40 pkg.val

/-- A FAILED package that trains while the memory branch is powered becomes REBUILDING from stripe 0 (R256, R257). -/
def Dev.retrainPkg (d : Dev) (k : Nat) (trained : Bool) : Dev :=
  let x := d.mem.pkg k
  if x.st = .failed ∧ trained ∧ d.sup.memory then { d with mem := d.mem.setPkg k { x with st := .rebuilding, cursor := 0 } } else d

/-- PACKAGE_RETRAIN_RETRY (R256, R257). -/
def execPackageRetrainRetry (pkg : Fin 20) (trained : Bool) (s : State) : Host.Outcome State Fault Refusal := onDev s fun d =>
  d.retrainPkg pkg.val trained

/-- The retries of a WARM reset, one for each FAILED package (R257). Whether a package trains no command brings: free. -/
def Dev.warmRetrain (d : Dev) : Dev :=
  (List.range 20).foldl (fun (d : Dev) k =>
    if (d.mem.pkg k).st = .failed ∧ d.sup.memory then
      let (d, i) := d.takeFree
      d.retrainPkg k (Config.freeChoice i % 2 == 1)
    else d) d

/-- The first stripe at or above `s` in a granule that is not owed. -/
def Mem.nextClean (m : Mem) (s : Nat) : Option Nat :=
  m.clean.findSome? (fun e => if e.1 < s / 128 then none else some (max s (128 * e.1)))

/-- REBUILD_STRIPE (R256): decode and rewrite the next stripe; past the last one the package is GOOD. A stripe that does not decode
is not rewritten and the cursor stays at it, until a write makes it whole (log 70). In a plot that is being owed the rebuilder
waits (R264). -/
def execRebuildStripe (pkg : Fin 20) (s : State) : Host.Outcome State Fault Refusal := onDev s fun d =>
  let x := d.mem.pkg pkg.val
  if x.st ≠ .rebuilding then d
  else
    match d.mem.nextClean x.cursor with
    | none => d.setMem (d.mem.setPkg pkg.val { x with st := .good, reason := 0, cursor := 0 }).freshHealth
    | some t =>
      if d.stalled || d.mem.isOwing (plotAt (512 * t)) then d else
      let adv := fun (d : Dev) => { d with mem := d.mem.setPkg pkg.val { d.mem.pkg pkg.val with cursor := t + 1 } }
      match d.mem.decode [] t with
      | some (data, fixed) =>
        let d := d.countFixed t fixed
        adv { d with mem := d.mem.encode t data }
      | none => d.reportUE t

/-- The packages whose count in this window exceeds MEM_RETIRE_THRESH and that are not erased. -/
def Dev.overThresh (d : Dev) : List Nat :=
  (List.range 20).filter (fun k => !(d.mem.pkg k).st.erased &&
    decide ((d.reg Reg.MEM_RETIRE_THRESH).toNat < (d.mem.pkg k).window))

/-- CORRECTION_WINDOW_END (R252, R258): automatic retirement while fewer than two packages are erased; with two erased,
a third above the threshold makes HEALTH critical, and a window with none gives it back. DESIGN CHOICE (log 21): where more packages exceed it
than may be retired, those of the lowest numbers are. -/
def execCorrectionWindowEnd (s : State) : Host.Outcome State Fault Refusal := onDev s fun d =>
  let auto := d.fld Reg.MEM_CTRL F.MEM_CTRL_AUTO_RETIRE = 1
  let found := d.overThresh
  let d := found.foldl (fun d k =>
    if auto ∧ d.mem.nErased < 2 then (d.setMem (d.mem.retire k 2 d.opsec)).fire 40 k else d) d
  let left := d.overThresh
  let d :=
    if d.mem.nErased = 2 then
      if left.isEmpty then d.setMem { d.mem with health := 2 }
      else if d.mem.health = 3 then d
      else (d.setMem { d.mem with health := 3 }).emit (.operatorEvent 0x258 (left.headD 0))
    else d
  { d with mem := (List.range 20).foldl (fun m k => m.setPkg k { m.pkg k with window := 0 }) d.mem }

/-- RETIRE_PACKAGE: a write of MEM_RETIRE_CMD (R253). -/
def execRetirePackage (v : Word32) (s : State) : Host.Outcome State Fault Refusal := onDev s fun d =>
  if F.MEM_RETIRE_CMD_GO.get v = 0 then d
  else
    let k := F.MEM_RETIRE_CMD_PKG.get v
    let result :=
      if 20 ≤ k then 2 else if (d.mem.pkg k).st = .retired then 3 else if 2 ≤ d.mem.nErased then 2 else 1
    let d := (d.setFld Reg.MEM_RETIRE_STS F.MEM_RETIRE_STS_PKG k).setFld Reg.MEM_RETIRE_STS F.MEM_RETIRE_STS_RESULT result
    if result = 1 then (d.setMem (d.mem.retire k 3 d.opsec)).fire 40 k else d

/-- RETIREMENT_RECORD (R254): the retirement is in flash. -/
def execRetirementRecord (pkg : Fin 20) (s : State) : Host.Outcome State Fault Refusal := onDev s fun d =>
  let x := d.mem.pkg pkg.val
  if x.st = .retired then { d with mem := d.mem.setPkg pkg.val { x with recorded := true } } else d

/-- MAP_WORD_UNCORRECTABLE (R245, R267): 64 granules owed and their stripes out of the poison table, their plot lost. -/
def execMapWordUncorrectable (k : Nat) (s : State) : Host.Outcome State Fault Refusal := onDev s fun d =>
  if d.nplots * 256 ≤ k then d
  else
    let d := (d.raise Reg.MEM_MAP_EVT).fire 42 (k / 256)
    { d with mem := { d.mem with
      clean := d.mem.clean.clearRange (64 * k) (64 * k + 64)
      poison := d.mem.poison.clearRange (8192 * k) (8192 * k + 8192)
      lost := Tab.set false d.mem.lost (k / 256) true } }

/-- OWE_DRAIN_END (Table 5-4): ends once no fill of the plot is left and every earlier access has completed. -/
def execOweDrainEnd (plot : Nat) (s : State) : Host.Outcome State Fault Refusal := onDev s fun d =>
  if d.mem.oweOf plot == some .drain && !d.mem.filling.any (fun g => g / 16384 == plot) &&
      !d.mem.waiting.any (fun a => a.place.2.2 == 0 && a.meets (plot * 2 ^ 30) (2 ^ 30)) then
    { d with mem := d.mem.owePhase plot .backInv }
  else d

/-- OWE_BACK_INVALIDATE_END (Table 5-4): the modified lines land, and the host holds no line of the plot. Into a granule owed already
they need not land, since the Set phase owes it afresh; into a lost plot they are dropped and reported (R243, R267). -/
def execOweBackInvalidateEnd (plot : Nat) (wb : List LineWb) (s : State) : Host.Outcome State Fault Refusal := onDev s fun d =>
  if d.mem.oweOf plot ≠ some .backInv then d
  else
    let land := fun (d : Dev) (w : LineWb) =>
      if plotAt w.ma ≠ plot then d
      else if d.mem.isLost plot then d.reportUE (stripeOf w.ma)
      else if d.mem.owed (granuleOf w.ma) then d
      else (d.performWrite [] w.ma w.data false).1
    let d := wb.foldl land d
    let d := d.backInvalidate (plot * 2 ^ 30) (2 ^ 30)
    { d with mem := d.mem.owePhase plot .set }

/-- A waiting access of which one owe has ended. -/
def MemAcc.onTime : MemAcc → MemAcc
  | .write ma bs p u l => .write ma bs p u (l - 1)
  | .read ma len u l => .read ma len u (l - 1)

/-- OWE_SET_END (Table 5-4, R245, R267): all bits 1, the plot's poison entries and lost bit cleared; the accesses that
waited go on in order of arrival. -/
def execOweSetEnd (plot : Nat) (s : State) : Host.Outcome State Fault Refusal := onDev s fun d =>
  if d.mem.oweOf plot ≠ some .set then d
  else
    let m := { d.mem.oweEnds plot with
      clean := d.mem.clean.clearRange (16384 * plot) (16384 * plot + 16384)
      poison := d.mem.poison.clearRange (2097152 * plot) (2097152 * plot + 2097152)
      lost := Tab.set false d.mem.lost plot false
      waiting := d.mem.waiting.map (fun a => if a.meets (plot * 2 ^ 30) (2 ^ 30) then a.onTime else a) }
    ({ d with mem := m }).runWaiting

end Sys2Proof.Machine
end

