-- ==== Sys2Proof/Machine/Operands.lean ====
section
/-! DEFINITION. Operand forms of the kernel instructions: the steward's registers, bytes and words of the bed, bed
descriptors and the elements they place, and the checks of their ranges (chapter 3). -/

namespace Sys2Proof.Machine

/-- What an instruction can end in: the next state of its Pavilion, or a fault code. -/
abbrev Eff (α : Type) := Except FaultCode α

/-- Bytes of a bed (R111). -/
def bedSize : Nat := 0x280000

/-- A scalar register; S0 reads as 0 (R127). -/
def Pav.sreg (x : Pav) (i : BitVec 5) : Word64 := if i = 0 then 0 else Tab.get 0 x.s i.toNat
/-- Write a scalar register; a write to S0 is discarded (R127). -/
def Pav.setS (x : Pav) (i : BitVec 5) (v : Word64) : Pav := if i = 0 then x else { x with s := Tab.set 0 x.s i.toNat v }
/-- A bed descriptor register. -/
def Pav.dreg (x : Pav) (i : BitVec 4) : BedDesc := Tab.get BedDesc.zero x.d i.toNat
def Pav.setDreg (x : Pav) (i : BitVec 4) (v : BedDesc) : Pav := { x with d := Tab.set BedDesc.zero x.d i.toNat v }
/-- One lane of a vector register. -/
def Pav.lane (x : Pav) (r : BitVec 4) (i : Nat) : Nat := (Tab.get 0 x.v (256 * r.toNat + i)).toNat
def Pav.setLane (x : Pav) (r : BitVec 4) (i : Nat) (v : Nat) : Pav := { x with v := Tab.set 0 x.v (256 * r.toNat + i) (BitVec.ofNat 32 v) }
/-- An event counter. -/
def Pav.evc (x : Pav) (i : BitVec 6) : Word32 := Tab.get 0 x.ev i.toNat
def Pav.setEvc (x : Pav) (i : BitVec 6) (v : Word32) : Pav := { x with ev := Tab.set 0 x.ev i.toNat v }
/-- Add to the sticky flag set (R104). -/
def Pav.addFlags (x : Pav) (f : Flags) : Pav := { x with flags := x.flags ||| f }
/-- Advance to the next instruction (R125). -/
def Pav.next (x : Pav) : Pav := { x with pc := x.pc + 8 }
/-- The immediate of a word, sign-extended to 64 bits. -/
def sx32 (i : Word32) : Word64 := i.signExtend 64

/-- Bytes of the bed from an address. -/
def Pav.bedRead (x : Pav) (a n : Nat) : Bytes := Tab.getRun 0 x.bed a n
def Pav.bedWrite (x : Pav) (a : Nat) (bs : Bytes) : Pav := { x with bed := Tab.setRun 0 x.bed a bs }

/-- Does a byte range leave the bed (R135)? -/
def bedOut (lo hi : Int) : Bool := decide (lo < 0) || decide ((bedSize : Int) < hi)
/-- Does a byte range touch the code image of the running share (R116)? -/
def Pav.hitsCode (x : Pav) (lo hi : Int) : Bool :=
  match x.share with
  | some s => decide (lo < (s.code.toNat : Int) + s.codeLen) && decide ((s.code.toNat : Int) < hi)
  | none => false

/-- An effect only when a condition does not hold. -/
def guardNot (c : Bool) (e : FaultCode) : Eff Unit := if c then .error e else .ok ()

/-! ### Bed descriptors (R131 to R136) -/

def BedDesc.e0 (d : BedDesc) : Nat := d.ext0.toNat + 1
def BedDesc.e1 (d : BedDesc) : Nat := d.ext1.toNat + 1
def BedDesc.e2 (d : BedDesc) : Nat := d.ext2.toNat + 1
def BedDesc.e3 (d : BedDesc) : Nat := d.ext3.toNat + 1
/-- How many elements the descriptor names. -/
def BedDesc.count (d : BedDesc) : Nat := d.e0 * d.e1 * d.e2 * d.e3
/-- The byte where the run of dimension 0 at (i1, i2, i3) starts (R132). -/
def BedDesc.rowAt (d : BedDesc) (i1 i2 i3 : Nat) : Int :=
  d.base.toNat + i1 * d.stride1.toInt + i2 * d.stride2.toInt + i3 * d.stride3.toInt
/-- Bed bit address of the element at a linear index (R132, R133). -/
def BedDesc.bitAt (d : BedDesc) (w n : Nat) : Int :=
  let r := n / d.e0
  8 * d.rowAt (r % d.e1) (r / d.e1 % d.e2) (r / d.e1 / d.e2) + w * (n % d.e0)
/-- The starts of all runs of dimension 0, in linear order. -/
def BedDesc.rows (d : BedDesc) : List Int :=
  (List.range (d.e1 * d.e2 * d.e3)).map (fun r => d.rowAt (r % d.e1) (r / d.e1 % d.e2) (r / d.e1 / d.e2))
/-- The lowest byte the descriptor reaches and the one past the highest. -/
def BedDesc.span (d : BedDesc) (w : Nat) : Int × Int :=
  let lo := fun (e : Nat) (s : Word32) => min (0 : Int) ((e - 1 : Nat) * s.toInt)
  let hi := fun (e : Nat) (s : Word32) => max (0 : Int) ((e - 1 : Nat) * s.toInt)
  (d.base.toNat + lo d.e1 d.stride1 + lo d.e2 d.stride2 + lo d.e3 d.stride3,
   d.base.toNat + hi d.e1 d.stride1 + hi d.e2 d.stride2 + hi d.e3 d.stride3 + ((w * d.e0 + 7) / 8 : Nat))
/-- Address of the block scale of the element at a linear index (R134). -/
def BedDesc.scaleAt (d : BedDesc) (n : Nat) : Nat :=
  d.scaleBase.toNat + n / d.e0 * (d.e0 / 32) + n % d.e0 / 32
/-- Does the descriptor reach outside the bed, its scale array included (R135)? -/
def BedDesc.out (d : BedDesc) (w : Nat) (scaled : Bool) : Bool :=
  bedOut (d.span w).1 (d.span w).2 ||
  (scaled && bedOut d.scaleBase.toNat (d.scaleBase.toNat + d.e1 * d.e2 * d.e3 * (d.e0 / 32) : Nat))

/-- The 8 words of a bed descriptor in the bed (Table 3-7). -/
def BedDesc.bytes (d : BedDesc) : Bytes :=
  leBytes 4 (d.scaled.toNat * 2 ^ 26 + d.fmt.toNat * 2 ^ 22 + d.base.toNat) ++ leBytes 4 d.scaleBase.toNat ++
  leBytes 4 (d.ext1.toNat * 65536 + d.ext0.toNat) ++ leBytes 4 (d.ext3.toNat * 65536 + d.ext2.toNat) ++
  leBytes 4 d.stride1.toNat ++ leBytes 4 d.stride2.toNat ++ leBytes 4 d.stride3.toNat ++ leBytes 4 0

/-- A bed descriptor from 32 bytes; none when a reserved field is nonzero (R138). -/
def BedDesc.ofBytes (bs : Bytes) : Option BedDesc :=
  let w := fun i => leNat ((bs.drop (4 * i)).take 4)
  if w 0 / 2 ^ 27 ≠ 0 ∨ w 1 / 2 ^ 22 ≠ 0 ∨ w 7 ≠ 0 then none
  else some ⟨BitVec.ofNat 1 (w 0 / 2 ^ 26), BitVec.ofNat 4 (w 0 / 2 ^ 22), BitVec.ofNat 22 (w 0), BitVec.ofNat 22 (w 1),
    BitVec.ofNat 16 (w 2), BitVec.ofNat 16 (w 2 / 65536), BitVec.ofNat 16 (w 3), BitVec.ofNat 16 (w 3 / 65536),
    BitVec.ofNat 32 (w 4), BitVec.ofNat 32 (w 5), BitVec.ofNat 32 (w 6)⟩

/-- A little-endian bit field of the bed (R60). -/
def Pav.bitsAt (x : Pav) (b w : Nat) : Nat := (leNat (x.bedRead (b / 8) ((b % 8 + w + 7) / 8)) >>> (b % 8)) % 2 ^ w
/-- Write a little-endian bit field of the bed. -/
def Pav.putBits (x : Pav) (b w v : Nat) : Pav :=
  let n := (b % 8 + w + 7) / 8
  let old := leNat (x.bedRead (b / 8) n)
  let cleared := old - ((old >>> (b % 8)) % 2 ^ w) * 2 ^ (b % 8)
  x.bedWrite (b / 8) (leBytes n (cleared + v % 2 ^ w * 2 ^ (b % 8)))

/-- The element at a linear index as a tile operand, with its scale. -/
def Pav.elem (x : Pav) (d : BedDesc) (f : Fmt) (n : Nat) : Opnd :=
  ⟨f, if d.scaled = 1 then (x.bedRead (d.scaleAt n) 1).headD 0 |>.toNat else 0x7F, x.bitsAt (d.bitAt f.bits n).toNat f.bits⟩
/-- Write the element at a linear index. -/
def Pav.putElem (x : Pav) (d : BedDesc) (f : Fmt) (n v : Nat) : Pav := x.putBits (d.bitAt f.bits n).toNat f.bits v

/-- The checks of a descriptor through which element values pass: format, scaled mark, extent of dimension 0, range
(R59, R134, R135, R711). -/
def BedDesc.check (d : BedDesc) : Eff Fmt :=
  match Fmt.ofCode d.fmt.toNat with
  | none => .error .format
  | some f =>
    if !f.scaleOk (d.scaled == 1) then .error .format
    else if d.scaled == 1 && d.e0 % 32 != 0 then .error .shape
    else if d.out f.bits (d.scaled == 1) then .error .bedRange
    else .ok f

/-- Does a write of elements `n0` to `n0 + cnt - 1`, scales included, touch the code image (R116)? -/
def Pav.writeHits (x : Pav) (d : BedDesc) (w n0 cnt : Nat) : Bool :=
  (List.range cnt).any (fun k =>
    let b := d.bitAt w (n0 + k)
    x.hitsCode (b / 8) ((b + w + 7) / 8) ||
    (d.scaled == 1 && x.hitsCode (d.scaleAt (n0 + k)) (d.scaleAt (n0 + k) + 1 : Nat)))

/-- The bytes a descriptor's elements make when packed run after run (R164). -/
def Pav.gather (x : Pav) (d : BedDesc) (w : Nat) : Bytes := d.rows.flatMap (fun r => x.bedRead r.toNat (w * d.e0 / 8))
/-- Place packed bytes run after run under a descriptor; the later run stays where two overlap (R136). -/
def Pav.scatter (x : Pav) (d : BedDesc) (w : Nat) (bs : Bytes) : Pav :=
  let k := w * d.e0 / 8
  (d.rows.zip (List.range d.rows.length)).foldl (fun x r => x.bedWrite r.1.toNat ((bs.drop (k * r.2)).take k)) x

/-- The checks of a descriptor of MLD, MST and RSEND: format, packed runs, range (R164, R711, R135). -/
def BedDesc.checkMove (d : BedDesc) : Eff (Nat × Nat) :=
  match Fmt.ofCode d.fmt.toNat with
  | none => .error .format
  | some f =>
    let total := d.e0 * f.bits / 8 * (d.e1 * d.e2 * d.e3)
    if d.e0 * f.bits % 8 ≠ 0 ∨ total % 16 ≠ 0 then .error .shape
    else if d.out f.bits false then .error .bedRange
    else .ok (f.bits, total)

end Sys2Proof.Machine
end

