-- ==== Sys2Proof/Machine/Scalar.lean ====
section
/-! DEFINITION. What the scalar and descriptor kernel instructions do to their Pavilion (R126 to R138). -/

namespace Sys2Proof.Machine

/-- SD takes a value and the share goes on. -/
def Pav.put (x : Pav) (f : ScalarF) (v : Word64) : Eff Pav := .ok ((x.setS f.sd v).next)
/-- Branch to PC + 8 × IMM (Table 3-5). -/
def Pav.branch (x : Pav) (f : ScalarF) (c : Bool) : Eff Pav :=
  .ok (if c then { x with pc := x.pc + 8 * sx32 f.imm } else x.next)
/-- The bed word address SA + IMM of LDS and STS, checked (R129, R135). -/
def Pav.wordAddr (x : Pav) (f : ScalarF) : Eff Nat :=
  let a := (x.sreg f.sa + sx32 f.imm).toNat
  if a % 8 ≠ 0 then .error .alignment else if bedOut a (a + 8 : Nat) then .error .bedRange else .ok a

/-- The special registers of Table 3-6. -/
def Share.special (s : Share) : Nat → Option Word64
  | 0 => some (BitVec.ofNat 64 s.rank)
  | 1 => some (BitVec.ofNat 64 s.nshare)
  | 2 => some (BitVec.ofNat 64 s.lpav)
  | 3 => some (s.args.setWidth 64)
  | 4 => some (s.code.setWidth 64)
  | 5 => some s.seed
  | 6 => some (BitVec.ofNat 64 s.lmod)
  | 7 => some (BitVec.ofNat 64 s.nmod)
  | 8 => some (s.group.setWidth 64)
  | _ => none

/-- RDSR: a selector outside Table 3-6 is a reserved field (R130). -/
def Pav.rdsr (x : Pav) (f : ScalarF) : Eff Pav :=
  match x.share.bind (fun s => s.special f.imm.toNat) with
  | some v => x.put f v
  | none => .error .reservedField

/-- LDS (R129). -/
def Pav.lds (x : Pav) (f : ScalarF) : Eff Pav := do
  let a ← x.wordAddr f
  x.put f (BitVec.ofNat 64 (leNat (x.bedRead a 8)))

/-- STS (R116, R129). -/
def Pav.sts (x : Pav) (f : ScalarF) : Eff Pav := do
  let a ← x.wordAddr f
  guardNot (x.hitsCode a (a + 8 : Nat)) .bedRange
  .ok ((x.bedWrite a (leBytes 8 (x.sreg f.sb).toNat)).next)

/-- The scalar operations (Table 3-5). END waits for the share's transfers (R121). -/
def scalarEff (op : BitVec 8) (f : ScalarF) (x : Pav) : Eff Pav :=
  let a := x.sreg f.sa
  let b := x.sreg f.sb
  let i := sx32 f.imm
  match op.toNat with
  | 0x01 => x.put f (a + b)
  | 0x02 => x.put f (a - b)
  | 0x03 => x.put f (a * b)
  | 0x04 => x.put f (a &&& b)
  | 0x05 => x.put f (a ||| b)
  | 0x06 => x.put f (a ^^^ b)
  | 0x07 => x.put f (a <<< (b.toNat % 64))
  | 0x08 => x.put f (a >>> (b.toNat % 64))
  | 0x09 => x.put f (a.sshiftRight (b.toNat % 64))
  | 0x0A => x.put f (if a.slt b then 1 else 0)
  | 0x0B => x.put f (if a.ult b then 1 else 0)
  | 0x10 => x.put f (a + i)
  | 0x11 => x.put f (a &&& i)
  | 0x12 => x.put f (a ||| i)
  | 0x13 => x.put f (a ^^^ i)
  | 0x14 => x.put f (a <<< (i.toNat % 64))
  | 0x15 => x.put f (a >>> (i.toNat % 64))
  | 0x16 => x.put f ((f.imm ++ (0 : Word32)) ||| (a &&& 0xFFFFFFFF))
  | 0x20 => x.lds f
  | 0x21 => x.sts f
  | 0x30 => x.branch f (a == b)
  | 0x31 => x.branch f (a != b)
  | 0x32 => x.branch f (a.slt b)
  | 0x33 => x.branch f (b.sle a)
  | 0x38 => x.branch f true
  | 0x3D => .ok ({ x with ibase := a + i }).next
  | 0x3E => x.rdsr f
  | 0x3F => .ok { x with block := some .ending }
  | _ => .error .illegal

/-- The descriptor address SA + IMM of DLD and DST, checked (R138, R135). -/
def Pav.descAddr (x : Pav) (f : DescF) : Eff Nat :=
  let a := (x.sreg f.sa + sx32 f.imm).toNat
  if a % 32 ≠ 0 then .error .alignment else if bedOut a (a + 32 : Nat) then .error .bedRange else .ok a

/-- DLD (R137, R138). -/
def Pav.dld (x : Pav) (f : DescF) : Eff Pav := do
  let a ← x.descAddr f
  match BedDesc.ofBytes (x.bedRead a 32) with
  | some d => .ok ((x.setDreg f.dd d).next)
  | none => .error .reservedField

/-- DST (R116, R137). -/
def Pav.dst (x : Pav) (f : DescF) : Eff Pav := do
  let a ← x.descAddr f
  guardNot (x.hitsCode a (a + 32 : Nat)) .bedRange
  .ok ((x.bedWrite a (x.dreg f.da).bytes).next)

/-- DADD: the new BASE must lie in the bed (R138). SA + IMM is a sum modulo 2^64 taken as a signed number. -/
def Pav.dadd (x : Pav) (f : DescF) : Eff Pav :=
  let d := x.dreg f.da
  let b : Int := (d.base.toNat : Int) + (x.sreg f.sa + sx32 f.imm).toInt
  if bedOut b (b + 1) then .error .bedRange
  else .ok ((x.setDreg f.dd { d with base := BitVec.ofNat 22 b.toNat }).next)

/-- DSETF: the field that IMM[3:0] selects (Table 3-9, R138). -/
def Pav.dsetf (x : Pav) (f : DescF) : Eff Pav :=
  let d := x.dreg f.da
  let v := (x.sreg f.sa).toNat
  let go := fun (d : BedDesc) => (Except.ok (x.setDreg f.dd d).next : Eff Pav)
  match f.imm.toNat % 16 with
  | 0 => go { d with base := BitVec.ofNat 22 v }
  | 1 => go { d with fmt := BitVec.ofNat 4 v }
  | 2 => go { d with scaled := BitVec.ofNat 1 v }
  | 3 => go { d with scaleBase := BitVec.ofNat 22 v }
  | 4 => go { d with ext0 := BitVec.ofNat 16 v }
  | 5 => go { d with ext1 := BitVec.ofNat 16 v }
  | 6 => go { d with ext2 := BitVec.ofNat 16 v }
  | 7 => go { d with ext3 := BitVec.ofNat 16 v }
  | 8 => go { d with stride1 := BitVec.ofNat 32 v }
  | 9 => go { d with stride2 := BitVec.ofNat 32 v }
  | 10 => go { d with stride3 := BitVec.ofNat 32 v }
  | _ => .error .reservedField

/-- The descriptor operations (Table 3-9). -/
def descEff (op : BitVec 8) (f : DescF) (x : Pav) : Eff Pav :=
  match op.toNat with
  | 0x01 => x.dld f
  | 0x02 => x.dst f
  | 0x03 => x.dadd f
  | 0x04 => x.dsetf f
  | 0x05 => .ok ((x.setDreg f.dd (x.dreg f.da)).next)
  | _ => .error .illegal

end Sys2Proof.Machine
end

