-- ==== Sys2Proof/Machine/Tensor.lean ====
section
/-! DEFINITION. What the tensor kernel instructions do to their Pavilion (R139 to R151, R712, R713). -/

namespace Sys2Proof.Machine

/-- An accumulator slot. -/
def Pav.slot (x : Pav) (i : BitVec 1) : Option Slot := if i = 0 then x.slot0 else x.slot1
def Pav.setSlot (x : Pav) (i : BitVec 1) (s : Option Slot) : Pav := if i = 0 then { x with slot0 := s } else { x with slot1 := s }
/-- Does slot 0 hold a wide accumulator? -/
def Pav.wide0 (x : Pav) : Bool := match x.slot0 with | some s => s.kind == .wide | none => false
/-- The placement limits of R145 for naming slot `i`. -/
def Pav.slotBad (x : Pav) (i : BitVec 1) : Bool := i == 1 && x.wide0
/-- The placement limits of R145 for filling slot `i` with an accumulator of kind `k`. -/
def Pav.fillBad (x : Pav) (i : BitVec 1) (k : AccKind) : Bool :=
  x.slotBad i || (k == .wide && (i == 1 || x.slot1.isSome))

/-- Is this the slot's operand pair, in either order (R146)? -/
def Slot.samePair (s : Slot) (fa : Fmt) (sa : Bool) (fb : Fmt) (sb : Bool) : Bool :=
  (s.fa == fa && s.sa == sa && s.fb == fb && s.sb == sb) || (s.fa == fb && s.sa == sb && s.fb == fa && s.sb == sa)

/-- The operand products of cell (i, j) in rising k (R142, R147). -/
def Pav.cellProds (x : Pav) (da db : BedDesc) (fa fb : Fmt) (ta tb : Bool) (k i j : Nat) : List (Opnd × Opnd) :=
  (List.range k).map (fun t =>
    (x.elem da fa (if ta then t * da.e0 + i else i * da.e0 + t), x.elem db fb (if tb then t * db.e0 + j else j * db.e0 + t)))

/-- A cell after the products of one TMUL (R84 to R90, R147). -/
def Cell.mulAcc (kd : AccKind) (c : Cell) (ps : List (Opnd × Opnd)) : Cell × Flags :=
  match kd with
  | .float =>
    let (v, f) := floatTree c.v.toNat ps
    (⟨v, v == Fmt.fp32.nanCode, false⟩, f)
  | k => Cell.addAll k c ps

/-- TMUL (R139 to R147): formats, then shapes, then placement, then range, before any effect. -/
def Pav.tmul (x : Pav) (f : TmulF) : Eff Pav :=
  let da := x.dreg f.da; let db := x.dreg f.db
  let ta := f.ta == 1; let tb := f.tb == 1
  let sa := da.scaled == 1; let sb := db.scaled == 1
  match Fmt.ofCode da.fmt.toNat, Fmt.ofCode db.fmt.toNat with
  | some fa, some fb =>
    if !fa.scaleOk sa || !fb.scaleOk sb || (sa && ta) || (sb && tb) then .error .format
    else
      match pairKind fa sa fb sb with
      | none => .error .format
      | some kd =>
        let ka := if ta then da.e1 else da.e0
        let kb := if tb then db.e1 else db.e0
        let m := if ta then da.e0 else da.e1
        let n := if tb then db.e0 else db.e1
        if (sa && da.e0 % 32 != 0) || (sb && db.e0 % 32 != 0) then .error .shape
        else if ka ≠ kb ∨ min fa.kt fb.kt < ka ∨ 128 < m ∨ 64 < n ∨ da.e2 ≠ 1 ∨ da.e3 ≠ 1 ∨ db.e2 ≠ 1 ∨ db.e3 ≠ 1 then
          .error .shape
        else if x.fillBad f.slot kd then .error .format
        else
          let keep := match x.slot f.slot with
            | some s => if f.acc = 1 then some s else none
            | none => none
          if (match keep with | some s => !s.samePair fa sa fb sb | none => false) then .error .format
          else if (match keep with | some s => s.m != m || s.n != n | none => false) then .error .shape
          else if da.out fa.bits sa || db.out fb.bits sb then .error .bedRange
          else
            let s0 := match keep with | some s => s | none => ⟨fa, sa, fb, sb, kd, m, n, []⟩
            let r := (List.range (m * n)).foldl (fun (r : Tab Cell × Flags) c =>
              let (cell, fl) := Cell.mulAcc kd (Tab.get Cell.zero r.1 c)
                (x.cellProds da db fa fb ta tb ka (c / n) (c % n))
              (Tab.set Cell.zero r.1 c cell, r.2 ||| fl)) (s0.cells, 0)
            .ok ((x.setSlot f.slot (some { s0 with cells := r.1 })).addFlags r.2).next
  | _, _ => .error .format

/-- The seed and the index base of the share (R101, R149). -/
def Pav.seed (x : Pav) : Nat := match x.share with | some s => s.seed.toNat | none => 0

/-- Write a list of element codes from a linear index. -/
def Pav.putElems (x : Pav) (d : BedDesc) (f : Fmt) : Nat → List Nat → Pav
  | _, [] => x
  | n, c :: cs => (x.putElem d f n c).putElems d f (n + 1) cs

/-- Round values in linear order into the elements of a descriptor from index `n0`: one by one, or in blocks of 32 with
their scales; each value comes with its number of R101 (R99, R150, R156). DESIGN CHOICE (log 61): a block's scale byte is written before
the block's elements, block by block, where the scale array overlaps the elements (R136 orders elements only). -/
def Pav.roundInto (x : Pav) (d : BedDesc) (f : Fmt) (mode n0 : Nat) (vs : List (Val × Nat)) : Pav :=
  if d.scaled = 1 then
    ((chunks 32 vs).zip (List.range vs.length)).foldl (fun x b =>
      let (sc, cs, fl) := roundBlock f mode b.1
      let n := n0 + 32 * b.2
      ((x.bedWrite (d.scaleAt n) [BitVec.ofNat 8 sc]).putElems d f n cs).addFlags fl) x
  else
    let rs := vs.map (fun v => convTo f mode v.2 v.1)
    (x.putElems d f n0 (rs.map Prod.fst)).addFlags (rs.foldl (fun a r => a ||| r.2) 0)

/-- TREAD (R148 to R150). -/
def Pav.tread (x : Pav) (f : TreadF) : Eff Pav := do
  let d := x.dreg f.dd
  guardNot (decide (4 < f.rmode.toNat) || x.slotBad f.slot) .format
  match x.slot f.slot with
  | none => .error .format
  | some s =>
    let fmt ← (match Fmt.ofCode d.fmt.toNat with
      | some g => if g.scaleOk (d.scaled == 1) then .ok g else .error .format
      | none => .error .format)
    guardNot (d.e0 != s.n || d.e1 != s.m || d.e2 != 1 || d.e3 != 1 || (d.scaled == 1 && s.n % 32 != 0)) .shape
    let _ ← d.check
    guardNot (x.writeHits d fmt.bits 0 d.count) .bedRange
    let vs := (List.range (s.m * s.n)).map (fun c =>
      ((Tab.get Cell.zero s.cells c).val s.kind, stochR x.seed ((x.ibase.toNat + c) % 2 ^ 64)))
    let x := x.roundInto d fmt f.rmode.toNat 0 vs
    .ok (if f.clr = 1 then x.setSlot f.slot none else x).next

/-- TCLR: the slot becomes empty (R141, R145). -/
def Pav.tclr (x : Pav) (f : TclrF) : Eff Pav := do
  guardNot (x.slotBad f.slot) .format
  .ok (x.setSlot f.slot none).next

/-- Bytes of one cell in an image (R151). -/
def AccKind.cellBytes : AccKind → Nat
  | .float => 4 | .narrow _ => 16 | .wide => 80

/-- One cell as it is stored in an image (R151, R712). -/
def Cell.image (k : AccKind) (c : Cell) : Bytes :=
  match k with
  | .float => leBytes 4 (if c.nan then Fmt.fp32.nanCode else c.v.toNat)
  | k => let n := k.cellBytes; leBytes n (if c.nan then 2 ^ (8 * n - 1) else toTwos (8 * n) c.v)

/-- The state map of an image: two bits per cell (R712). -/
def Slot.stateMap (s : Slot) : Bytes :=
  leBytes ((s.m * s.n + 3) / 4) ((List.range (s.m * s.n)).foldl (fun a c =>
    let x := Tab.get Cell.zero s.cells c
    a + bit x.nan * 2 ^ (2 * c) + bit x.sat * 2 ^ (2 * c + 1)) 0)

/-- Has any cell a state that the map records? -/
def Slot.hasState (s : Slot) : Bool := s.cells.any (fun e => e.2.nan || e.2.sat)

/-- The image of a slot: header, cells, state map (R151, R712). -/
def Slot.image (s : Slot) : Bytes :=
  [BitVec.ofNat 8 (s.fa.code + 16 * s.fb.code), BitVec.ofNat 8 (bit s.sa + 2 * bit s.sb), BitVec.ofNat 8 (s.m - 1),
    BitVec.ofNat 8 (s.n - 1), BitVec.ofNat 8 (bit s.hasState)] ++ List.replicate 59 0 ++
  (List.range (s.m * s.n)).flatMap (fun c => (Tab.get Cell.zero s.cells c).image s.kind) ++
  (if s.hasState then s.stateMap else [])

/-- TSAVE (R151). -/
def Pav.tsave (x : Pav) (f : TimgF) : Eff Pav := do
  guardNot (x.slotBad f.slot) .format
  match x.slot f.slot with
  | none => .error .format
  | some s =>
    let a := (x.dreg f.dd).base.toNat
    let img := s.image
    guardNot (a % 64 != 0) .alignment
    guardNot (bedOut a (a + img.length : Nat) || x.hitsCode a (a + img.length : Nat)) .bedRange
    .ok (x.bedWrite a img).next

/-- Restore one cell from its stored integer and its two map bits; none when R713 forbids it. -/
def Cell.restore (k : AccKind) (raw : Nat) (nan sat : Bool) : Option Cell :=
  if nan && sat then none
  else
    match k with
    | .float =>
      if sat then none
      else if nan then (if raw = Fmt.fp32.nanCode then some ⟨raw, true, false⟩ else none)
      else if raw / 2 ^ 23 % 256 = 255 then none else some ⟨raw, false, false⟩
    | k =>
      let w := 8 * k.cellBytes
      let v := sInt w raw
      if nan then (if raw = 2 ^ (w - 1) then some ⟨0, true, false⟩ else none)
      else if sat then
        (if k == .wide then none else if v = 2 ^ (w - 1) - 1 ∨ v = -(2 ^ (w - 1) : Int) then some ⟨v, false, true⟩ else none)
      else some ⟨v, false, false⟩

/-- Read the cells of an image; none when any check of R713's third step fails. -/
def restoreCells (k : AccKind) (mn : Nat) (cells map : Bytes) (hasMap : Bool) : Option (Tab Cell) :=
  let mv := leNat map
  if hasMap && (mv % 2 ^ (2 * mn) == 0 || mv / 2 ^ (2 * mn) != 0) then none
  else
    (List.range mn).foldl (fun acc c =>
      match acc, Cell.restore k (leNat ((cells.drop (k.cellBytes * c)).take k.cellBytes))
          (hasMap && mv.testBit (2 * c)) (hasMap && mv.testBit (2 * c + 1)) with
      | some t, some x => some (Tab.set Cell.zero t c x)
      | _, _ => none) (some [])

/-- TLOAD (R145, R151, R713): header, placement, shape, range, cells and map, in this order. DESIGN CHOICE (log 16): the alignment of the
image (R151) and the range of its 64-byte header come before the checks of R713, which need the header. -/
def Pav.tload (x : Pav) (f : TimgF) : Eff Pav := do
  let a := (x.dreg f.dd).base.toNat
  guardNot (a % 64 != 0) .alignment
  guardNot (bedOut a (a + 64 : Nat)) .bedRange
  let h := x.bedRead a 64
  let b := fun i => (h.getD i 0).toNat
  guardNot (decide (3 < b 1) || decide (1 < b 4) || (h.drop 5).any (· != 0)) .format
  match Fmt.ofCode (b 0 % 16), Fmt.ofCode (b 0 / 16) with
  | some fa, some fb =>
    let sa := b 1 % 2 == 1; let sb := b 1 / 2 == 1
    guardNot (!fa.scaleOk sa || !fb.scaleOk sb) .format
    match pairKind fa sa fb sb with
    | none => .error .format
    | some k =>
      guardNot (x.fillBad f.slot k) .format
      let m := b 2 + 1; let n := b 3 + 1
      guardNot (decide (128 < m) || decide (64 < n)) .shape
      let hasMap := b 4 == 1
      let cl := k.cellBytes * (m * n)
      let ml := if hasMap then (m * n + 3) / 4 else 0
      guardNot (bedOut a (a + 64 + cl + ml : Nat)) .bedRange
      match restoreCells k (m * n) (x.bedRead (a + 64) cl) (x.bedRead (a + 64 + cl) ml) hasMap with
      | some cells => .ok (x.setSlot f.slot (some ⟨fa, sa, fb, sb, k, m, n, cells⟩)).next
      | none => .error .format
  | _, _ => .error .format

end Sys2Proof.Machine
end

