-- ==== Sys2Proof/Machine/Vector.lean ====
section
/-! DEFINITION. What the vector kernel instructions do to their Pavilion (R107 to R110, R152 to R161). -/

namespace Sys2Proof.Machine

/-- Active lanes. -/
def vLanes (f : VecF) : Nat := f.nlane.toNat + 1

/-- Give each active lane of VD a result with flags; the other lanes keep their values (R153). -/
def Pav.mapLanes (x : Pav) (f : VecF) (g : Nat → Nat × Flags) : Pav :=
  let rs := (List.range (vLanes f)).map (fun i => (i, g i))
  (rs.foldl (fun y r => y.setLane f.vd r.1 r.2.1) x).addFlags (rs.foldl (fun a r => a ||| r.2.2) 0)

/-- The 256 lanes of VA with inactive lanes +0 (R153). -/
def Pav.lanesOf (x : Pav) (f : VecF) : List Nat := (List.range 256).map (fun i => if i < (vLanes f) then x.lane f.va i else 0)

/-- Lane 0 of VD takes a reduction of VA (R108, R153). -/
def Pav.reduceLanes (x : Pav) (f : VecF) (op : Nat → Nat → Nat × Flags) : Pav :=
  let (v, fl) := treeFold op 8 (x.lanesOf f)
  (x.setLane f.vd 0 v).addFlags fl

/-- The checks of VLD and VST on their descriptor and element range (R134, R135, R156, R711). -/
def Pav.vecDesc (x : Pav) (f : VecF) : Eff Fmt :=
  let d := x.dreg f.d
  match Fmt.ofCode d.fmt.toNat with
  | none => .error .format
  | some g =>
    if !g.scaleOk (d.scaled == 1) then .error .format
    else if d.count < (x.sreg f.sx).toNat + (vLanes f) then .error .shape
    else d.check

/-- VLD (R156). -/
def Pav.vld (x : Pav) (f : VecF) : Eff Pav := do
  let fmt ← x.vecDesc f
  let d := x.dreg f.d
  .ok (x.mapLanes f (fun i =>
    let o := x.elem d fmt ((x.sreg f.sx).toNat + i)
    let (v, fl) := elemVal o.fmt o.scale o.code
    let (c, gl) := convTo .fp32 f.rmode.toNat 0 v
    (c, fl ||| gl))).next

/-- VST (R116, R156). -/
def Pav.vst (x : Pav) (f : VecF) : Eff Pav := do
  let fmt ← x.vecDesc f
  let d := x.dreg f.d
  let n0 := (x.sreg f.sx).toNat
  guardNot (d.scaled == 1 && (n0 % 32 != 0 || (vLanes f) % 32 != 0)) .shape
  guardNot (x.writeHits d fmt.bits n0 (vLanes f)) .bedRange
  let vs := (List.range (vLanes f)).map (fun i =>
    let (v, fl) := fpVal (x.lane f.va i)
    ((v, stochR x.seed ((x.ibase.toNat + n0 + i) % 2 ^ 64)), fl))
  .ok ((x.roundInto d fmt f.rmode.toNat n0 (vs.map Prod.fst)).addFlags (vs.foldl (fun a v => a ||| v.2) 0)).next

/-- VCVT of one lane: into the format and back to FP32 (R157, R158). -/
def vcvtLane (fmt : Fmt) (mode r a : Nat) : Nat × Flags :=
  let (v, fl) := fpVal a
  let (c, gl) := convTo fmt mode r v
  let (w, _) := elemVal fmt 0x7F c
  ((convTo .fp32 0 0 w).1, fl ||| gl)

/-- The table function of R161: `w` gives the word at a byte offset of the table. -/
def tabEval (w : Nat → Nat) (a : Nat) : Nat × Flags :=
  if (fpVal a).1 = .nan then (Fmt.fp32.nanCode, flNan)
  else
    let (s, f1) := fpSub 0 a (w 0)
    let (u, f2) := fpMul 0 s (w 4)
    match (fpVal u).1 with
    | .nan => (Fmt.fp32.nanCode, f1 ||| f2 ||| flNan)
    | .num neg mag =>
      let i := if neg then 0 else min 63 (mag / 2 ^ 320)
      let (c, f3) := fpFma 0 (w (16 + 8 * i)) a (w (20 + 8 * i))
      (c, f1 ||| f2 ||| f3)

/-- VTAB of one lane: the table at `base` in the bed (R161). -/
def Pav.vtabLane (x : Pav) (base a : Nat) : Nat × Flags := tabEval (fun off => leNat (x.bedRead (base + off) 4)) a

/-- VTAB (R161). -/
def Pav.vtab (x : Pav) (f : VecF) : Eff Pav := do
  let base := (x.dreg f.d).base.toNat
  guardNot (base % 16 != 0) .alignment
  guardNot (bedOut base (base + 528 : Nat)) .bedRange
  .ok (x.mapLanes f (fun i => x.vtabLane base (x.lane f.va i))).next

/-- The vector operations (Table 3-13), after the checks of R154 and R158 and of reserved rounding modes (R59). -/
def vecEff (op : BitVec 8) (f : VecF) (x : Pav) : Eff Pav := do
  let m := f.rmode.toNat
  guardNot (decide (255 < f.nlane.toNat)) .shape
  guardNot (decide (4 < m) || (m == 4 && op != 0x02 && op != 0x30)) .format
  let a := fun i => x.lane f.va i
  let b := fun i => x.lane f.vb i
  match op.toNat with
  | 0x01 => x.vld f
  | 0x02 => x.vst f
  | 0x03 => .ok (x.mapLanes f (fun _ => ((x.sreg f.sx).toNat % 2 ^ 32, 0))).next
  | 0x04 => if f.nlane ≠ 0 then .error .shape else .ok (x.setS f.sx (BitVec.ofNat 64 (a 0))).next
  | 0x10 => .ok (x.mapLanes f (fun i => fpAdd m (a i) (b i))).next
  | 0x11 => .ok (x.mapLanes f (fun i => fpSub m (a i) (b i))).next
  | 0x12 => .ok (x.mapLanes f (fun i => fpMul m (a i) (b i))).next
  | 0x13 => .ok (x.mapLanes f (fun i => fpFma m (a i) (b i) (x.lane f.vc i))).next
  | 0x14 => .ok (x.mapLanes f (fun i => fpMax (a i) (b i))).next
  | 0x15 => .ok (x.mapLanes f (fun i => fpMin (a i) (b i))).next
  | 0x16 => .ok (x.mapLanes f (fun i => fpAbs (a i))).next
  | 0x17 => .ok (x.mapLanes f (fun i => fpNeg (a i))).next
  | 0x20 => .ok (x.reduceLanes f (fpAdd 0)).next
  | 0x21 => .ok (x.reduceLanes f fpMax).next
  | 0x30 =>
    match Fmt.ofCode f.d.toNat with
    | some fmt =>
      if fmt.mustScale then .error .format
      else .ok (x.mapLanes f (fun i => vcvtLane fmt m (stochR x.seed ((x.ibase.toNat + i) % 2 ^ 64)) (a i))).next
    | none => .error .format
  | 0x31 => .ok (x.mapLanes f (fun i => volog2 m (a i))).next
  | 0x32 => .ok (x.mapLanes f (fun i =>
      let (c, fl) := oexp2 m (a i)
      ((convTo .fp32 0 0 (elemVal .os12 0x7F c).1).1, fl))).next
  | 0x33 => x.vtab f
  | _ => .error .illegal

end Sys2Proof.Machine
end

