-- ==== Sys2Proof/Machine/Pavilion.lean ====
section
/-! DEFINITION. Taking a Pavilion fault as one shared operation, reporting it to the queue engine, and issuing a kernel
instruction (R118, R121 to R125, R185 to R188). -/

namespace Sys2Proof.Machine

/-- The fault codes of Table 3-19. -/
def faultNum : FaultCode → Nat
  | .none => 0x00 | .illegal => 0x01 | .reservedField => 0x02 | .format => 0x03 | .shape => 0x04 | .bedRange => 0x05
  | .alignment => 0x06 | .access => 0x07 | .eventOverflow => 0x08 | .shareLimit => 0x09 | .eventSources => 0x0A
  | .remote => 0x0B | .memory => 0x0C | .bedEcc => 0x10 | .stewardCheck => 0x11 | .engineCheck => 0x12 | .island => 0x13

/-- The completion status a program or environment fault gives (Table 3-19). -/
def faultStatus : FaultCode → Nat
  | .format => 0x20 | .access => 0x31 | .shareLimit => 0x7F | .remote => 0x40 | .memory => 0x50 | .none => 0x00 | _ => 0x21

/-- Is it a hardware fault, handled by replay (Table 3-19)? -/
def isHardware : FaultCode → Bool
  | .bedEcc | .stewardCheck | .engineCheck | .island => true
  | _ => false

/-! ### Accepted descriptors of a queue -/

/-- Change the accepted descriptor with a sequence number. -/
def Dev.updExec (d : Dev) (q seq : Nat) (f : Exec → Exec) : Dev :=
  d.updQueue q (fun x => { x with execs := updFirst (fun e => e.seq == seq) f x.execs })
/-- The accepted, uncommitted descriptor with a sequence number. -/
def Dev.exec? (d : Dev) (q seq : Nat) : Option Exec := (d.queue q).execs.find? (fun e => e.seq == seq)
/-- Set the state of one named share, by logical index. -/
def Exec.setShare (e : Exec) (l : Nat) (st : ShareSt) : Exec :=
  { e with shares := e.shares.map (fun s => if s.1 = l then (l, st) else s) }

/-! ### Faults -/

/-- Record a fault in the Pavilion's window and raise PAV_FAULT_EVT (R187). -/
def Dev.recordFault (d : Dev) (p : Nat) (code : FaultCode) (pc : BitVec 22) (word : Word64) : Dev :=
  let d := d.setFld (Reg.PAV_FAULT p) F.PAV_FAULT_PC pc.toNat
  let d := d.setFld (Reg.PAV_FAULT p) F.PAV_FAULT_CODE (faultNum code)
  let d := d.setReg (Reg.PAV_FAULT_INSN_LO p) (BitVec.ofNat 32 (word.toNat % 2 ^ 32))
  let d := d.setReg (Reg.PAV_FAULT_INSN_HI p) (BitVec.ofNat 32 (word.toNat / 2 ^ 32))
  d.raise (Reg.PAV_FAULT_EVT p)

/-- Report a program or environment fault of a share: the status of the share of lowest RANK stands (R188). -/
def Dev.reportFault (d : Dev) (s : Share) (code : FaultCode) (pc : BitVec 22) : Dev :=
  d.updExec s.q s.seq (fun e =>
    let e := e.setShare s.lpav .stopped
    match e.faultRank with
    | some r => if r ≤ s.rank then e else
        { e with status := faultStatus code, fault := faultNum code, lpav := s.lpav, pc := pc.toNat, faultRank := some s.rank }
    | none => { e with status := faultStatus code, fault := faultNum code, lpav := s.lpav, pc := pc.toNat, faultRank := some s.rank })

/-- Taking a program or environment fault: the steward stops at an instruction boundary, records the fault, raises the
event and reports to the queue engine (R185 to R188). -/
def Dev.takeFault (d : Dev) (p : Nat) (code : FaultCode) (pc : BitVec 22) (word : Word64) : Dev :=
  let x := d.pav p
  let d := d.recordFault p code pc word
  let d := d.setPav p { x with faulted := true, block := none, deferred := none }
  match x.share with
  | some s => d.reportFault s code pc
  | none => d

/-! ### Issue -/

/-- Does a share run on a Pavilion: it is not stopped, and no clamp, quiesce, debug halt or missing clock stalls it (R35, R50, R52)? -/
def Dev.running (d : Dev) (p : Nat) : Bool :=
  let x := d.pav p
  x.share.isSome && !x.faulted && !x.stopped && !x.halted && !x.clearing && !x.withdrawn && !x.settling && !d.quiesced && d.computeOn
/-- May the steward of a Pavilion issue: its share runs and nothing it waits for blocks it? -/
def Dev.canIssue (d : Dev) (p : Nat) : Bool := d.running p && (d.pav p).block.isNone
/-- The voltage of a Pavilion's supply rail in mV: that of its factory table, 0 while the compute branch is off (R28, R181). -/
def Dev.railMv (d : Dev) (p : Nat) : Nat := if d.sup.compute then Config.railMv p (d.pav p).rail else 0

/-- Is the program counter at a word of the code image (R125)? -/
def Pav.pcOk (x : Pav) : Bool :=
  match x.share with
  | some s => decide (s.code.toNat ≤ x.pc.toNat ∧ x.pc.toNat + 8 ≤ s.code.toNat + s.codeLen) && x.pc.toNat % 8 == 0
  | none => false

/-- The word in the bed at the program counter. -/
def Pav.word (x : Pav) : Word64 := BitVec.ofNat 64 (leNat (x.bedRead x.pc.toNat 8))

/-- The program counter as a bed address. -/
def Pav.pc22 (x : Pav) : BitVec 22 := x.pc.setWidth 22


/-- An effect on the Pavilion alone. -/
def Dev.onPav (d : Dev) (p : Nat) (f : Pav → Eff Pav) : Eff Dev :=
  match f (d.pav p) with
  | .ok x => .ok (d.setPav p x)
  | .error c => .error c

/-- Count corrected bed errors of a read (R112). -/
def Dev.bedCorrected (d : Dev) (p n : Nat) : Dev :=
  if n = 0 then d else d.bump (Reg.PAV_BED_ECC p) F.PAV_BED_ECC_CORRECTED n

/-- The steward issues one word of Pavilion `p`: a deferred fault stops it first (R186); a fetch outside the code image
is ILLEGAL (R125); the bed errors corrected on the way are counted (R112), and the effect is whole or a fault is taken before any
of it (R118, R186). -/
def Dev.issue (d : Dev) (p ce : Nat) (word : Word64) (bad : Option FaultCode) (eff : Dev → Eff Dev) : Dev :=
  if !d.canIssue p then d
  else
    let x := d.pav p
    match x.deferred with
    | some (c, pc, w) => d.takeFault p c pc w
    | none =>
      if !x.pcOk then (d.bedCorrected p ce).takeFault p .illegal x.pc22 x.word
      else
        let d := d.bedCorrected p ce
        match bad with
        | some c => d.takeFault p c x.pc22 word
        | none =>
          match eff d with
          | .ok d => d
          | .error c => d.takeFault p c x.pc22 word

/-- A data-movement instruction of a share has left the outstanding list. -/
def Pav.dropXfer (x : Pav) (id : Nat) : Pav := { x with xfers := x.xfers.filter (fun t => t.id != id) }

/-- Defer a fault that a report brings for an outstanding transfer; the first report stands (R186). A steward that
waits stands at an instruction boundary and stops at once. -/
def Dev.deferFault (d : Dev) (p id : Nat) (code : FaultCode) : Dev :=
  let x := d.pav p
  match x.xfers.find? (fun t => t.id == id) with
  | none => d
  | some t =>
    let x := x.dropXfer id
    if x.faulted then d.setPav p x
    else if x.block.isSome && x.deferred.isNone then (d.setPav p x).takeFault p code t.pc t.word
    else d.setPav p { x with deferred := match x.deferred with | some e => some e | none => some (code, t.pc, t.word) }

/-- Signal a counter of the Pavilion: a sum above 0xFFFF_FFFF stops the receiving share (R176). -/
def Dev.addEvent (d : Dev) (p : Nat) (evn : BitVec 6) (n : Word32) : Dev :=
  let x := d.pav p
  if (x.evc evn).toNat + n.toNat < 2 ^ 32 then d.setPav p (x.setEvc evn (x.evc evn + n))
  else if x.share.isSome && !x.faulted then d.takeFault p .eventOverflow x.pc22 x.word
  else d

end Sys2Proof.Machine
end

