-- ==== Sys2Proof/Machine/TrlOps.lean ====
section
/-! DEFINITION. The Trellis operations that other units share: frames and their fields, routing, link flits, send
streams (R440 to R452, R458 to R466). -/

namespace Sys2Proof.Machine

/-! ### Frames (Tables 9-4 to 9-6) -/

/-- A field of ARGS. -/
def Frame.arg (f : Frame) (lo w : Nat) : Nat := bitsOf f.args.toNat lo w

/-- The 48-byte header and the payload of a frame as bytes (Table 9-4). -/
def Frame.bytes (f : Frame) : Bytes :=
  [f.typ, BitVec.ofNat 8 (bit f.last * 128 + f.hops.toNat)] ++ leBytes 2 f.payload.length ++ leBytes 2 f.dst.toNat ++
  leBytes 2 f.src.toNat ++ leBytes 8 f.token.toNat ++ leBytes 4 f.seq.toNat ++ leBytes 4 f.nonce.toNat ++
  leBytes 4 f.off.toNat ++ leBytes 4 f.msg.toNat ++ leBytes 16 f.args.toNat ++ f.payload

/-- HOPS at injection (Table 9-11). -/
def Dev.hopLimit (d : Dev) : BitVec 6 := BitVec.ofNat 6 (max 1 (d.fld Reg.TRL_CTRL F.TRL_CTRL_HOP_LIMIT))

/-- A frame of this module, its stream fields still 0. -/
def Dev.mkFrame (d : Dev) (typ : Byte) (dst : BitVec 16) (token : Word64) (args : Nat) (payload : Bytes) : Frame :=
  { typ := typ, last := true, hops := d.hopLimit, dst := dst, src := d.moduleId, token := token, seq := 0, nonce := 0, off := 0,
    msg := 0, args := BitVec.ofNat 128 args, payload := payload }

/-- A frame from its bytes (Table 9-4). -/
def Frame.ofBytes (b : Bytes) : Frame :=
  let w := fun o n => leNat ((b.drop o).take n)
  { typ := b.getD 0 0, last := (w 1 1).testBit 7, hops := BitVec.ofNat 6 (w 1 1), dst := BitVec.ofNat 16 (w 4 2), src := BitVec.ofNat 16 (w 6 2),
    token := BitVec.ofNat 64 (w 8 8), seq := BitVec.ofNat 32 (w 16 4), nonce := BitVec.ofNat 32 (w 20 4), off := BitVec.ofNat 32 (w 24 4),
    msg := BitVec.ofNat 32 (w 28 4), args := BitVec.ofNat 128 (w 32 16), payload := b.drop 48 }

/-- Zeros up to a multiple of 16 bytes (Table 9-4). -/
def padTo16 (b : Bytes) : Bytes := b ++ List.replicate ((16 - b.length % 16) % 16) 0

/-- Cut a message into frames of at most 1,024 payload bytes with rising OFFSET (R444). -/
def Dev.mkMessage (d : Dev) (typ : Byte) (dst : BitVec 16) (token : Word64) (args : Nat) (payload : Bytes) : List Frame :=
  let cs := if payload.isEmpty then [[]] else chunks 1024 payload
  (cs.zip (List.range cs.length)).map (fun c =>
    { d.mkFrame typ dst token args c.1 with last := c.2 + 1 == cs.length, off := BitVec.ofNat 32 (1024 * c.2) })

/-! ### Link flits (R440) -/

/-- One bit step of the CRC-64. -/
def crcBit (c : Nat) : Nat := if c < 2 ^ 63 then 2 * c else ((2 * c) % 2 ^ 64) ^^^ 0x42F0E1EBA9EA3693
/-- The CRC-64 of R440 over a byte string, most significant bit first. -/
def crc64 (bs : Bytes) : Nat :=
  (bs.foldl (fun c b => (List.range 8).foldl (fun c _ => crcBit c) (c ^^^ (b.toNat * 2 ^ 56))) (2 ^ 64 - 1)) ^^^ (2 ^ 64 - 1)

/-- Is the CRC of a link flit correct? -/
def Flit.crcOk (f : Flit) : Bool := f.crc.toNat == crc64 (f.hdr ++ f.data)

/-- The channels of the frames that start among some bytes, one bit each. -/
def tvMarks (bs : List TxByte) : Nat :=
  let ms := bs.filterMap Prod.snd
  ((ms.zip (List.range ms.length)).map (fun m => bit m.1 * 2 ^ m.2)).sum

/-- A link flit with its CRC. DESIGN CHOICE (log 27): the manual does not place the fields of the link header; the model's order is the
sequence, the next sequence expected of the peer, the credits returned for TV0 and TV1, and the channels of the frames that start in it. -/
def mkFlit (seq ack : BitVec 16) (c0 c1 : Nat) (bs : List TxByte) : Flit :=
  let hdr := leBytes 2 seq.toNat ++ leBytes 2 ack.toNat ++ leBytes 1 c0 ++ leBytes 1 c1 ++ leBytes 2 (tvMarks bs)
  let data := (bs.map Prod.fst ++ List.replicate 496 0).take 496
  ⟨seq, hdr, data, BitVec.ofNat 64 (crc64 (hdr ++ data))⟩

/-- The fields of a received link header: acknowledgement, credits of TV0 and TV1, channels of the frames that start in it. -/
def Flit.ack (f : Flit) : BitVec 16 := BitVec.ofNat 16 (leNat ((f.hdr.drop 2).take 2))
def Flit.credit0 (f : Flit) : Nat := (f.hdr.getD 4 0).toNat
def Flit.credit1 (f : Flit) : Nat := (f.hdr.getD 5 0).toNat
def Flit.tvs (f : Flit) : List Bool := (List.range 16).map (fun k => (leNat ((f.hdr.drop 6).take 2)).testBit k)

/-- Take whole frames off received bytes (R440): the frames with their channels, the bytes left of the last one, and its channel. `cur` is
the channel of a frame that began in an earlier flit. A zero where a frame would begin is the end of a flit's frame data. -/
def unpack : Nat → List Bool → Option Bool → Bytes → List (Frame × Bool) × Bytes × Bool
  | 0, _, _, _ => ([], [], false)
  | n + 1, tvs, cur, buf =>
    if buf.getD 0 0 = 0 then ([], [], false)
    else
      let tv := cur.getD (tvs.headD false)
      let tvs := if cur.isSome then tvs else tvs.tail
      let len := 48 + leNat ((buf.drop 2).take 2)
      if buf.length < 4 ∨ buf.length < len then ([], buf, tv)
      else
        let (fs, r, c) := unpack n tvs none (buf.drop len)
        ((Frame.ofBytes (buf.take len), tv) :: fs, r, c)

/-! ### Routing (R462 to R465) -/

/-- Is a port ACTIVE? -/
def Dev.portActive (d : Dev) (p : Nat) : Bool := (d.port p).st == .active

/-- The ACTIVE ports of a routing group, lowest first; a reserved group has none. -/
def Dev.groupPorts (d : Dev) (g : Nat) : List Nat :=
  if g < 18 then (List.range 18).filter (fun p => (d.reg (Reg.TRL_GROUP g)).toNat.testBit p && d.portActive p) else []

/-- The four routes of a destination, in order. -/
def Dev.routes (d : Dev) (dst : BitVec 16) : List Nat :=
  let r := Reg.TRL_ROUTE dst.toNat
  [d.fld r F.TRL_ROUTE_G0, d.fld r F.TRL_ROUTE_G1, d.fld r F.TRL_ROUTE_G2, d.fld r F.TRL_ROUTE_G3]

/-- Does a destination have a VALID route entry that may be used (Table 9-19)? -/
def Dev.routeValid (d : Dev) (dst : BitVec 16) : Bool :=
  dst != 0 && dst != 0xFFFF && dst != d.moduleId && d.fld (Reg.TRL_ROUTE dst.toNat) F.TRL_ROUTE_VALID == 1

/-- The port a frame takes (R463). -/
def Dev.routePort (d : Dev) (f : Frame) : Option Nat :=
  if !d.routeValid f.dst then none
  else
    match ((d.routes f.dst).map d.groupPorts).find? (fun ps => !ps.isEmpty) with
    | some ps => ps[(f.src ^^^ f.dst).toNat % ps.length]?
    | none => none

/-- Does every route of a destination's entry name a group with no ACTIVE port (R466)? -/
def Dev.routeDead (d : Dev) (dst : BitVec 16) : Bool :=
  d.routeValid dst && (d.routes dst).all (fun g => (d.groupPorts g).isEmpty)

/-- Put a frame at the end of a port's queue, with the virtual channel it travels on (R442). -/
def Dev.enqueue (d : Dev) (p : Nat) (f : Frame) (tv1 : Bool) : Dev :=
  d.updPort p (fun x => { x with queue := x.queue ++ [((x.queue.foldl (fun a e => max a (e.1 + 1)) 0), f, tv1)] })

/-- The DATELINE bit of a port. -/
def Dev.dateline (d : Dev) (p : Nat) : Bool := d.fld (Reg.TRL_PORT_CFG p) F.TRL_PORT_CFG_DATELINE == 1

/-- Queue a frame of this module on the port it is routed to, or drop and count it (R435, R444, R463, R465). -/
def Dev.inject (d : Dev) (f : Frame) : Dev :=
  let f : Frame := { f with hops := d.hopLimit, src := d.moduleId }
  match d.routePort f with
  | some p => d.enqueue p f (d.dateline p)
  | none => d.raise Reg.TRL_DROP_EVT

/-! ### Transmission on a port (R440, R441, R459 to R461) -/

/-- Bytes of frame data in one link flit, which is one slot (R440, R459). -/
def slotBytes : Nat := 496

/-- Bytes that a frame takes in the data areas of link flits, where frames lie back to back (R440). -/
def frameBytes (f : Frame) : Nat := 48 + f.payload.length

/-- Is it a STREAM or MSG_ACK frame (Table 9-8 priority 1)? -/
def frameCtl (f : Frame) : Bool := f.typ == 6 || f.typ == 8

/-- The allotment whose slots a queued frame uses; none for priority 3 (R459, R460). -/
def Dev.slotOwner (d : Dev) (f : Frame) : Option Nat :=
  let a := d.allotOfToken f.token
  if f.typ = 7 ∨ a = 0 ∨ (d.allot a).st = .clearing then none else some a

/-- A queued frame with its number and its virtual channel. -/
abbrev QFrame := Nat × Frame × Bool

/-- Take frames in order while a budget of bytes lasts: the frames taken, the others, the bytes left unused, and the bytes that the last
frame taken needs beyond the budget. -/
def takeSlots (ok : Frame → Bool) : Nat → List QFrame → List QFrame × List QFrame × Nat × Nat
  | b, [] => ([], [], b, 0)
  | b, e :: r =>
    if ok e.2.1 && decide (0 < b) then
      if frameBytes e.2.1 ≤ b then
        let (t, l, b', o) := takeSlots ok (b - frameBytes e.2.1) r
        (e :: t, l, b', o)
      else ([e], r, 0, frameBytes e.2.1 - b)
    else
      let (t, l, b', o) := takeSlots ok b r
      (t, e :: l, b', o)

/-- Frames in round robin among their owners: the first of each, then the second of each, and so on (Table 9-8 priority 4). -/
def roundRobin (own : QFrame → Option Nat) (q : List QFrame) : List QFrame :=
  let ixd := (q.zip (List.range q.length)).map (fun e => (e.1, ((q.take e.2).filter (fun f => own f == own e.1)).length))
  (List.range q.length).flatMap (fun k => (ixd.filter (fun e => e.2 == k)).map Prod.fst)

/-- The slots of a period as they are given out: the frames that go, those that wait, the bytes that owners leave unused, the bytes that
owners' last frames take out of later periods, the slots of CLEARING allotments, and the bytes of shares that priority 1 takes. -/
structure SlotUse where
  go : List QFrame
  wait : List QFrame
  spare : Nat
  debt : Tab Nat
  idle : Nat
  taken : Nat
  deriving DecidableEq, Repr

/-- The slots of one allotment with a share: those of a CLEARING one carry link-idle flits and pass to nobody (R460). -/
def Dev.ownSlots (d : Dev) (owed : Tab Nat) (p : Nat) (u : SlotUse) (e : Nat × Allot) : SlotUse :=
  let share := slotBytes * Tab.get 0 e.2.shares p
  let cut := min share u.taken
  if e.2.st = .clearing then { u with taken := u.taken - cut, idle := u.idle + (share - cut) / slotBytes }
  else
    let due := Tab.get 0 owed e.1
    let (t, q, b, o) := takeSlots (fun f => !frameCtl f && d.slotOwner f == some e.1) (share - cut - due) u.wait
    { go := u.go ++ t, wait := q, spare := u.spare + b, debt := Tab.set 0 u.debt e.1 (o + (due - (share - cut))), idle := u.idle, taken := u.taken - cut }

/-- One period of 64 link flits, in the order of Table 9-8. A frame takes of a slot what bytes it has (R461). Frames of priority 1 take
slots that no allotment holds first, then the shares of CLEARING allotments, then those of others (log 90). What a last frame takes beyond
its owner's slots (key 0: slots of no allotment) comes out of later periods. -/
def Dev.period (d : Dev) (p : Nat) (q : List QFrame) : SlotUse :=
  let owed := (d.port p).debt
  let (t1, q, b1, _) := takeSlots frameCtl (4 * slotBytes) q
  let bound := d.allots.filter (fun e => Tab.get 0 e.2.shares p != 0)
  let unbound := slotBytes * (64 - (bound.map (fun e => Tab.get 0 e.2.shares p)).sum)
  let used := 4 * slotBytes - b1
  let u := (bound.filter (fun e => e.2.st == .clearing) ++ bound.filter (fun e => e.2.st != .clearing)).foldl (d.ownSlots owed p)
    { go := t1, wait := q, spare := 0, debt := [], idle := 0, taken := used - unbound }
  let free := unbound - used + u.spare
  let due := Tab.get 0 owed 0
  let (t3, q, b3, o3) := takeSlots (fun f => !frameCtl f && (d.slotOwner f).isNone) (free - due) u.wait
  let (t4, q, _, o4) := takeSlots (fun f => !frameCtl f) b3 (roundRobin (fun e => d.slotOwner e.2.1) q)
  { u with go := u.go ++ t3 ++ t4, wait := q, debt := Tab.set 0 u.debt 0 (o3 + o4 + (due - free)) }

/-- The queued frames for which their channel has credit, in order (R442). -/
def withCredit : Nat → Nat → List QFrame → List QFrame
  | _, _, [] => []
  | c0, c1, e :: r =>
    if e.2.2 then (if c1 = 0 then withCredit c0 0 r else e :: withCredit c0 (c1 - 1) r)
    else (if c0 = 0 then withCredit 0 c1 r else e :: withCredit (c0 - 1) c1 r)

/-- The bytes of a queued frame, its channel at the first. -/
def txBytes (e : QFrame) : List TxByte :=
  match Frame.bytes e.2.1 with
  | [] => []
  | b :: t => (b, some e.2.2) :: t.map (fun b => (b, none))

/-- Send one link flit on a port, with what it owes its peer; the replay buffer keeps it until it is acknowledged (R441). -/
def Dev.sendFlit (d : Dev) (p : Nat) (bs : List TxByte) : Dev :=
  let x := d.port p
  let c0 := min 255 x.owed0
  let c1 := min 255 x.owed1
  let f := mkFlit x.txSeq x.rxSeq c0 c1 bs
  (d.setPort p { x with txSeq := x.txSeq + 1, replay := x.replay ++ [f], owed0 := x.owed0 - c0, owed1 := x.owed1 - c1, ackSent := x.rxSeq }).emit
    (.flit p f)

/-- Send bytes packed back to back into link flits, at most so many (R440, R459); bytes that do not fill a flit wait for more, unless none
follow. -/
def Dev.transmit (d : Dev) (p most : Nat) (bs : List TxByte) (flush : Bool) : Dev :=
  let n := min (most * slotBytes) (if flush then bs.length else bs.length / slotBytes * slotBytes)
  ((chunks slotBytes (bs.take n)).foldl (fun d c => d.sendFlit p c) d).updPort p (fun x => { x with tail := bs.drop n })

/-- One period of a port (R440 to R442, R459 to R461): frames go while the replay buffer has room for 64 link flits; the slots of CLEARING
allotments carry link-idle flits, and a port that sends nothing but owes an acknowledgement or credits sends one. -/
def Dev.portPeriod (d : Dev) (p : Nat) : Dev :=
  let x := d.port p
  if x.st != .active || decide (1024 < x.replay.length + 64) then d
  else
    let u := d.period p (withCredit x.cred0 x.cred1 x.queue)
    let stay := x.queue.filter (fun e => !u.go.any (fun g => g.1 == e.1))
    let n1 := (u.go.filter (fun e => e.2.2)).length
    let d := d.setPort p { x with queue := stay, debt := u.debt, cred0 := x.cred0 - (u.go.length - n1), cred1 := x.cred1 - n1 }
    let bs := x.tail ++ u.go.flatMap txBytes
    if !bs.isEmpty || u.idle != 0 then
      (List.range u.idle).foldl (fun d _ => d.sendFlit p []) (d.transmit p (64 - u.idle) bs (u.go.isEmpty || stay.isEmpty))
    else if x.ackSent ≠ x.rxSeq ∨ x.owed0 + x.owed1 ≠ 0 then d.sendFlit p []
    else d

/-- The sender's part of a received link header: acknowledged link flits leave the replay buffer, credits return (R441, R442). -/
def Port.takeHeader (x : Port) (f : Flit) : Port :=
  let rest := if Flit.ack f = x.txSeq then [] else if x.replay.any (fun g => g.seq == Flit.ack f) then x.replay.dropWhile (fun g => g.seq != Flit.ack f) else x.replay
  { x with replay := rest, replayTries := if rest.length = x.replay.length then x.replayTries else 0,
           cred0 := x.cred0 + Flit.credit0 f, cred1 := x.cred1 + Flit.credit1 f }

/-- Frames of which bytes wait to be packed into a link flit. -/
def tailFrames (bs : List TxByte) : Nat := (bs.filterMap Prod.snd).length + (match bs with | (_, none) :: _ => 1 | _ => 0)

/-- Count n discarded frames or flits. -/
def Dev.drops (d : Dev) (n : Nat) : Dev := (List.range n).foldl (fun d _ => d.raise Reg.TRL_DROP_EVT) d

/-- RETRAIN reads 0 once training has ended (Table 9-15). -/
def Dev.trainingEnds (d : Dev) (p : Nat) : Dev := d.setFld (Reg.TRL_PORT_CFG p) F.TRL_PORT_CFG_RETRAIN 0

/-- A port enters DOWN (R439): the link flits of its replay buffer and the frames queued for it, those partly packed among them, are
discarded and counted. -/
def Dev.enterDown (d : Dev) (p : Nat) : Dev :=
  let x := d.port p
  ((d.setPort p { x with st := .down, away := false, lanes := 0, replay := [], queue := [], replayTries := 0, tail := [], rx := [] }).drops
    (x.replay.length + x.queue.length + tailFrames x.tail)).trainingEnds p

/-! ### Send streams (R446 to R452) -/

/-- The types of frame (Table 9-5). -/
def ftBedData : Byte := 1
def ftEvent : Byte := 2
def ftContrib : Byte := 3
def ftPlotData : Byte := 4
def ftSendData : Byte := 5
def ftMsgAck : Byte := 6
def ftControl : Byte := 7
def ftStream : Byte := 8

/-- A STREAM frame: operation, EXPECT and nonce (Table 9-6). -/
def Dev.streamFrame (d : Dev) (dst : BitVec 16) (op : Nat) (expect nonce : Word32) : Frame :=
  { d.mkFrame ftStream dst 0 (op + expect.toNat * 2 ^ 32) [] with nonce := nonce }

def Dev.sendStream (d : Dev) (m : BitVec 16) : Option SendStream := Tab.get none d.trl.send m.toNat
def Dev.setSend (d : Dev) (m : BitVec 16) (s : Option SendStream) : Dev :=
  { d with trl := { d.trl with send := Tab.set none d.trl.send m.toNat s } }
def Dev.recvStream (d : Dev) (m : BitVec 16) : Option RecvStream := Tab.get none d.trl.recv m.toNat
def Dev.setRecv (d : Dev) (m : BitVec 16) (s : Option RecvStream) : Dev :=
  { d with trl := { d.trl with recv := Tab.set none d.trl.recv m.toNat s } }

/-- A new nonce toward a module: from the random source, never 0 and never the previous one (R449). -/
def Dev.newNonce (d : Dev) (m : BitVec 16) : Dev × Word32 :=
  let (d, k) := d.takeFree
  let last := Tab.get 0 d.trl.lastNonce m.toNat
  let r := Config.random32 k
  let r := if r = 0 ∨ r = last then (if last = 1 then 2 else 1) else r
  ({ d with trl := { d.trl with lastNonce := Tab.set 0 d.trl.lastNonce m.toNat r } }, r)

/-- Open a send stream to a module with a backlog of messages (R449). -/
def Dev.openStream (d : Dev) (m : BitVec 16) (backlog : List (List Frame × Origin)) : Dev :=
  let (d, n) := d.newNonce m
  let d := d.setSend m (some ⟨n, false, false, 0, 0, [], [], [], backlog, d.clock⟩)
  d.inject (d.streamFrame m 1 0 n)

/-- The messages that wait for a stream to open take their numbers in it (R448). -/
def SendStream.takeIn (s : SendStream) : SendStream :=
  { s.backlog.foldl (fun (s : SendStream) b =>
      let fs := (b.1.zip (List.range b.1.length)).map (fun x => { x.1 with seq := s.nextSeq + BitVec.ofNat 32 x.2, nonce := s.nonce, msg := s.nextMsg })
      { s with nextSeq := s.nextSeq + BitVec.ofNat 32 b.1.length, nextMsg := s.nextMsg + 1, left := s.left ++ fs,
               msgs := s.msgs ++ [(s.nextMsg, b.2, b.1)] }) s with backlog := [] }

/-- The frames that a window of so many frames and bytes admits, and the others. -/
def takeWindow : Nat → Nat → List Frame → List Frame × List Frame
  | _, _, [] => ([], [])
  | k, b, f :: r =>
    if 0 < k ∧ f.payload.length ≤ b then
      let (g, l) := takeWindow (k - 1) (b - f.payload.length) r
      (f :: g, l)
    else ([], f :: r)

/-- Send the frames of an open stream while at most 4,096 frames and 4 MiB are unacknowledged (R448, R452). -/
def Dev.pump (d : Dev) (m : BitVec 16) : Dev :=
  match d.sendStream m with
  | none => d
  | some s =>
    if !s.isOpen then d
    else
      let s := s.takeIn
      let (go, left) := takeWindow (4096 - s.unack.length) (2 ^ 22 - (s.unack.map (fun f => f.payload.length)).sum) s.left
      let s := { s with unack := s.unack ++ go, left := left, lastSent := if go.isEmpty then s.lastSent else d.clock }
      go.foldl Dev.inject (d.setSend m (some s))

/-- Number the frames of every message of a stream afresh and put them back in front of its backlog. -/
def SendStream.rewind (s : SendStream) : List (List Frame × Origin) := s.msgs.map (fun m => (m.2.2, m.2.1)) ++ s.backlog

/-- How many send streams are open. -/
def Dev.sendCount (d : Dev) : Nat := d.trl.send.length

/-- Has a stream no unacknowledged frame and nothing to send (R446, R447)? -/
def SendStream.quiet (s : SendStream) : Bool := s.isOpen && s.unack.isEmpty && s.left.isEmpty && s.backlog.isEmpty

/-- Close a quiet send stream; its messages without an outcome keep waiting for it (R446, R447). -/
def Dev.closeQuiet (d : Dev) (m : BitVec 16) : Dev :=
  match d.sendStream m with
  | some s =>
    if s.quiet then
      let d := d.setSend m none
      { d with trl := { d.trl with orphans := d.trl.orphans ++ s.msgs.map (fun k => (m, k.1, k.2.1, k.2.2)) } }
    else d
  | none => d

/-- The send stream with nothing unacknowledged that has gone longest without sending (R447). -/
def Dev.idleStream (d : Dev) : Option Nat :=
  (d.trl.send.foldl (fun (best : Option (Nat × Nat)) e =>
    match e.2 with
    | some s =>
      if s.quiet then
        match best with
        | some b => if s.lastSent < b.2 then some (e.1, s.lastSent) else best
        | none => some (e.1, s.lastSent)
      else best
    | none => best) none).map Prod.fst

/-- Send a message to a module on its stream; a stream is opened, or the message waits, as R447 and R449 say. -/
def Dev.trlSend (d : Dev) (m : BitVec 16) (fs : List Frame) (o : Origin) : Dev :=
  match d.sendStream m with
  | some s => (d.setSend m (some { s with backlog := s.backlog ++ [(fs, o)] })).pump m
  | none =>
    if d.trl.waiting.any (fun w => w.1 == m) then { d with trl := { d.trl with waiting := d.trl.waiting ++ [(m, fs, o)] } }
    else if d.sendCount < 8192 then d.openStream m [(fs, o)]
    else
      match d.idleStream with
      | some k => (d.closeQuiet (BitVec.ofNat 16 k)).openStream m [(fs, o)]
      | none => { d with trl := { d.trl with waiting := d.trl.waiting ++ [(m, fs, o)] } }

/-- Serve the messages that wait for a stream, in order (R447). -/
def Dev.serveWaiting (d : Dev) : Dev :=
  d.trl.waiting.foldl (fun d w => d.trlSend w.1 w.2.1 w.2.2) { d with trl := { d.trl with waiting := [] } }

/-- The sender and the destination Pavilion of a message of a post to a bed; none for another message (R455). -/
def postKey (fs : List Frame) : Option Nat :=
  match fs with
  | f :: _ => if f.typ = ftBedData then some (Frame.arg f 0 16) else none
  | [] => none

/-- Do two messages of posts go from one Cistern to one destination Pavilion? -/
def samePost (m : BitVec 16) (fs : List Frame) (m' : BitVec 16) (fs' : List Frame) : Bool :=
  m == m' && (postKey fs).isSome && postKey fs == postKey fs'

/-- Send a message of a post; it is held behind one that was refused with retry (R455). -/
def Dev.postSend (d : Dev) (m : BitVec 16) (fs : List Frame) (o : Origin) : Dev :=
  if d.trl.retried.any (fun w => samePost w.1 w.2.1 m fs) || d.trl.resend.any (fun w => samePost w.1 w.2.1 m fs) then
    { d with trl := { d.trl with resend := d.trl.resend ++ [(m, fs, o, false)] } }
  else d.trlSend m fs o

/-- A message was refused with retry: it goes again before the messages held behind it (R208, R455). -/
def Dev.refused (d : Dev) (m : BitVec 16) (fs : List Frame) (o : Origin) : Dev :=
  let ahead := fun (w : BitVec 16 × List Frame × Origin × Bool) => w.2.2.2 || !samePost w.1 w.2.1 m fs
  let r := d.trl.resend
  { d with trl := { d.trl with resend := r.takeWhile ahead ++ [(m, fs, o, true)] ++ r.dropWhile ahead } }

/-- Messages that were refused with retry go out again, and the messages held behind them once they are acknowledged (R208, R455): part of
the tick. -/
def Dev.resendRefused (d : Dev) : Dev :=
  d.trl.resend.foldl (fun d w =>
    if d.trl.retried.any (fun x => samePost x.1 x.2.1 w.1 w.2.1) || d.trl.resend.any (fun x => samePost x.1 x.2.1 w.1 w.2.1) then
      { d with trl := { d.trl with resend := d.trl.resend ++ [w] } }
    else
      let d := if w.2.2.2 && (postKey w.2.1).isSome then { d with trl := { d.trl with retried := d.trl.retried ++ [(w.1, w.2.1, w.2.2.1)] } } else d
      d.trlSend w.1 w.2.1 w.2.2.1) { d with trl := { d.trl with resend := [] } }

/-- A CONTROL frame: its args and the 16-byte payload with SEQUENCE (Table 9-6). -/
def Dev.control (d : Dev) (m : BitVec 16) (token : Word64) (subtype result blk q : Nat) (group : Word32) (seq : Nat) : Dev :=
  d.trlSend m [d.mkFrame ftControl m token (subtype + result * 2 ^ 8 + blk * 2 ^ 16 + q * 2 ^ 26 + group.toNat * 2 ^ 64)
    (leBytes 8 seq ++ List.replicate 8 0)] .control

/-- A CONTROL message to every other module of a binding (R456). -/
def Dev.controlAll (d : Dev) (a : Allot) (subtype blk q : Nat) (group : Word32) (seq : Nat) : Dev :=
  (a.modules.filter (fun m => m != d.moduleId)).foldl (fun d m => d.control m a.token subtype 0 blk q group seq) d

end Sys2Proof.Machine
end

