-- ==== Sys2Proof/Machine/Move.lean ====
section
/-! DEFINITION. Data movement, counted events and hints: what the instructions start, and what happens as their
transfers and signals end (R119, R162 to R180, R360, R363). -/

namespace Sys2Proof.Machine

/-- Start a transfer or signal of the share and go on to the next instruction. -/
def Pav.pushXfer (x : Pav) (t : Xfer) : Pav :=
  { x with xfers := x.xfers ++ [{ t with id := x.nextId }], nextId := x.nextId + 1 }.next

/-- A transfer of an instruction at the current program counter. -/
def Pav.mkXfer (x : Pav) (k : XferKind) (word : Word64) (d : BedDesc) (ev : Bool) (evn : BitVec 6) : Xfer :=
  { id := 0, kind := k, pc := x.pc22, word := word, desc := d, ma := 0, len := 0, data := [], ev := ev, evn := evn, count := 1,
    dstMod := 0, dstPav := 0, bedAddr := 0, ord := 0, landOrd := 0, pkts := [], pkSent := [], landed := false, sent := false, retried := false }

/-- Does a transfer into the bed under a descriptor touch the code image (R116)? -/
def Pav.scatterHits (x : Pav) (d : BedDesc) (w : Nat) : Bool := d.rows.any (fun r => x.hitsCode r (r + (w * d.e0 / 8 : Nat)))

/-- MLD (R163, R164): the transfer starts. -/
def Dev.effMld (d : Dev) (p : Nat) (word : Word64) (f : MoveF) : Eff Dev := do
  let x := d.pav p
  let g := x.dreg f.d
  let (w, total) ← g.checkMove
  match d.plotMA x.allot (x.sreg f.sa) total with
  | none => .error .access
  | some ma =>
    guardNot (x.scatterHits g w) .bedRange
    .ok (d.setPav p (x.pushXfer { x.mkXfer .mld word g (f.ev == 1) f.evn with ma := ma, len := total }))

/-- MST (R163, R164): the bytes under the descriptor are taken and the transfer starts. -/
def Dev.effMst (d : Dev) (p : Nat) (word : Word64) (f : MoveF) : Eff Dev := do
  let x := d.pav p
  let g := x.dreg f.d
  let (w, total) ← g.checkMove
  match d.plotMA x.allot (x.sreg f.sa) total with
  | none => .error .access
  | some ma =>
    .ok (d.setPav p (x.pushXfer { x.mkXfer .mst word g (f.ev == 1) f.evn with ma := ma, len := total, data := x.gather g w }))

/-- 64 element codes of `w` bits as bytes (R60). -/
def packCodes (w : Nat) (cs : List Nat) : Bytes :=
  leBytes (8 * w) (((cs.zip (List.range cs.length)).map (fun c => c.1 % 2 ^ w * 2 ^ (w * c.2))).foldl (· + ·) 0)

/-- A contribution packet of the share, without payload (Table 4-4). -/
def Dev.mkPacket (d : Dev) (s : Share) (kind fa fb : Nat) (scaled : Bool) (part : Word32) (blk : Nat) (mask : Word64)
    (pl : Bytes) : Packet :=
  { srcModule := d.moduleId, scaled := scaled, fmtB := fb, fmtA := fa, kind := kind, group := s.group, part := part, blk := blk,
    queue := s.q, seq := s.seq, nanmask := mask, payload := pl }

/-- The largest magnitude of a wide contribution (R79), in units of 2^-320. -/
def contribMax : Nat := 2 ^ 608 - 1

/-- The packets of a slot (R165, R202, R203) and the flags of saturating its cells (R79). -/
def Dev.slotPackets (d : Dev) (sh : Share) (s : Slot) (part0 : Word32) (blk0 : Nat) : List Packet × Flags :=
  let cells := (List.range (s.m * s.n)).map (fun c => Tab.get Cell.zero s.cells c)
  let big := fun c : Cell => s.kind == .wide && !c.nan && decide (contribMax < c.v.natAbs)
  let pay := fun c : Cell =>
    match s.kind with
    | .float => leBytes 4 c.v.toNat
    | .narrow _ => leBytes 16 (if c.nan then 0 else toTwos 128 c.v)
    | .wide => leBytes 80 (if c.nan then 0 else toTwos 640 (max (-(contribMax : Int)) (min contribMax c.v)))
  let grp := chunks 64 cells
  let pk := (grp.zip (List.range grp.length)).map (fun g =>
    let mask := if s.kind == .float then 0 else
      BitVec.ofNat 64 (((g.1.zip (List.range 64)).map (fun c => bit c.1.nan * 2 ^ c.2)).foldl (· + ·) 0)
    let (k, a, b) := match s.kind with
      | .float => (0, 0, 0)
      | .narrow _ => (1, s.fa.code, s.fb.code)
      | .wide => (2, 0, 0)
    d.mkPacket sh k a b false (part0 + BitVec.ofNat 32 g.2) (blk0 + g.2) mask (g.1.flatMap pay))
  (pk, if cells.any big then flOver ||| flInexact else 0)

/-- The packets of the elements of a descriptor (R165, R202, R203). -/
def Dev.bedPackets (d : Dev) (x : Pav) (sh : Share) (g : BedDesc) (f : Fmt) (part0 : Word32) (blk0 : Nat) : List Packet :=
  (List.range (g.count / 64)).map (fun k =>
    let cs := (List.range 64).map (fun j => (x.elem g f (64 * k + j)).code)
    let sc := if g.scaled = 1 then x.bedRead (g.scaleAt (64 * k)) 1 ++ x.bedRead (g.scaleAt (64 * k + 32)) 1 else []
    d.mkPacket sh 0 f.code 0 (g.scaled == 1) (part0 + BitVec.ofNat 32 k) (blk0 + k) 0 (packCodes f.bits cs ++ sc))

/-- CSEND (R165, R166, R194). -/
def Dev.effCsend (d : Dev) (p : Nat) (word : Word64) (f : MoveF) : Eff Dev := do
  let x := d.pav p
  let g := x.dreg f.d
  let addr := (x.sreg f.sa).toNat
  let part0 := (x.sreg f.sb).setWidth 32
  let blk0 := addr % 1024
  let m := bitsOf addr 32 16
  match x.share with
  | none => .error .illegal
  | some sh =>
    let (pk, fl) ← (if f.srcAcc = 1 then
      if x.slotBad f.slot then .error .format
      else
        match x.slot f.slot with
        | none => .error .format
        | some s => if s.m * s.n % 64 ≠ 0 then .error .shape else .ok (d.slotPackets sh s part0 blk0)
    else
      match g.check with
      | .error e => .error e
      | .ok fm => if g.count % 64 ≠ 0 then .error .shape else .ok (d.bedPackets x sh g fm part0 blk0, (0 : Flags)))
    let al := d.allot x.allot
    guardNot (addr / 2 ^ 48 != 0 || bitsOf addr 10 22 != 0 || decide (al.nmod ≤ m) || decide (1024 < blk0 + pk.length)) .access
    let here := m == d.lmod al
    guardNot (here && pk.any (fun k => (d.blkOf x.allot k.blk).isNone)) .access
    let t := { x.mkXfer .csend word g (f.ev == 1) f.evn with dstMod := m, pkts := (List.range pk.length).zip pk }
    .ok (d.setPav p ((x.addFlags fl).pushXfer t))

/-- A remote destination in the form of R167: module index, logical Pavilion, bed address. -/
def Dev.destOf (d : Dev) (a : Nat) (v : Word64) : Option (Nat × Nat × BitVec 22) :=
  let n := v.toNat
  if n / 2 ^ 48 ≠ 0 ∨ bitsOf n 22 2 ≠ 0 ∨ 143 < bitsOf n 24 8 ∨ (d.allot a).nmod ≤ bitsOf n 32 16 then none
  else some (bitsOf n 32 16, bitsOf n 24 8, BitVec.ofNat 22 n)

/-- The marks toward one destination. -/
def Pav.dstMark (x : Pav) (m l : Nat) : DstMark :=
  match x.dsts.find? (fun k => k.dstMod == m && k.dstPav == l) with
  | some k => k
  | none => ⟨m, l, 0, 0⟩
def Pav.setDst (x : Pav) (k : DstMark) : Pav :=
  { x with dsts := x.dsts.filter (fun j => !(j.dstMod == k.dstMod && j.dstPav == k.dstPav)) ++ [k] }

/-- RSEND (R167, R171, R360): the bytes are taken and numbered toward their destination. -/
def Dev.effRsend (d : Dev) (p : Nat) (word : Word64) (f : MoveF) : Eff Dev := do
  let x := d.pav p
  let g := x.dreg f.d
  let (w, total) ← g.checkMove
  match d.destOf x.allot (x.sreg f.sa) with
  | none => .error .access
  | some (m, l, a) =>
    let k := x.dstMark m l
    let k := { k with landOrd := k.landOrd + 1, ord := if f.ev = 1 then k.ord + 1 else k.ord }
    let t := { x.mkXfer .rsend word g (f.ev == 1) f.evn with
      data := x.gather g w, len := total, dstMod := m, dstPav := l, bedAddr := a, ord := k.ord, landOrd := k.landOrd }
    .ok (d.setPav p ((x.setDst k).pushXfer t))

/-- ESIG (R167, R170, R171). -/
def Dev.effEsig (d : Dev) (p : Nat) (word : Word64) (f : SyncF) : Eff Dev :=
  let x := d.pav p
  match d.destOf x.allot (x.sreg f.sa) with
  | none => .error .access
  | some (m, l, _) =>
    let k := x.dstMark m l
    let k := { k with ord := k.ord + 1 }
    let t := { x.mkXfer .esig word BedDesc.zero true f.evn with count := f.imm, dstMod := m, dstPav := l, ord := k.ord }
    .ok (d.setPav p ((x.setDst k).pushXfer t))

/-- Wait on a counter: go on with the value subtracted, or block (R177). -/
def Pav.ewaitNow (x : Pav) (evn : BitVec 6) (v : Word32) : Option Pav :=
  if v.toNat ≤ (x.evc evn).toNat then some ({ x with block := none }.setEvc evn (x.evc evn - v)).next else none

/-- EWAIT (R177). -/
def Pav.effEwait (x : Pav) (f : SyncF) : Eff Pav :=
  let v := (x.sreg f.sa).setWidth 32 + f.imm
  match x.ewaitNow f.evn v with
  | some x => .ok x
  | none => .ok { x with block := some (.ewait f.evn.toNat v) }

/-- Has every data-movement instruction of the share completed (R119, R178)? -/
def Pav.moved (x : Pav) : Bool := x.xfers.all (fun t => t.kind == .esig)

/-- MFENCE (R178). -/
def Pav.effMfence (x : Pav) : Eff Pav := .ok (if x.moved then x.next else { x with block := some .fence })

/-- HINT: forwarded to the predictor; a phase begin holds until its phase end or its duration has passed (R179, R180,
R500). -/
def Dev.effHint (d : Dev) (p : Nat) (f : HintF) : Eff Dev :=
  let h : Option PhaseHint := if f.kind = 0 then some ⟨f.power.toNat, d.clock + f.dur.toNat, d.clock⟩ else none
  .ok ((d.updPav p (fun x => { x with phaseHint := h }.next)).emit (.hint p f.kind.toNat f.power.toNat f.dur.toNat))

/-- The data-movement operations (Table 3-15). -/
def moveEff (op : BitVec 8) (p : Nat) (word : Word64) (f : MoveF) (d : Dev) : Eff Dev :=
  match op.toNat with
  | 0x01 => d.effMld p word f
  | 0x02 => d.effMst p word f
  | 0x03 => d.effCsend p word f
  | 0x04 => d.effRsend p word f
  | _ => .error .illegal

/-! ### At the receiver (R168, R173 to R176, R360, R363) -/

/-- Does a share run on the Pavilion? -/
def Pav.runs (x : Pav) : Bool := x.share.isSome

/-- The marks of one source. -/
def Pav.srcMark (x : Pav) (m : BitVec 16) (s : Nat) : SrcMark :=
  match x.srcs.find? (fun k => k.srcMod == m && k.src == s) with
  | some k => k
  | none => ⟨m, s, 0, 0, 0⟩
def Pav.setSrc (x : Pav) (k : SrcMark) : Pav :=
  { x with srcs := x.srcs.filter (fun j => !(j.srcMod == k.srcMod && j.src == k.src)) ++ [k] }

/-- Note that bed data or an event reached the share (R363). -/
def Pav.noteRx (x : Pav) (own : Option (Nat × Nat)) : Pav :=
  match x.share with
  | some s => if own = some (s.q, s.seq) then { x with rxSame := true } else { x with rxOther := true }
  | none => x

/-- Count an event-bearing message of the current group (Table 3-17 rows 1 and 2, R175, R176). -/
def Dev.countEvent (d : Dev) (p : Nat) (m : EvMsg) : Dev × Outcome8 :=
  let x := d.pav p
  let k := x.srcMark m.srcMod m.src
  if (if m.byLand then decide (m.ord ≤ k.evLand) else decide (m.ord ≤ k.evOrd)) then (d, .discarded)
  else if k.evOrd = 0 ∧ 256 ≤ (x.srcs.filter (fun j => j.evOrd != 0)).length then
    (d.takeFault p .eventSources x.pc22 x.word, .landed)
  else
    let x := (x.setSrc (if m.byLand then { k with evOrd := max 1 k.evOrd, evLand := m.ord } else { k with evOrd := m.ord })).noteRx m.own
    ((d.setPav p x).addEvent p m.evn m.count, .landed)

/-- Hold a message of a newer group (Table 3-17 rows 3 and 4, R174). -/
def Dev.holdEvent (d : Dev) (p : Nat) (m : EvMsg) : Dev × Outcome8 :=
  let x := d.pav p
  if x.pend.length < 64 then (d.setPav p { x with pend := x.pend ++ [m] }, .landed) else (d, .retry)

/-- Handling of an event-bearing message (Table 3-17). -/
def Dev.recvEvent (d : Dev) (p : Nat) (m : EvMsg) : Dev × Outcome8 :=
  let x := d.pav p
  if x.runs then
    match x.share with
    | some s =>
      if m.group = s.group then d.countEvent p m
      else if groupNewer m.group s.group then d.holdEvent p m
      else (d, .discarded)
    | none => (d, .discarded)
  else
    match x.lastGroup with
    | none => d.holdEvent p m
    | some c => if m.group = c ∨ groupNewer m.group c then d.holdEvent p m else (d, .discarded)

/-- RSEND data at its destination (R168, R360). -/
def Dev.recvBed (d : Dev) (p : Nat) (group : Word32) (srcMod : BitVec 16) (src landOrd addr : Nat) (data : Bytes)
    (own : Option (Nat × Nat)) : Dev × Outcome8 :=
  let x := d.pav p
  if bedOut addr (addr + data.length : Nat) || (x.runs && x.hitsCode addr (addr + data.length : Nat)) then (d, .range)
  else
    match x.share with
    | some s =>
      let k := x.srcMark srcMod src
      if x.runs ∧ group = s.group ∧ k.landOrd < landOrd then
        (d.setPav p (((x.bedWrite addr data).setSrc { k with landOrd := landOrd }).noteRx own), .landed)
      else (d, .discarded)
    | none => (d, .discarded)

/-! ### Transfers and signals end -/

/-- An outstanding transfer of the share. -/
def Pav.xfer? (x : Pav) (id : Nat) : Option Xfer := x.xfers.find? (fun t => t.id == id)

/-- Is another event-bearing message to the same destination ahead of this one and not yet acknowledged (R171)? -/
def Pav.evAhead (x : Pav) (t : Xfer) : Bool :=
  x.xfers.any (fun u => u.id < t.id && u.ev && (u.kind == .esig || u.kind == .rsend) && u.dstMod == t.dstMod && u.dstPav == t.dstPav)
/-- Is an RSEND to the same destination ahead of this one and not yet landed (R170, R360)? -/
def Pav.landAhead (x : Pav) (t : Xfer) : Bool :=
  x.xfers.any (fun u => u.id < t.id && u.kind == .rsend && !u.landed && u.dstMod == t.dstMod && u.dstPav == t.dstPav)
/-- Has an earlier message to the same destination been refused with retry (R455)? -/
def Pav.retryAhead (x : Pav) (t : Xfer) : Bool :=
  x.xfers.any (fun u => u.id < t.id && u.retried && u.dstMod == t.dstMod && u.dstPav == t.dstPav)
/-- Change one outstanding transfer. -/
def Pav.updXfer (x : Pav) (id : Nat) (f : Xfer → Xfer) : Pav := { x with xfers := updFirst (fun t => t.id == id) f x.xfers }

/-- The group and the descriptor of the share. -/
def Pav.group (x : Pav) : Word32 := match x.share with | some s => s.group | none => 0
def Pav.ownOf (x : Pav) : Option (Nat × Nat) := x.share.map (fun s => (s.q, s.seq))

/-- A transfer has completed: it leaves the list and signals its local counter when EV is 1 (Table 3-15). -/
def Dev.xferDone (d : Dev) (p : Nat) (t : Xfer) : Dev :=
  let d := d.updPav p (fun x => x.dropXfer t.id)
  if t.ev && (d.pav p).runs && !(d.pav p).faulted then d.addEvent p t.evn 1 else d

/-- Set TRL_UNREACH_EVT and record the module (R466). -/
def Dev.unreachEvent (d : Dev) (m : BitVec 16) : Dev :=
  ((d.raise Reg.TRL_UNREACH_EVT).setReg Reg.TRL_UNREACH_ID (m.setWidth 32)).fire 44 m.toNat

/-- A destination whose routes name no ACTIVE port is declared unreachable, once until a route comes back (R466, log 90). -/
def Dev.declareDead (d : Dev) (m : BitVec 16) : Dev :=
  let d := d.unreachEvent m
  { d with trl := { d.trl with dead := d.trl.dead ++ [m.toNat] } }

/-- A message meets a destination that no route reaches; where a stream toward it is open, the check of the routes declares it and closes
the stream (R466). -/
def Dev.noteUnreach (d : Dev) (m : BitVec 16) : Dev :=
  if d.trl.dead.contains m.toNat || (d.sendStream m).isSome then d else d.declareDead m

/-- The origin of a transfer's message. -/
def Pav.xferOrigin (x : Pav) (p id : Nat) : Origin := match x.ownOf with | some o => .xfer o.1 o.2 p id | none => .control

/-- The data of an RSEND goes to its destination, here or over the Trellis (R167, R168, R171, R360, R457). -/
def Dev.sendBed (d : Dev) (p id : Nat) : Dev :=
  let x := d.pav p
  let al := d.allot x.allot
  match x.xfer? id with
  | none => d
  | some t =>
    if d.stalled ∨ t.kind ≠ .rsend ∨ t.landed ∨ t.sent ∨ x.landAhead t ∨ x.retryAhead t ∨ (t.ev ∧ x.evAhead t) then d
    else if t.dstMod = d.lmod al then
      if al.st = .clearing then d.updPav p (fun x => x.updXfer id (fun t => { t with retried := true })) else
      match d.pavOf x.allot t.dstPav with
      | none => d.deferFault p id .access
      | some q =>
        let (d, o) := d.recvBed q x.group d.moduleId (x.logical.getD 0) t.landOrd t.bedAddr.toNat t.data x.ownOf
        if o = .range then d.deferFault p id .bedRange
        else if t.ev then d.updPav p (fun x => x.updXfer id (fun t => { t with landed := true }))
        else d.updPav p (fun x => x.dropXfer id)
    else
      let m := d.modId al t.dstMod
      if d.routeDead m then (d.noteUnreach m).deferFault p id .remote
      else
        let args := t.dstPav + x.logical.getD 0 * 2 ^ 8 + bit t.ev * 2 ^ 16 + t.evn.toNat * 2 ^ 17 +
          t.bedAddr.toNat * 2 ^ 32 + x.group.toNat * 2 ^ 64 + t.landOrd % 2 ^ 32 * 2 ^ 96
        (d.updPav p (fun x => x.updXfer id (fun t => { t with sent := true }))).trlSend m
          (d.mkMessage ftBedData m al.token args t.data) (x.xferOrigin p id)

/-- An event-bearing message goes to its destination, here or over the Trellis (R170, R171, R173). -/
def Dev.sendEvent (d : Dev) (p id : Nat) : Dev :=
  let x := d.pav p
  let al := d.allot x.allot
  match x.xfer? id with
  | none => d
  | some t =>
    if d.stalled || !(t.kind == .esig || (t.kind == .rsend && t.ev && t.landed)) || t.sent || x.evAhead t || x.landAhead t || x.retryAhead t then d
    else if t.dstMod = d.lmod al then
      if al.st = .clearing then d.updPav p (fun x => x.updXfer id (fun t => { t with retried := true })) else
      match d.pavOf x.allot t.dstPav with
      | none => d.deferFault p id .access
      | some q =>
        let (d, o) := d.recvEvent q ⟨x.group, d.moduleId, x.logical.getD 0, t.ord, false, t.evn, t.count, x.ownOf⟩
        d.updPav p (fun x => x.updXfer id (fun t => if o = .retry then { t with retried := true } else { t with sent := true }))
    else if t.kind ≠ .esig then d
    else
      let m := d.modId al t.dstMod
      if d.routeDead m then (d.noteUnreach m).deferFault p id .remote
      else
        let args := t.dstPav + x.logical.getD 0 * 2 ^ 8 + t.evn.toNat * 2 ^ 17 + t.count.toNat * 2 ^ 32 +
          x.group.toNat * 2 ^ 64 + t.ord % 2 ^ 32 * 2 ^ 96
        (d.updPav p (fun x => x.updXfer id (fun t => { t with sent := true }))).trlSend m
          [d.mkFrame ftEvent m al.token args []] (x.xferOrigin p id)

/-- MLD_COMPLETE (R119, R164, R186). A transfer whose access waits (R262, R264, R617) goes on, and the command comes again (log 69). -/
def execMldComplete (p : Pv) (id : Nat) (s : State) : Host.Outcome State Fault Refusal := onDev s fun d =>
  match (d.pav p.val).xfer? id with
  | none => d
  | some t =>
    if t.kind ≠ .mld then d
    else
      match d.memRead (.xfer p.val id) t.ma t.len with
      | (d, .wait) => d
      | (d, .bad) => d.deferFault p.val id .memory
      | (d, .ok bs) =>
        let w := match Fmt.ofCode t.desc.fmt.toNat with | some f => f.bits | none => 8
        (d.updPav p.val (fun x => x.scatter t.desc w bs)).xferDone p.val t

/-- MST_COMPLETE (R119, R164, R186): a write that waited and was dropped then is a MEMORY fault too (R267). -/
def execMstComplete (p : Pv) (id : Nat) (s : State) : Host.Outcome State Fault Refusal := onDev s fun d =>
  match (d.pav p.val).xfer? id with
  | none => d
  | some t =>
    if t.kind ≠ .mst then d
    else
      match d.memWrite (.xfer p.val id) t.ma t.data with
      | (d, .wait) => d
      | (d, .bad) => d.deferFault p.val id .memory
      | (d, .ok _) => d.xferDone p.val t

/-- CSEND_COMPLETE (R207): every packet has been accepted or discarded. -/
def execCsendComplete (p : Pv) (id : Nat) (s : State) : Host.Outcome State Fault Refusal := onDev s fun d =>
  match (d.pav p.val).xfer? id with
  | none => d
  | some t => if t.kind = .csend ∧ t.pkts.isEmpty then d.xferDone p.val t else d

/-- RSEND_LANDING (R168, R360). -/
def execRsendLanding (p : Pv) (id : Nat) (s : State) : Host.Outcome State Fault Refusal := onDev s fun d => d.sendBed p.val id

/-- EVENT_MESSAGE (R170, R171, R173). -/
def execEventMessage (p : Pv) (id : Nat) (s : State) : Host.Outcome State Fault Refusal := onDev s fun d => d.sendEvent p.val id

/-- EVENT_MESSAGE_ACK (R171): an acknowledged message of this module leaves the outstanding list. -/
def execEventMessageAck (p : Pv) (id : Nat) (s : State) : Host.Outcome State Fault Refusal := onDev s fun d =>
  let x := d.pav p.val
  match x.xfer? id with
  | none => d
  | some t => if t.sent ∧ t.ev ∧ t.dstMod = d.lmod (d.allot x.allot) then d.setPav p.val (x.dropXfer id) else d

/-- MESSAGE_RETRY (R208, R455): a message refused with retry is sent again. -/
def execMessageRetry (p : Pv) (id : Nat) (s : State) : Host.Outcome State Fault Refusal := onDev s fun d =>
  match (d.pav p.val).xfer? id with
  | none => d
  | some t => if t.kind = .rsend ∧ !t.landed then d.sendBed p.val id else d.sendEvent p.val id

/-- DEFERRED_FAULT_REPORT (R186): a report names a transfer; codes that no report carries have no effect. -/
def execDeferredFaultReport (p : Pv) (id : Nat) (code : FaultCode) (s : State) : Host.Outcome State Fault Refusal := onDev s fun d =>
  match code with
  | .memory | .access | .format | .bedRange | .remote => d.deferFault p.val id code
  | _ => d

/-- EWAIT_RELEASE (R177). -/
def execEwaitRelease (p : Pv) (s : State) : Host.Outcome State Fault Refusal := onDev s fun d =>
  let x := d.pav p.val
  match x.block with
  | some (.ewait n v) =>
    if d.stalled then d else
    match x.ewaitNow (BitVec.ofNat 6 n) v with
    | some x => d.setPav p.val x
    | none => d
  | _ => d

/-- MFENCE_RELEASE (R178). -/
def execMfenceRelease (p : Pv) (s : State) : Host.Outcome State Fault Refusal := onDev s fun d =>
  let x := d.pav p.val
  if x.block = some .fence ∧ x.moved ∧ !d.stalled then d.setPav p.val { x with block := none }.next else d

end Sys2Proof.Machine
end

