-- ==== Sys2Proof/Machine/Engine.lean ====
section
/-! DEFINITION. The queue engine's shared operations: the fields of a descriptor (Table 7-5), what completes one, the
shares of a KERNEL and their replay (R40 to R43, R188, R363), gangs (R364 to R368), host writes and interrupts
(R298, R326 to R335, R349, R358). -/

namespace Sys2Proof.Machine

/-! ### Descriptor fields (R340) -/

/-- A field of a descriptor: byte offset, lowest bit, width. -/
def Exec.f (e : Exec) (byte lo w : Nat) : Nat := bitsOf e.data.toNat (8 * byte + lo) w
/-- TYPE (Table 7-6). -/
def Exec.typ (e : Exec) : Nat := e.f 0 0 4
/-- GROUP of the header. -/
def Exec.group (e : Exec) : Word32 := BitVec.ofNat 32 (e.f 0x0C 0 32)
/-- GANG of a KERNEL body (Table 7-7). -/
def Exec.gang (e : Exec) : Nat := if e.typ = 1 then e.f 0x5C 0 32 else 0
/-- Is the KERNEL a member of a gang? -/
def Exec.isGang (e : Exec) : Bool := decide (2 ≤ e.gang)
/-- Does the header break R342 or, for types other than KERNEL and REDUCE, carry a GROUP? -/
def Exec.headBad (e : Exec) : Bool :=
  e.f 0 4 4 != 0 || e.f 1 1 7 != 0 || e.f 2 0 16 != 0 || (e.typ != 1 && e.typ != 3 && e.group != 0)

/-- The logical Pavilions PAVMASK names, in rising order (R343). -/
def Exec.pavs (e : Exec) : List Nat := (List.range 144).filter (fun l => (e.f 0x48 0 144).testBit l)

/-- A descriptor just accepted. -/
def Exec.new (seq : Nat) (data : BitVec 1024) (ord : Nat) : Exec :=
  { seq := seq, data := data, started := false, complete := false, issued := false, status := 0, flags := 0, fault := 0,
    faultRank := none, lpav := 0xFF, pc := 0, energy := 0, replayed := false, shares := [], contribs := [], gangDone := false,
    gangPh := .none, sendLeft := false, ord := ord, rxOther := false, rearm := false, redo := false }

/-- Completion with a status; OK of a descriptor executed again is REPLAYED_OK (R352). The first status stands. -/
def Exec.finish (e : Exec) (status : Nat) : Exec :=
  if e.complete then e
  else { e with started := true, complete := true, sendLeft := false, status := if status = 0 ∧ e.replayed then 1 else status }

/-- Complete a descriptor. -/
def Dev.finish (d : Dev) (q seq status : Nat) : Dev := d.updExec q seq (fun e => e.finish status)

/-! ### Shares on their Pavilions -/

/-- A Pavilion without its share: nothing issues and nothing of it is outstanding. DESIGN CHOICE (log 62): a faulted Pavilion leaves
STATE 5 here, when its share is dropped; Table 3-20 does not say when. -/
def Pav.dropShare (x : Pav) : Pav :=
  { x with share := none, faulted := false, stopped := false, block := none, xfers := [], deferred := none, rxSame := false,
           rxOther := false, phaseHint := none, descHint := none }

/-- The Pavilions that run shares of a descriptor. -/
def Dev.sharePavs (d : Dev) (q seq : Nat) : List Nat :=
  (d.pavs.filter (fun e => match e.2.share with | some s => s.q == q && s.seq == seq | none => false)).map Prod.fst

/-- What a run that ends without a SHARE_END leaves with its descriptor: the energy metered of it, which no command brings and is
free (R350, log 58), and, where the run counts and is not to be made again, its flags (R104, R105). -/
def Dev.runCut (d : Dev) (p : Nat) (flags : Bool) : Dev :=
  let x := d.pav p
  match x.share with
  | none => d
  | some s =>
    let (d, k) := d.takeFree
    d.updExec s.q s.seq (fun e =>
      { e with energy := e.energy + Config.runEnergy k, flags := if flags then e.flags ||| x.flags else e.flags })

/-- Stop every share of a descriptor at an instruction boundary; their flags and energy stay with it. -/
def Dev.stopShares (d : Dev) (q seq : Nat) : Dev :=
  (d.sharePavs q seq).foldl (fun d p => (d.runCut p true).updPav p Pav.dropShare) d

/-- Every named share waits for its Pavilion again; the descriptor is executed again (R41, R224, R367). -/
def Exec.restart (e : Exec) : Exec :=
  { e with shares := e.shares.map (fun s => (s.1, .waiting)), replayed := true, flags := 0, faultRank := none, status := 0, fault := 0,
           lpav := 0xFF, pc := 0, gangPh := .none, gangDone := false, rxOther := false, rearm := false, redo := false, complete := false }

/-- Replay a whole KERNEL on every Pavilion it names. -/
def Dev.replayAll (d : Dev) (q seq : Nat) : Dev := (d.stopShares q seq).updExec q seq Exec.restart

/-- The accepted descriptors of an allotment's queues: queue and descriptor. -/
def Dev.execsOf (d : Dev) (a : Nat) : List (Nat × Exec) :=
  d.qs.flatMap (fun e => if e.2.allot = a then e.2.execs.map (fun x => (e.1, x)) else [])

/-! ### Gangs (R364 to R368) -/

/-- Has a descriptor been revoked (R375, R412)? -/
def Exec.revoked (e : Exec) : Bool := e.complete && e.status == 0x30

/-- The members on this module of a gang that may run again; one that was revoked is never replayed (R412). -/
def Dev.members (d : Dev) (a : Nat) (g : Word32) : List (Nat × Exec) :=
  (d.execsOf a).filter (fun e => e.2.isGang && e.2.group == g && !e.2.issued && !e.2.revoked)

/-- The home's record of a group. -/
def Allot.gang (x : Allot) (g : Word32) : Gang :=
  match x.gangs.find? (fun k => k.group == g) with
  | some k => k
  | none => ⟨g, 0, [], [], false⟩
def Allot.setGang (x : Allot) (k : Gang) : Allot := { x with gangs := x.gangs.filter (fun j => j.group != k.group) ++ [k] }

/-- Is a group complete: in the window, or below the window of a complete one (R365)? -/
def Allot.gangComplete (x : Allot) (g : Word32) : Bool :=
  (x.gang g).complete ||
  x.gangs.any (fun k => k.complete && decide (4096 ≤ (k.group - g).toNat ∧ (k.group - g).toNat < 2 ^ 31))

/-- The size of a gang as the home knows it: the GANG of its own members, or what it knew before. No message carries GANG (Table 9-6), so
a home that has no member of the gang knows it by a free value (R365, log 20). -/
def Dev.gangSize (d : Dev) (a : Nat) (g : Word32) : Dev × Nat :=
  match (d.execsOf a).find? (fun e => e.2.isGang && e.2.group == g) with
  | some e => (d, e.2.gang)
  | none =>
    let n := ((d.allot a).gang g).size
    if n ≠ 0 then (d, n) else let (d, k) := d.takeFree; (d, max 2 (Config.gangSize k))

/-- The home counts a DONE tuple and answers whether the group is complete (R365). -/
def Dev.homeDone (d : Dev) (a : Nat) (g : Word32) (t : BitVec 16 × Nat × Nat) : Dev × Bool :=
  let al := d.allot a
  if al.gangComplete g then (d, true)
  else
    let k := al.gang g
    let (d, size) := d.gangSize a g
    let done := if k.done.contains t then k.done else k.done ++ [t]
    let k := { k with size := size, done := done, complete := decide (size ≤ done.length) }
    (d.setAllot a (al.setGang k), k.complete)

/-- A gang replay starts at this module's members: every share stops issue (Table 7-15); the home drops the DONE count (R368). -/
def Dev.beginReplay (d : Dev) (a : Nat) (g : Word32) : Dev :=
  let d := d.updAllot a (fun x => { (x.setGang { x.gang g with done := [], ready := [], complete := false }) with
    replays := if x.replays.contains g then x.replays else x.replays ++ [g] })
  let d := ((d.execsOf a).filter (fun e => e.2.isGang && e.2.group == g && e.2.revoked)).foldl (fun d m =>
    d.updExec m.1 m.2.seq (fun e => { e with gangDone := false })) d
  (d.members a g).foldl (fun d m =>
    let d := d.updExec m.1 m.2.seq (fun e => { e with gangPh := .stop, gangDone := false })
    (d.sharePavs m.1 m.2.seq).foldl (fun d p => d.updPav p (fun x => { x with stopped := true })) d) d

/-- The events of a group that a Pavilion holds are discarded (R368). -/
def Pav.dropPend (x : Pav) (g : Word32) : Pav := { x with pend := x.pend.filter (fun m => m.group != g) }

/-- RESTART: every share of the members starts again from Table 3-2, and what was held for it while it was stopped is discarded (R368). A
member that a program or environment fault stopped is not replayed (R188): it leaves the replay as it is. -/
def Dev.gangRestart (d : Dev) (a : Nat) (g : Word32) : Dev :=
  let ms := (d.members a g).filter (fun m => m.2.gangPh != .none)
  let d := ms.foldl (fun d m =>
    if m.2.faultRank.isSome then d.updExec m.1 m.2.seq (fun e => { e with gangPh := .none })
    else
      (m.2.pavs.filterMap (d.pavOf a)).foldl (fun d p => d.updPav p (fun x => x.dropPend g)) (d.replayAll m.1 m.2.seq)) d
  d.updAllot a (fun x => { x with replays := x.replays.filter (· != g) })

/-- The home counts READY; with all GANG members ready it answers RESTART to the whole binding (R367). -/
def Dev.homeReady (d : Dev) (a : Nat) (g : Word32) (t : BitVec 16 × Nat × Nat) : Dev :=
  let al := d.allot a
  let k := al.gang g
  let (d, size) := d.gangSize a g
  let ready := if k.ready.contains t then k.ready else k.ready ++ [t]
  if size ≤ ready.length then
    let d := d.setAllot a (al.setGang { k with size := size, ready := [], done := [] })
    (d.controlAll (d.allot a) 7 0 0 g 0).gangRestart a g
  else d.setAllot a (al.setGang { k with size := size, ready := ready })

/-- The module ID of a gang's home (R364). -/
def Dev.homeOf (d : Dev) (a : Nat) (g : Word32) : BitVec 16 := d.modId (d.allot a) (g.toNat % (d.allot a).nmod)

/-- Initiate a gang replay: REPLAY to the other modules, and the phases here (R367). -/
def Dev.initReplay (d : Dev) (a : Nat) (g : Word32) : Dev := (d.controlAll (d.allot a) 5 0 0 g 0).beginReplay a g

/-! ### Hardware faults (R40 to R43, R189, R363, R715) -/

/-- The free hot spares of the module. -/
def Dev.spares (d : Dev) : List Nat := (List.range 160).filter (fun p => (d.pav p).spare && !(d.pav p).withdrawn)

/-- Withdraw a Pavilion and pass its logical index to a free hot spare, whose choice the manual leaves open; without one
the index keeps the withdrawn Pavilion (R40, R42, R43). DESIGN CHOICE (log 19): the messages of the withdrawn Pavilion's pending store, though
acknowledged, are lost with it, and the spare starts with an empty store. -/
def Dev.withdraw (d : Dev) (p : Nat) : Dev :=
  let x := d.pav p
  let d := (d.setPav p { x.dropShare with withdrawn := true, spare := false }).fire 38 p
  match x.logical with
  | none => d
  | some l =>
    match d.spares with
    | [] => d.emit (.operatorEvent 0x43 p)
    | s :: rest =>
      let (d, k) := d.takeFree
      let t := (s :: rest).getD (Config.freeChoice k % (s :: rest).length) s
      let d := d.updPav p (fun y => { y with allot := 0, logical := none })
      let y := d.pav t
      let z := { Pav.reset t with freq := y.freq, rail := y.rail, lease := y.lease, leaseEnd := y.leaseEnd, settling := y.settling }
      let d := (d.setPav t { z with allot := x.allot, logical := some l, spare := false }).fire 38 t
      d.updAllot x.allot (fun a => { a with pavs := Tab.set none a.pavs l (some t) })

/-- A hardware check stops a running share (R40, R41, R187, R189, R363, R367). Where another share of the descriptor has reported a program
or environment fault, nothing is replayed (R188). -/
def Dev.hardwareFault (d : Dev) (p : Nat) (code : FaultCode) : Dev :=
  let x := d.pav p
  match x.share with
  | none => d
  | some s =>
    let d := (d.recordFault p code x.pc22 x.word).fire 37 (p + 65536 * faultNum code)
    let other := x.rxOther || (d.sharePavs s.q s.seq).any (fun k => (d.pav k).rxOther) ||
      (match d.exec? s.q s.seq with | some e => e.rxOther | none => false)
    let got := x.rxSame || x.rxOther
    let gang := match d.exec? s.q s.seq with | some e => e.isGang | none => false
    let failed := match d.exec? s.q s.seq with | some e => e.faultRank.isSome | none => false
    let replays := !failed && (!got || gang || !other)
    let d := (d.runCut p (!replays)).withdraw p
    if failed then d.updExec s.q s.seq (fun e => e.setShare s.lpav .stopped)
    else if !got then d.updExec s.q s.seq (fun e => { e.setShare s.lpav .waiting with replayed := true })
    else if gang then
      (d.updExec s.q s.seq (fun e => e.setShare s.lpav .waiting)).initReplay x.allot s.group
    else if other then
      (d.stopShares s.q s.seq).updExec s.q s.seq (fun e =>
        { e with fault := faultNum code, lpav := s.lpav, pc := x.pc22.toNat }.finish 0x7F)
    else d.replayAll s.q s.seq

/-! ### Addresses and host access -/

/-- N of a queue (R327). -/
def Dev.ringN (d : Dev) (q : Nat) : Nat := 2 ^ (bitsOf (d.reg (Reg.QCT_CFG q)).toNat 16 5)
/-- A 64-bit address in a LO and HI pair. -/
def Dev.addr64 (d : Dev) (lo hi : Nat) : Word64 := BitVec.ofNat 64 ((d.reg hi).toNat * 2 ^ 32 + (d.reg lo).toNat)
/-- The configuration words on whose software-written bits the block acts, which are 0 at reset. -/
def cfgActs : List Nat := [0x04, 0x10, 0x14, 0x18, 0x1C, 0x44, 0x60, 0xA0, 0x288, 0x2A0, 0x2A4, 0x2A8, 0x2AC, 0x2B0, 0x2C4, 0x2CC]
/-- What a configuration word that software has not written holds in its writable bits, by 4096 fn + offset: of Device Control and of the
AER words what PCIe gives them (PRESUMED, log 73), else what the standards give it. -/
def cfgInit (key : Nat) : Word32 :=
  let off := key % 4096
  if off = 0x58 then 0x2810 else if off = 0x108 ∨ off = 0x10C then 0x400000 else if off = 0x114 then 0x4000
  else if cfgActs.contains off then 0 else Config.stdConfig (key / 4096) off
/-- The writable bits of a configuration word. -/
def Dev.cfgWord (d : Dev) (fn off : Nat) : Nat := (Tab.getD cfgInit d.hp.cfg (4096 * fn + off)).toNat
/-- Store the writable bits of a configuration word. -/
def Dev.setCfg (d : Dev) (fn off : Nat) (v : Word32) : Dev :=
  { d with hp := { d.hp with cfg := Tab.setD cfgInit d.hp.cfg (4096 * fn + off) v } }
/-- The PCIe command register of a function: bus mastering enabled? -/
def Dev.busMaster (d : Dev) (fn : Nat) : Bool := (d.cfgWord fn 0x04).testBit 2
/-- Is the host link at L0, in L1, or in a recovery that returns to L0 with everything kept (R318, Table 6-11)? -/
def Dev.linkUp (d : Dev) : Bool := let st := d.fld Reg.GLB_HP_LINK F.GLB_HP_LINK_STATE; decide (2 ≤ st ∧ st ≤ 4)
/-- May the link enter L1: ASPM L1 enabled in Link Control, or D3hot (R288; its place PRESUMED, log 75)? -/
def Dev.l1May (d : Dev) : Bool := (d.cfgWord 0 0x60).testBit 1 || d.hp.d3hot
/-- Is ATS enabled on a function (offset 0x2C0, control register bit 15)? -/
def Dev.atsOn (d : Dev) (fn : Nat) : Bool := (d.cfgWord fn 0x2C4).testBit 31
/-- Was CXL.cache negotiated? -/
def Dev.cacheOn (d : Dev) : Bool := d.fld Reg.GLB_HP_LINK F.GLB_HP_LINK_CACHE == 1
/-- A queue that uses its doorbell line while its function's ATS is off errs at its next host access (R336). -/
def Dev.atsLost (d : Dev) (q : Nat) : Bool := (d.queue q).useLine && !d.atsOn (d.queue q).allot
/-- Can the host port reach host memory for a queue, its translations available (R369)? -/
def Dev.reach (d : Dev) (q : Nat) : Bool := d.linkUp && d.busMaster (d.queue q).allot && !d.hp.d3hot && !d.atsLost q

/-! ### Host requests (R306, R308, R312, R328) -/

/-- The PASID that a queue's requests carry, while PASID is enabled in the PF (R310, R312, Table 7-25). -/
def Dev.pasidOf (d : Dev) (q : Nat) : Option (BitVec 20) :=
  if (d.cfgWord 0 0x2CC).testBit 16 && d.fld (Reg.QCT_PASID q) F.QCT_PASID_PASID_EN == 1 then
    some (BitVec.ofNat 20 (d.fld (Reg.QCT_PASID q) F.QCT_PASID_PASID))
  else none
/-- A request of a queue. -/
def Dev.hostReq (d : Dev) (q : Nat) (op : HostOp) : HostReq := ⟨(d.queue q).allot, d.pasidOf q, op, d.atsOn (d.queue q).allot⟩
/-- Does a queue reach host memory through CXL.cache (R277, R312)? -/
def Dev.viaCache (d : Dev) (q : Nat) : Bool := d.atsOn (d.queue q).allot && d.cacheOn
/-- The Relaxed Ordering that data writes of a function may carry: Enable Relaxed Ordering of its Device Control register (R308). -/
def Dev.relaxed (d : Dev) (fn : Nat) : Bool := (d.cfgWord fn 0x58).testBit 4

/-- The translation held of a page, if any (R312). -/
def Dev.translated (d : Dev) (fn : Nat) (pasid : Option (BitVec 20)) (page : Nat) : Option Translation :=
  d.hp.atc.find? (fun t => t.fn == fn && t.pasid == pasid && t.page == page)

/-- Translate one page through ATS, unless its translation is held (R312). The page it gives comes with no command and is free (log 12). -/
def Dev.translatePage (d : Dev) (fn : Nat) (pasid : Option (BitVec 20)) (page : Nat) : Dev :=
  if (d.translated fn pasid page).isSome then d
  else
    let (d, k) := d.takeFree
    ({ d with hp := { d.hp with atc := d.hp.atc ++ [({ fn := fn, pasid := pasid, page := page, frame := Config.hostPage k } : Translation)] } }).emit (.translate fn pasid page)

/-- The pages that a range touches. -/
def pagesOf (addr len : Nat) : List Nat := (List.range ((addr % 4096 + len + 4095) / 4096)).map (fun k => addr / 4096 + k)

/-- Translate the pages of a range of a queue's address space, while its function has ATS enabled (R312). -/
def Dev.translate (d : Dev) (q addr len : Nat) : Dev :=
  let fn := (d.queue q).allot
  if d.atsOn fn then (pagesOf addr len).foldl (fun d k => d.translatePage fn (d.pasidOf q) k) d else d

/-- Ask for translations that give no permission: nothing is kept of them (R314). -/
def Dev.askDenied (d : Dev) (q addr len : Nat) : Dev :=
  let fn := (d.queue q).allot
  if d.atsOn fn then
    (pagesOf addr len).foldl (fun d k => if (d.translated fn (d.pasidOf q) k).isSome then d else d.emit (.translate fn (d.pasidOf q) k)) d
  else d

/-- Where a queue's access to an address goes: to the translated address, while its function has ATS enabled (R312). -/
def Dev.hostAddr (d : Dev) (q addr : Nat) : Nat :=
  let fn := (d.queue q).allot
  if d.atsOn fn then
    match d.translated fn (d.pasidOf q) (addr / 4096) with
    | some t => t.frame * 4096 + addr % 4096
    | none => addr
  else addr

/-- The parts of a range that a queue reaches at one address each, by offset and length: its pages while the function has ATS enabled, else
the range whole. -/
def Dev.hostParts (d : Dev) (q addr len : Nat) : List (Nat × Nat) :=
  if d.atsOn (d.queue q).allot then
    (pagesOf addr len).map (fun k =>
      let lo := max addr (4096 * k)
      (lo - addr, min (addr + len) (4096 * (k + 1)) - lo))
  else [(0, len)]

/-- A host write in the pieces that Table 6-9 has requests for: a partial line, whole lines, a partial line; whether the piece is of
whole lines, its address, its bytes. -/
def hostPieces (addr : Nat) (bs : Bytes) : List (Bool × Nat × Bytes) :=
  let h := (64 - addr % 64) % 64
  let n := (bs.length - h) / 64 * 64
  [(false, addr, bs.take h), (true, addr + h, (bs.drop h).take n), (false, addr + h + n, bs.drop (h + n))].filter (fun p => !p.2.2.isEmpty)

/-- Write bytes at one address on the path of a queue (R306, R308, R312). -/
def Dev.hostPut (d : Dev) (q : Nat) (ro : Bool) (addr : Nat) (bs : Bytes) : Dev :=
  if d.viaCache q then
    (hostPieces addr bs).foldl (fun d p =>
      d.emit (.hostWrite (d.hostReq q (if p.1 then .itoMWr else .woWrInv)) (BitVec.ofNat 64 p.2.1) p.2.2)) d
  else d.emit (.hostWrite (d.hostReq q (.memWrite (ro && d.relaxed (d.queue q).allot))) (BitVec.ofNat 64 addr) bs)

/-- Write host memory for a queue (R306, R308, R312); `ro` when the write may carry Relaxed Ordering. -/
def Dev.hostWrite (d : Dev) (q : Nat) (ro : Bool) (addr : Word64) (bs : Bytes) : Dev :=
  let d := d.translate q addr.toNat bs.length
  (d.hostParts q addr.toNat bs.length).foldl (fun d p =>
    d.hostPut q ro (d.hostAddr q (addr.toNat + p.1)) ((bs.drop p.1).take p.2)) d

/-- Read host memory for a queue, without keeping a line (R306, R312). -/
def Dev.hostFetch (d : Dev) (q : Nat) (addr : Word64) (len : Nat) : Dev :=
  let d := d.translate q addr.toNat len
  (d.hostParts q addr.toNat len).foldl (fun d p =>
    d.emit (.hostRead (d.hostReq q (if d.viaCache q then .rdCurr else .memRead))
      (BitVec.ofNat 64 (d.hostAddr q (addr.toNat + p.1))) p.2)) d

/-- A host write that is not yet globally observed (R308, R313). -/
def Dev.await (d : Dev) (w : HostWait) : Dev := { d with hp := { d.hp with writes := d.hp.writes ++ [w] } }

/-- The submission slot of a sequence (R330). -/
def Dev.slotAddr (d : Dev) (q seq : Nat) : Word64 :=
  d.addr64 (Reg.QCT_SQ_LO q) (Reg.QCT_SQ_HI q) + BitVec.ofNat 64 (128 * (seq % d.ringN q))
/-- The completion slot of a sequence (R330). -/
def Dev.cqAddr (d : Dev) (q seq : Nat) : Word64 :=
  d.addr64 (Reg.QCT_CQ_LO q) (Reg.QCT_CQ_HI q) + BitVec.ofNat 64 (32 * (seq % d.ringN q))
/-- The header line of a queue. -/
def Dev.hdrAddr (d : Dev) (q : Nat) : Word64 := d.addr64 (Reg.QCT_HDR_LO q) (Reg.QCT_HDR_HI q)
/-- The doorbell line of a queue. -/
def Dev.dbAddr (d : Dev) (q : Nat) : Word64 := d.addr64 (Reg.QCT_DB_LO q) (Reg.QCT_DB_HI q)

/-- The binding serial a queue's header line carries (Table 7-2). -/
def Dev.serialOf (d : Dev) (q : Nat) : Nat := if (d.queue q).allot = 0 then 0 else (d.allot (d.queue q).allot).serial.toNat

/-- The INCARNATION and BINDING that a queue writes into its header line: the current ones (Table 7-2); those that the line carried, once an
arm has found that they differ, until phase 5 of an arm rewrites them (Table 7-18). DEDUCED (log 23): an arm that is cut off after it has
written the line leaves the next arm the mismatch it found (R379). -/
def Dev.headerId (d : Dev) (q : Nat) : Word32 × Word32 :=
  if (d.queue q).armStale then (d.queue q).hdrId else (d.reg Reg.GLB_INCARNATION, BitVec.ofNat 32 (d.serialOf q))

/-- The bytes of a queue's header line (Table 7-2). -/
def Dev.headerBytes (d : Dev) (q : Nat) : Bytes :=
  leBytes 8 (d.queue q).accept ++ leBytes 8 (d.queue q).c ++ leBytes 4 (d.headerId q).1.toNat ++ leBytes 4 (d.headerId q).2.toNat ++
    List.replicate 40 0

/-- Write the header line of a queue, whole and in one write (R335). -/
def Dev.writeHeader (d : Dev) (q : Nat) : Dev :=
  ((d.hostWrite q false (d.hdrAddr q) (d.headerBytes q)).await (.header q)).updQueue q (fun x => { x with sinceHdr := 0 })

/-- A completion record as bytes (Table 7-12). -/
def Record.bytes (r : Record) : Bytes :=
  leBytes 8 r.seq ++ [BitVec.ofNat 8 r.status, BitVec.ofNat 8 r.flags.toNat, BitVec.ofNat 8 r.fault, BitVec.ofNat 8 r.lpav] ++
  leBytes 4 r.pc ++ leBytes 8 r.energy ++ leBytes 8 r.tag.toNat

/-- The record of a completed descriptor. -/
def Exec.record (e : Exec) : Record :=
  ⟨e.seq, e.status, e.flags, e.fault, e.lpav, e.pc, e.energy, BitVec.ofNat 64 (e.f 0x18 0 64), e.f 1 0 1 == 1⟩

/-- Write a record into its completion slot, never with Relaxed Ordering (R308, R330). -/
def Dev.writeRecord (d : Dev) (q : Nat) (r : Record) : Dev := d.hostWrite q false (d.cqAddr q r.seq) r.bytes

/-! ### Interrupts (R296 to R298) -/

/-- The vector behind entry k of a function (R296, R297). -/
def Dev.vectorOf (d : Dev) (fn k : Nat) : Option Nat :=
  if fn = 0 then (if k < 64 then some k else none) else (d.allot fn).vecs[k]?

/-- An MSI-X entry at reset: masked. -/
def Msix.reset : Msix := ⟨0, 0, true, false⟩
def Dev.msix (d : Dev) (v : Nat) : Msix := Tab.get Msix.reset d.hp.msix v
def Dev.setMsix (d : Dev) (v : Nat) (m : Msix) : Dev := { d with hp := { d.hp with msix := Tab.set Msix.reset d.hp.msix v m } }
/-- Message control of a function's MSI-X capability (0x0A0): enable in bit 31, function mask in bit 30. -/
def Dev.msixCtl (d : Dev) (fn : Nat) : Bool × Bool :=
  ((d.cfgWord fn 0xA0).testBit 31, (d.cfgWord fn 0xA0).testBit 30)

/-- Signal an entry of a function: the message is sent, or its pending bit set while it is masked (R298); none while the
allotment clears (R415). -/
def Dev.signal (d : Dev) (fn k : Nat) : Dev :=
  match d.vectorOf fn k with
  | none => d
  | some v =>
    let (en, fm) := d.msixCtl fn
    if !en || (d.allot fn).st == .clearing then d
    else if fm || (d.msix v).masked then d.setMsix v { d.msix v with pending := true }
    else d.emit (.msix fn k)

/-- Send the messages that a function's mask held, once it allows them (R298); none while its allotment clears (R415). -/
def Dev.flushMsix (d : Dev) (fn : Nat) : Dev :=
  let (en, fm) := d.msixCtl fn
  if en && !fm && (d.allot fn).st != .clearing then
    (List.range (if fn = 0 then 64 else (d.allot fn).vecs.length)).foldl (fun (d : Dev) k =>
      match d.vectorOf fn k with
      | some v =>
        let m : Msix := d.msix v
        if m.pending && !m.masked then (d.setMsix v { m with pending := false }).emit (.msix fn k) else d
      | none => d) d
  else d

/-- Signal the entry of a queue (R358). -/
def Dev.signalQueue (d : Dev) (q : Nat) : Dev :=
  let cfg := (d.reg (Reg.QCT_CFG q)).toNat
  if cfg.testBit 15 then d.signal (d.queue q).allot (cfg % 4096) else d

/-- A queue enters ERROR with a reason (R376); ARM reads 0 again (R378). -/
def Dev.queueError (d : Dev) (q reason : Nat) : Dev :=
  ((d.updQueue q (fun x => { x with st := .error, reason := reason, arm := none, armHeld := false, read := [] })).raise
    (Reg.QCT_ERR_EVT q)).fire 46 (q + 65536 * reason)

/-! ### Errors (R317, R324): the RAS registers follow CXL, the AER words PCIe (PRESUMED, log 73) -/

/-- The places of the CXL RAS Capability among the component registers (log 74): uncorrectable status, mask and severity, correctable
status and mask. -/
def rasUe : Nat := 0x1100
def rasCe : Nat := 0x110C
/-- The errors that CXL defines, bit by bit. -/
def rasUeBits : Nat := 0x1CFFF
def rasCeBits : Nat := 0x7F
/-- What a component register that nothing has written holds: the masks of the RAS Capability. -/
def compInit (off : Nat) : Word32 :=
  if off = rasUe + 4 ∨ off = rasUe + 8 then BitVec.ofNat 32 rasUeBits else if off = rasCe + 4 then BitVec.ofNat 32 rasCeBits else 0
def Dev.comp (d : Dev) (off : Nat) : Word32 := Tab.getD compInit d.hp.comp off
def Dev.setComp (d : Dev) (off : Nat) (v : Word32) : Dev := { d with hp := { d.hp with comp := Tab.setD compInit d.hp.comp off v } }

/-- AER records an internal error, and reports it by a message where its mask and the Device Control or Command register allow: 0
correctable, 1 non-fatal, 2 fatal, which the severity register chooses (R324). -/
def Dev.aerReport (d : Dev) (ue : Bool) : Dev :=
  if ue then
    let d : Dev := { d with hp := { d.hp with aerUe := true } }
    let kind := if (d.cfgWord 0 0x10C).testBit 22 then 2 else 1
    if !(d.cfgWord 0 0x108).testBit 22 && ((d.cfgWord 0 0x58).testBit kind || (d.cfgWord 0 0x04).testBit 8) then d.emit (.errMessage kind) else d
  else
    let d : Dev := { d with hp := { d.hp with aerCe := true } }
    if !(d.cfgWord 0 0x114).testBit 14 && (d.cfgWord 0 0x58).testBit 0 then d.emit (.errMessage 0) else d

/-- An error on CXL.cachemem: recorded in the RAS Capability and, unless it is masked there, in AER (R324). -/
def Dev.rasRecord (d : Dev) (e : Option RasErr) : Dev :=
  match e with
  | none => d
  | some e =>
    let at_ := if e.uncorrectable then rasUe else rasCe
    let b := e.bit.toNat
    if !(if e.uncorrectable then rasUeBits else rasCeBits).testBit b then d
    else
      let first := e.uncorrectable && d.comp rasUe == 0
      let d := d.setComp at_ (d.comp at_ ||| BitVec.ofNat 32 (2 ^ b))
      let d := if first then d.setComp (rasUe + 0x14) (BitVec.ofNat 32 b) else d
      if (d.comp (at_ + 4)).toNat.testBit b then d else d.aerReport e.uncorrectable

/-! ### How a host access ends -/

/-- The reason for which a host access of a queue puts it in ERROR (R314, R336, Table 7-17); none when the access is done. -/
def Dev.hostErr (d : Dev) (q : Nat) (r : HostEnd) : Option Nat :=
  if d.atsLost q then some 7
  else match r with | .ok => none | .noPermission => some 7 | .fault => some 8

/-- A host access of a queue ends: the queue enters ERROR, unless it is there already, or goes on. -/
def Dev.hostThen (d : Dev) (q : Nat) (r : HostEnd) (f : Dev → Dev) : Dev :=
  match d.hostErr q r with
  | none => f d
  | some n => if (d.queue q).st = .error then d else d.queueError q n

/-- The error met with a queue's accesses on CXL.cache is recorded (R324). -/
def Dev.cacheErr (d : Dev) (x : Qh) : Dev := if d.viaCache x.val then d.rasRecord x.ras else d

/-- The host accesses of a queue's command end: an error met on the way is recorded, and the queue enters ERROR or goes on. -/
def Dev.hostDone (d : Dev) (x : Qh) (f : Dev → Dev) : Dev := (d.cacheErr x).hostThen x.val x.res f

/-- Read ranges of host memory for a queue. -/
def Dev.hostReads (d : Dev) (q : Nat) (rs : List (Word64 × Nat)) : Dev := rs.foldl (fun d r => d.hostFetch q r.1 r.2) d

/-- Read ranges of host memory for a queue and go on: nothing is read where its translations are lost or denied (R312, R314, R336). -/
def Dev.fetchThen (d : Dev) (x : Qh) (rs : List (Word64 × Nat)) (f : Dev → Dev) : Dev :=
  let d :=
    if d.atsLost x.val then d
    else if x.res = .noPermission then rs.foldl (fun d r => d.askDenied x.val r.1.toNat r.2) d
    else d.hostReads x.val rs
  d.hostDone x f

end Sys2Proof.Machine
end

