-- ==== Sys2Proof/Machine/Cistern.lean ====
section
/-! DEFINITION. The Cisterns (chapter 4): arming, packet decisions, readout, posting, and the commands of the family. -/

namespace Sys2Proof.Machine

/-! ### Packets on the wire (Tables 4-4 and 4-5) -/

/-- A packet as header and payload. -/
def Packet.bytes (k : Packet) : Bytes :=
  leBytes 4 (k.srcModule.toNat * 2 ^ 16 + bit k.scaled * 2 ^ 12 + k.fmtB * 2 ^ 8 + k.fmtA * 2 ^ 4 + k.kind) ++
  leBytes 4 k.group.toNat ++ leBytes 4 k.part.toNat ++ leBytes 4 (k.blk * 2 ^ 16 + k.queue) ++ leBytes 8 k.seq ++
  leBytes 8 k.nanmask.toNat ++ k.payload

/-- A packet from the payload of a CONTRIB frame. -/
def Packet.ofBytes (bs : Bytes) : Packet :=
  let w := fun o n => leNat ((bs.drop o).take n)
  { srcModule := BitVec.ofNat 16 (w 2 2), scaled := (w 0 4).testBit 12, fmtB := bitsOf (w 0 4) 8 4, fmtA := bitsOf (w 0 4) 4 4,
    kind := w 0 4 % 16, group := BitVec.ofNat 32 (w 4 4), part := BitVec.ofNat 32 (w 8 4), blk := bitsOf (w 12 4) 16 10,
    queue := w 12 4 % 4096, seq := w 16 8, nanmask := BitVec.ofNat 64 (w 24 8), payload := bs.drop 32 }

/-- Data bytes of 64 elements of a format: Db of R198. -/
def Fmt.db (f : Fmt) : Nat := 8 * f.bits

/-- The value that element or cell j of a packet adds to ledger j, and the flags of the input (R204, R205). -/
def Packet.value (k : Packet) (j : Nat) : Val × Flags :=
  match k.kind with
  | 0 =>
    match Fmt.ofCode k.fmtA with
    | some f =>
      let sc := if k.scaled then ((k.payload.drop f.db).getD (j / 32) 0).toNat else 0x7F
      elemVal f sc (bitsOf (leNat k.payload) (f.bits * j) f.bits)
    | none => (.num false 0, 0)
  | 1 =>
    if k.nanmask.toNat.testBit j then (.nan, 0)
    else
      match Fmt.ofCode k.fmtA, Fmt.ofCode k.fmtB with
      | some fa, some fb =>
        let v := sInt 128 (leNat ((k.payload.drop (16 * j)).take 16))
        (match pairKind fa fa.mustScale fb fb.mustScale with | some kd => Cell.val kd ⟨v, false, false⟩ | none => .num false 0, 0)
      | _, _ => (.num false 0, 0)
  | 2 =>
    if k.nanmask.toNat.testBit j then (.nan, 0)
    else (Val.ofInt (sInt 640 (leNat ((k.payload.drop (80 * j)).take 80))), 0)
  | _ => (.num false 0, 0)

/-- Add a packet to the ledgers of a block (R80, R81, R204, R205). -/
def CisBlk.addPacket (b : CisBlk) (k : Packet) : CisBlk :=
  (List.range 64).foldl (fun b j =>
    let (v, fl) := k.value j
    let l := Tab.get ⟨0, false⟩ b.ledgers j
    let l := match v with
      | .nan => { l with nan := true }
      | v => { l with v := l.v + v.int }
    { b with ledgers := Tab.set ⟨0, false⟩ b.ledgers j l, flags := b.flags ||| fl }) b

/-! ### REDUCE parameters (Tables 4-1, 4-2, 7-9) -/

/-- Target record t of a REDUCE. -/
def Exec.target (e : Exec) (t : Nat) : Target :=
  let o := 0x40 + 16 * t
  ⟨e.f o 0 4, e.f (o + 1) 6 1 == 1, BitVec.ofNat 6 (e.f (o + 1) 0 6), e.f (o + 2) 0 16, e.f (o + 4) 0 8, BitVec.ofNat 64 (e.f (o + 8) 0 64)⟩

/-- Does a target record break R198 or its alignment? -/
def Exec.targetBad (e : Exec) (t : Nat) : Bool :=
  let o := 0x40 + 16 * t
  let g := e.target t
  e.f o 4 4 != 0 || e.f (o + 1) 7 1 != 0 || e.f (o + 5) 0 24 != 0 || (g.kind != 1 && g.kind != 2) ||
  (g.kind == 2 && (g.ev || g.evn != 0 || g.pav != 0)) || g.addr.toNat % 16 != 0 || (g.kind == 1 && decide (2 ^ 22 ≤ g.addr.toNat))

/-- The parameters that block i of a REDUCE records (R200). -/
def Exec.armParams (e : Exec) (q i : Nat) : ArmParams :=
  { gather := e.f 0x20 0 2 == 1, i := i, nb := e.f 0x20 12 7, expect := e.f 0x20 19 13, partBase := BitVec.ofNat 32 (e.f 0x24 0 32),
    fmt := e.f 0x28 0 4, scaled := e.f 0x28 4 1 == 1, rmode := e.f 0x28 5 3, seed := BitVec.ofNat 64 (e.f 0x30 0 64),
    ibase := BitVec.ofNat 64 (e.f 0x38 0 64), targets := (List.range (e.f 0x29 0 3)).map e.target, q := q, seq := e.seq }

/-- Bytes that all posts of a REDUCE write from ADDR (R214, R215). -/
def ArmParams.span (p : ArmParams) : Nat :=
  match Fmt.ofCode p.fmt with
  | some f => if p.gather then p.nb * p.expect * f.db else p.nb * f.db + (if p.scaled then 2 * p.nb else 0)
  | none => 0

/-- The status with which a REDUCE fails its checks, in the order of R198; none when it passes. -/
def Dev.reduceBad (d : Dev) (a : Nat) (e : Exec) : Option Nat :=
  let p := e.armParams 0 0
  let blk := e.f 0x20 2 10
  let n := e.f 0x29 0 3
  let mode := e.f 0x20 0 2
  let bad := e.headBad || decide (2 ≤ mode) || p.nb == 0 || decide (64 < p.nb) || p.expect == 0 || decide (4096 < p.expect) ||
    decide (1024 < blk + p.nb) || n == 0 || decide (4 < n) || e.f 0x29 3 5 != 0 || e.f 0x2A 0 48 != 0 ||
    (List.range n).any e.targetBad || (List.range 4).any (fun t => decide (n ≤ t) && e.f (0x40 + 16 * t) 0 128 != 0) ||
    p.targets.any (fun t => t.kind == 1 && bedOut t.addr.toNat (t.addr.toNat + p.span : Nat))
  if bad then some 0x21
  else
    match Fmt.ofCode p.fmt with
    | none => some 0x20
    | some f =>
      if 4 < p.rmode ∨ (if p.gather then p.scaled ∨ p.fmt = 5 ∨ p.fmt = 6 else f.scaleOk p.scaled = false) then some 0x20
      else
        let al := d.allot a
        let miss := fun t : Target =>
          decide (al.nmod ≤ t.module) ||
          (if t.kind == 2 then !plotAddrOk t.addr p.span else decide (143 < t.pav)) ||
          (t.module == d.lmod al &&
            (if t.kind == 2 then (d.plotMA a t.addr p.span).isNone else (d.pavOf a t.pav).isNone))
        if (List.range p.nb).any (fun i => (d.blkOf a (blk + i)).isNone) || p.targets.any miss then some 0x31 else none

/-! ### Arming (R200, R201) -/

/-- What a REDUCE does with one block (R201). -/
inductive ArmCase where
  | arm | wait | join | faulted | bad
  deriving DecidableEq, Repr

/-- The first matching case of R201. -/
def CisBlk.armCase (b : CisBlk) (g : Word32) (q seq : Nat) : ArmCase :=
  let open_ := b.st == .idle || b.st == .committed
  if open_ && (!b.fresh && groupNewer g b.group) then .arm
  else if b.st == .idle && b.fresh then .arm
  else if (b.st == .arming || b.st == .armed || b.st == .posting || b.st == .posted) && groupOlder b.group g then .wait
  else if g == b.group && (match b.params with | some p => p.q == q && p.seq == seq | none => false) && !b.fresh then .join
  else if b.st == .faulted then .faulted
  else .bad

/-- Is a user of memory a piece of a block's post? -/
def MemUser.ofBlk (b : Nat) : MemUser → Bool
  | .post k _ => k == b
  | _ => false

/-- Arm physical block `b` as block i of a REDUCE (R200); a REDUCE executed again announces it (R223). -/
def Dev.arm (d : Dev) (a : Nat) (e : Exec) (q i b : Nat) : Dev :=
  let p := e.armParams q i
  let y := { CisBlk.reset with allot := (d.blk b).allot, waiters := (d.blk b).waiters }
  let d := d.usersGone (MemUser.ofBlk b)
  let d := d.setBlk b { y with st := .arming, fresh := false, group := e.group, params := some p }
  if e.replayed then d.controlAll (d.allot a) 8 (e.f 0x20 2 10 + i) 0 e.group 0 else d

/-- The allotment of a queue. -/
def Dev.qAllot (d : Dev) (q : Nat) : Nat := (d.queue q).allot

/-- The OR of the flags of every block that a REDUCE armed (R104, R219). -/
def Dev.reduceFlags (d : Dev) (q seq : Nat) : Flags :=
  d.blks.foldl (fun f b => match b.2.params with | some p => if p.q = q ∧ p.seq = seq then f ||| b.2.flags else f | none => f) 0

/-- A REDUCE completes with a status and the flags of its blocks (R104). -/
def Dev.finishReduce (d : Dev) (q seq status : Nat) : Dev :=
  (d.updExec q seq (fun e => { e with flags := e.flags ||| d.reduceFlags q seq })).finish q seq status

/-- A REDUCE completes once every block it armed is POSTED, with the OR of their flags (R219). -/
def Dev.checkReduce (d : Dev) (q seq : Nat) : Dev :=
  match d.exec? q seq with
  | none => d
  | some e =>
    if e.complete ∨ e.typ ≠ 3 ∨ !e.started then d
    else
      let bs := (List.range (e.f 0x20 12 7)).filterMap (fun i => d.blkOf (d.qAllot q) (e.f 0x20 2 10 + i))
      let mine := fun b => match (d.blk b).params with
        | some p => p.q == q && p.seq == seq && ((d.blk b).st == .posted || (d.blk b).st == .committed)
        | none => false
      if bs.all mine then d.finishReduce q seq 0 else d

/-- Decide the REDUCEs that wait on a block, in the order in which they began to wait (R201). -/
def Dev.redecide (d : Dev) (b : Nat) : Dev :=
  let ws := (d.blk b).waiters
  let d := d.updBlk b (fun x => { x with waiters := [] })
  ws.foldl (fun d w =>
    match d.exec? w.1 w.2.1 with
    | none => d
    | some e =>
      if e.complete then d
      else
        match (d.blk b).armCase e.group w.1 w.2.1 with
        | .arm => d.arm (d.qAllot w.1) e w.1 w.2.2 b
        | .wait => d.updBlk b (fun x => { x with waiters := x.waiters ++ [w] })
        | .join => d
        | .faulted => d.finishReduce w.1 w.2.1 0x7F
        | .bad => d.finishReduce w.1 w.2.1 0x21) d

/-- A block changes state: what waits on it is decided again. -/
def Dev.blkState (d : Dev) (b : Nat) (st : BlkSt) : Dev := (d.updBlk b (fun x => { x with st := st })).redecide b

/-! ### Posting (R213 to R218) -/

/-- Bytes of a post at its target: offset from ADDR and data (R214). -/
def CisBlk.pieces (b : CisBlk) (p : ArmParams) : List (Nat × Bytes) :=
  match Fmt.ofCode p.fmt with
  | none => []
  | some f => (p.i * f.db, b.out.take f.db) :: (if p.scaled then [(p.nb * f.db + 2 * p.i, b.out.drop f.db)] else [])

/-- Write bytes at a local target as piece n of a block's post to it: 0, or the status it gives its REDUCE (R168, R218). A write to a plot
may wait; it has landed when `postLands` says so. -/
def Dev.postLocal (d : Dev) (a b tgt n : Nat) (t : Target) (off : Nat) (bs : Bytes) : Dev × Nat :=
  if t.kind = 2 then
    match d.plotOf a (t.addr.toNat / 2 ^ 30) with
    | some pl => (d.issueWrite (.post b (4 * n + tgt)) (pl * 2 ^ 30 + (t.addr.toNat + off) % 2 ^ 30) bs, 0)
    | none => (d, 0x31)
  else
    match d.pavOf a t.pav with
    | none => (d, 0x31)
    | some p =>
      let x := d.pav p
      let lo := t.addr.toNat + off
      if bedOut lo (lo + bs.length : Nat) || (x.runs && x.hitsCode lo (lo + bs.length : Nat)) then (d, 0x21)
      else (d.setPav p ((x.bedWrite lo bs).noteRx none), 0)

/-- What the writes of a block's post to a plot target give. -/
def Dev.postLands (d : Dev) (b tgt : Nat) : RdRes := d.mem.resultOfAll (fun u => match u with | .post k n => k == b && n % 4 == tgt | _ => false)

/-- Is a target on this module? -/
def Dev.isLocal (d : Dev) (a : Nat) (t : Target) : Bool := t.module == d.lmod (d.allot a)

/-- A post could not land: its REDUCE completes with a status (R218). -/
def Dev.postFails (d : Dev) (b status : Nat) : Dev :=
  match (d.blk b).params with
  | some p => d.finishReduce p.q p.seq status
  | none => d

/-- The next event ordinal of a Cistern toward one Pavilion of an allotment in one group (R171, R216). -/
def Dev.cisOrd (d : Dev) (a c m l : Nat) (g : Word32) : Dev × Nat :=
  let t := fun k : CisMark => k.allot == a && k.cistern == c && k.dstMod == m && k.dstPav == l && k.group == g
  let n := match d.cisMarks.find? t with | some k => k.ord + 1 | none => 1
  ({ d with cisMarks := d.cisMarks.filter (fun k => !t k) ++ [⟨a, c, m, l, g, n⟩] }, n)

/-- Every target has acknowledged its data and its signal: the block is POSTED (R216, R219). -/
def Dev.postDone (d : Dev) (b tgt : Nat) : Dev :=
  let d := d.updBlk b (fun x => { x with postLeft := x.postLeft.filter (· != tgt) })
  match (d.blk b).params with
  | some p => if (d.blk b).postLeft.isEmpty then (d.blkState b .posted).checkReduce p.q p.seq else d
  | none => d

/-- An event of the Cistern to the same Pavilion is not acknowledged yet (R171). -/
def Dev.cisBusy (d : Dev) (b : Nat) (t : Target) : Bool :=
  d.blks.any (fun e => e.1 / 64 == b / 64 && e.2.allot == (d.blk b).allot && e.2.evOut.any (fun k =>
    match e.2.params with
    | some p => (match p.targets[k]? with | some u => u.module == t.module && u.pav == t.pav | none => false)
    | none => false))

/-- Send bytes of a post to a remote target, with the post's event or without it (R216, R454, Table 9-6); the sender counts the message
until its MSG_ACK. The two scale bytes of a scaled result go in a frame of their own (log 78). -/
def Dev.postRemote (d : Dev) (a b tgt : Nat) (t : Target) (off : Nat) (bs : Bytes) (ev : Bool) : Dev :=
  let al := d.allot a
  let m := d.modId al t.module
  let g := (d.blk b).group
  let d := d.updBlk b (fun x => { x with sendOut := Tab.upd 0 x.sendOut tgt (· + 1), evOut := if ev then x.evOut ++ [tgt] else x.evOut })
  if t.kind = 2 then d.postSend m (d.mkMessage ftPlotData m al.token (t.addr.toNat + off) bs) (.post b tgt g)
  else
    let (d, n) := if ev then d.cisOrd a (b / 64) t.module t.pav g else (d, 0)
    let args := t.pav + (0xC0 + b / 64) * 2 ^ 8 + (if ev then 2 ^ 16 + t.evn.toNat * 2 ^ 17 else 0) + (t.addr.toNat + off) * 2 ^ 32 +
      g.toNat * 2 ^ 64 + n % 2 ^ 32 * 2 ^ 96
    d.postSend m (d.mkMessage ftBedData m al.token args bs) (if ev then .postEv b tgt g else .post b tgt g)

/-- Send the message with a post's event, unless an event of the Cistern to the same Pavilion is outstanding (R171, R216). -/
def Dev.sendPostEv (d : Dev) (b tgt : Nat) : Dev :=
  let x := d.blk b
  match x.evLeft.find? (fun e => e.1 == tgt), x.params with
  | some e, some p =>
    match p.targets[tgt]? with
    | some t =>
      if d.cisBusy b t then d
      else (d.updBlk b (fun x => { x with evLeft := x.evLeft.filter (fun e => e.1 != tgt) })).postRemote x.allot b tgt t e.2.1 e.2.2 true
    | none => d
  | _, _ => d

/-- Send the events that wait at the blocks of a Cistern. -/
def Dev.sendPostEvs (d : Dev) (c : Nat) : Dev :=
  d.blks.foldl (fun d e => if e.1 / 64 = c then e.2.evLeft.foldl (fun d k => d.sendPostEv e.1 k.1) d else d) d

/-- Send the pieces of a post to a remote target; the last of them carries the post's event, if it has one and `fin` holds. -/
def Dev.postPieces (d : Dev) (a b tgt : Nat) (t : Target) (ps : List (Nat × Bytes)) (fin : Bool) : Dev :=
  if t.ev && t.kind != 2 && fin then
    let d := ps.dropLast.foldl (fun d pc => d.postRemote a b tgt t pc.1 pc.2 false) d
    match ps.getLast? with
    | some pc => (d.updBlk b (fun x => { x with evLeft := x.evLeft ++ [(tgt, pc.1, pc.2)] })).sendPostEv b tgt
    | none => d
  else ps.foldl (fun d pc => d.postRemote a b tgt t pc.1 pc.2 false) d

/-- The signal of a post whose data has landed at a local target; the post is done once it is acknowledged (R216). -/
def Dev.postSignal (d : Dev) (a b tgt : Nat) (t : Target) : Dev :=
  let x := d.blk b
  if !t.ev then d.postDone b tgt
  else
    match d.pavOf a t.pav with
    | none => (d.postFails b 0x31).postDone b tgt
    | some p =>
      let (d2, n) := d.cisOrd a (b / 64) t.module t.pav x.group
      let (d2, o) := d2.recvEvent p ⟨x.group, d.moduleId, 0xC0 + b / 64, n, false, t.evn, 1, none⟩
      if o = .retry then d else d2.postDone b tgt

/-! ### Packet decisions (Table 4-6) -/

/-- A GATHER block writes an accepted packet to every target; the event goes with the last one (R215, R216). -/
def Dev.gather (d : Dev) (b q : Nat) (p : ArmParams) (bs : Bytes) (fin : Bool) : Dev :=
  let a := (d.blk b).allot
  (p.targets.zip (List.range p.targets.length)).foldl (fun d t =>
    let off := (p.i * p.expect + q) * bs.length
    if d.isLocal a t.1 then
      match d.postLocal a b t.2 q t.1 off bs with
      | (d, 0) => if d.postLands b t.2 = .bad then d.postFails b 0x50 else d
      | (d, st) => d.postFails b st
    else d.postPieces a b t.2 t.1 [(off, bs)] fin) d

/-- Is a block of an allotment not bound or CLEARING (row 1 of Table 4-6)? -/
def Dev.blkRefused (d : Dev) (a blk : Nat) : Bool :=
  match d.blkOf a blk with | none => true | some b => (d.blk b).st == .clearing

/-- What Table 4-6 says of a packet, by its header: refusal with ACCESS, refusal with retry, discard, refusal with FORMAT, discard as a
duplicate of an arrived packet, or acceptance at a position. -/
inductive PacketRow where
  | access | retry | discard | format | duplicate
  | accept (p : ArmParams) (q : Nat)
  deriving DecidableEq, Repr

/-- The first matching row of Table 4-6 for a packet at a physical block from a sender of allotment `a` (R206, R207). -/
def Dev.packetRow (d : Dev) (a b : Nat) (k : Packet) : PacketRow :=
  let x := d.blk b
  if a = 0 ∨ x.allot ≠ a ∨ x.st = .clearing then .access
  else if x.st = .idle ∨ groupNewer k.group x.group ∨ x.st = .arming then .retry
  else if groupOlder k.group x.group then .discard
  else
    match x.st, x.params with
    | .armed, some p =>
      let q := (k.part - p.partBase - BitVec.ofNat 32 p.i).toNat
      if k.queue = p.q ∧ k.srcModule = d.moduleId ∧ k.seq < p.seq then .access
      else if p.expect ≤ q then .access
      else if p.gather ∧ (k.kind ≠ 0 ∨ k.fmtA ≠ p.fmt ∨ k.scaled) then .format
      else if Tab.get false x.arrived q then .duplicate
      else .accept p q
    | _, _ => .discard

/-- A block takes an accepted packet at position q; the packet that completes its count makes it POSTING (R210, R215). -/
def Dev.acceptPacket (d : Dev) (b : Nat) (k : Packet) (p : ArmParams) (q : Nat) : Dev :=
  let x := d.blk b
  let y := { x with arrived := Tab.set false x.arrived q true, count := x.count + 1 }
  let d := d.setBlk b (if p.gather then y else y.addPacket k)
  let d := if p.gather then d.gather b q p k.payload (y.count == p.expect) else d
  if y.count = p.expect then (d.updBlk b (fun z => { z with postLeft := List.range p.targets.length })).blkState b .posting else d

/-- Decide a packet at a physical block for a sender of allotment `a` (R206 to R212). -/
def Dev.decidePacket (d : Dev) (a b : Nat) (k : Packet) : Dev × Outcome8 :=
  match d.packetRow a b k with
  | .access => (d, .access)
  | .retry => (d.bump (Reg.CIS_REFUSED (b / 64)) F.CIS_REFUSED_RETRIES 1, .retry)
  | .discard => (d, .discarded)
  | .format => (d, .format)
  | .duplicate => (d.raise (Reg.CIS_DUP_EVT (b / 64)), .discarded)
  | .accept p q => (d.acceptPacket b k p q, .landed)

/-- Decide a packet by its header before its payload is whole: one that Table 4-6 accepts waits for the rest of its bytes (R454). -/
def Dev.packetFirst (d : Dev) (a b : Nat) (k : Packet) : Dev × Outcome8 :=
  match d.packetRow a b k with
  | .accept _ _ => (d, .landed)
  | _ => d.decidePacket a b k

/-- The whole of a packet that was accepted by its header: a block that has since left ARMED, or has counted another copy, takes nothing of
it (log 26). -/
def Dev.packetLast (d : Dev) (a b : Nat) (k : Packet) : Dev :=
  match d.packetRow a b k with
  | .accept p q => d.acceptPacket b k p q
  | _ => d

/-! ### Commands of the Cisterns -/

/-- ARMING_END (R200): the ledgers and the arrival map are clear. A Cistern that stalls does nothing (R617). -/
def execArmingEnd (b : Bx) (s : State) : Host.Outcome State Fault Refusal := onDev s fun d =>
  if (d.blk b.val).st = .arming ∧ !d.stalled then d.blkState b.val .armed else d

/-- A packet of a CSEND to the module of index `m` has been accepted or discarded: its descriptor has contributed to the packet's block, and
it commits after the REDUCE that armed it (R220). -/
def Dev.contributed (d : Dev) (m : Nat) (pk : Packet) : Dev :=
  let a := d.qAllot pk.queue
  let k : ContribMark := ⟨m, pk.blk, if m = d.lmod (d.allot a) then d.blkOf a pk.blk else none, pk.group, false⟩
  d.updExec pk.queue pk.seq (fun e => if e.contribs.contains k then e else { e with contribs := e.contribs ++ [k] })

/-- Deliver packet k of a CSEND (R194, R207, R454, R457): here by Table 4-6, elsewhere in a CONTRIB message. While the allotment is CLEARING
a packet for a block of this module is refused with retry, as one from another module is (Table 9-7 row 3). -/
def Dev.sendPacket (d : Dev) (p id k : Nat) : Dev :=
  let x := d.pav p
  let al := d.allot x.allot
  if d.stalled then d else
  match x.xfer? id with
  | none => d
  | some t =>
    match t.kind, t.pkts.find? (fun e => e.1 == k) with
    | .csend, some (_, pk) =>
      if t.dstMod = d.lmod al then
        if al.st = .clearing ∧ !d.blkRefused x.allot pk.blk then d else
        let done := fun (d : Dev) => d.updPav p (fun x => x.updXfer id (fun t => { t with pkts := t.pkts.filter (fun e => e.1 != k) }))
        match d.blkOf x.allot pk.blk with
        | none => d.deferFault p id .access
        | some b =>
          match d.decidePacket x.allot b { pk with blk := b } with
          | (d, .landed) => (done d).contributed t.dstMod pk
          | (d, .discarded) => (done d).contributed t.dstMod pk
          | (d, .access) => d.deferFault p id .access
          | (d, .format) => d.deferFault p id .format
          | (d, _) => d
      else if t.pkSent.contains k then d
      else
        let m := d.modId al t.dstMod
        if d.routeDead m then (d.noteUnreach m).deferFault p id .remote
        else
          (d.updPav p (fun x => x.updXfer id (fun t => { t with pkSent := t.pkSent ++ [k] }))).trlSend m
            (d.mkMessage ftContrib m al.token 0 (padTo16 pk.bytes)) (.packet pk.queue pk.seq p id k)
    | _, _ => d

/-- CONTRIBUTION_PACKET (R207). -/
def execContributionPacket (p : Pv) (id k : Nat) (s : State) : Host.Outcome State Fault Refusal := onDev s fun d =>
  d.sendPacket p.val id k

/-- CONTRIBUTION_RETRY (R208): a packet that is still kept is sent again. -/
def execContributionRetry (p : Pv) (id k : Nat) (s : State) : Host.Outcome State Fault Refusal := onDev s fun d =>
  d.sendPacket p.val id k

/-- Round the 64 ledgers of a block (R92 to R102, R213): the data bytes, then the two scale bytes of a scaled result. -/
def CisBlk.readout (b : CisBlk) (p : ArmParams) : Bytes × Flags :=
  match Fmt.ofCode p.fmt with
  | none => ([], 0)
  | some f =>
    let vs := (List.range 64).map (fun j =>
      let l := Tab.get ⟨0, false⟩ b.ledgers j
      ((if l.nan then Val.nan else Val.ofInt l.v), stochR p.seed.toNat ((p.ibase.toNat + 64 * p.i + j) % 2 ^ 64)))
    if p.scaled then
      let (s0, c0, f0) := roundBlock f p.rmode (vs.take 32)
      let (s1, c1, f1) := roundBlock f p.rmode (vs.drop 32)
      (packCodes f.bits (c0 ++ c1) ++ [BitVec.ofNat 8 s0, BitVec.ofNat 8 s1], f0 ||| f1)
    else
      let rs := vs.map (fun v => convTo f p.rmode v.2 v.1)
      (packCodes f.bits (rs.map Prod.fst), rs.foldl (fun a r => a ||| r.2) 0)

/-- BLOCK_READOUT (R195, R213, R214, R216): the ledgers are rounded once and the results go out. -/
def execBlockReadout (b : Bx) (corrected : Nat) (s : State) : Host.Outcome State Fault Refusal := onDev s fun d =>
  let x := d.blk b.val
  match x.st, x.params with
  | .posting, some p =>
    if p.gather ∨ x.out ≠ [] ∨ d.stalled then d
    else
      let (out, fl) := x.readout p
      let d := d.bump (Reg.CIS_LEDGER_ECC (b.val / 64)) F.CIS_LEDGER_ECC_CORRECTED corrected
      let x := { x with out := out, flags := x.flags ||| fl }
      let d := d.setBlk b.val x
      (p.targets.zip (List.range p.targets.length)).foldl (fun d t =>
        if d.isLocal x.allot t.1 then d
        else d.postPieces x.allot b.val t.2 t.1 (x.pieces p) true) d
  | _, _ => d

/-- The status that an outcome gives the REDUCE of a post; none when the post landed or is sent again (R218). -/
def postStatus : Outcome8 → Option Nat
  | .landed | .discarded | .retry => none
  | .access => some 0x31
  | .range => some 0x21
  | .format => some 0x20
  | .memory => some 0x50
  | .noRoute => some 0x40

/-- POST_LANDED (R216 to R219): a target has its data, then its signal. A local target is decided here, once no write to its plot waits
(R262, R264, R267), and is refused with retry while the allotment is CLEARING (R457); for a remote one the command brings the outcome, once
no message of the post is left unacknowledged. -/
def execPostLanded (b : Bx) (tgt : Fin 4) (outcome : Outcome8) (s : State) : Host.Outcome State Fault Refusal := onDev s fun d =>
  let x := d.blk b.val
  match x.st, x.params with
  | .posting, some p =>
    match p.targets[tgt.val]? with
    | none => d
    | some t =>
      if !x.postLeft.contains tgt.val ∨ (!p.gather ∧ x.out = []) ∨ d.stalled ∨ (d.isLocal x.allot t ∧ (d.allot x.allot).st = .clearing) then d
      else if d.isLocal x.allot t then
        let (d, st) := if p.gather ∨ x.dataDone.contains tgt.val then (d, 0)
          else ((x.pieces p).zip (List.range 2)).foldl (fun (r : Dev × Nat) pc =>
            if r.2 ≠ 0 then r else r.1.postLocal x.allot b.val tgt.val pc.2 t pc.1.1 pc.1.2) (d, 0)
        match d.postLands b.val tgt.val with
        | .wait => d
        | r =>
          let d := if p.gather then d else d.updBlk b.val (fun y => { y with dataDone := if x.dataDone.contains tgt.val then y.dataDone else tgt.val :: y.dataDone })
          let st := if st = 0 ∧ r = .bad then 0x50 else st
          if st = 0 then d.postSignal x.allot b.val tgt.val t else (d.postFails b.val st).postDone b.val tgt.val
      else
        match postStatus outcome with
        | some st => (d.postFails b.val st).postDone b.val tgt.val
        | none =>
          if x.evLeft.any (fun e => e.1 == tgt.val) then d.sendPostEv b.val tgt.val
          else if Tab.get 0 x.sendOut tgt.val ≠ 0 ∨ outcome = .retry then d
          else d.postDone b.val tgt.val
  | _, _ => d

/-- LEDGER_ECC_ERROR (R195): corrected bits are counted; an uncorrectable error puts the block in FAULTED, and its REDUCE completes
with DEVICE_FAULT. DESIGN CHOICE (log 64): a block that is CLEARING stays so, as its ledger is being written with 0. -/
def execLedgerEccError (e : LedgerErr) (s : State) : Host.Outcome State Fault Refusal := onDev s fun d =>
  let b := e.blk.val
  let x := d.blk b
  match e.check with
  | .corrected n => d.bump (Reg.CIS_LEDGER_ECC (b / 64)) F.CIS_LEDGER_ECC_CORRECTED n
  | .uncorrectable =>
    if x.st = .clearing then d
    else
      let d := (d.blkState b .faulted).fire 45 b
      match x.params with
      | some p => if x.st = .committed then d else d.finishReduce p.q p.seq 0x7F
      | none => d

/-- COMMIT_PROBE_TIMER (R221): a commit probe for every remote block a completed descriptor still waits on. -/
def execCommitProbeTimer (q : Qx) (seq : Nat) (s : State) : Host.Outcome State Fault Refusal := onDev s fun d =>
  match d.exec? q.val seq with
  | none => d
  | some e =>
    let al := d.allot (d.qAllot q.val)
    if !e.complete then d
    else
      (e.contribs.filter (fun k => !k.done && k.module != d.lmod al)).foldl (fun d k =>
        d.control (d.modId al k.module) al.token 1 0 k.blk q.val k.group seq) d

end Sys2Proof.Machine
end

