-- ==== Sys2Proof/Machine/Kernel.lean ====
section
/-! DEFINITION. The kernel instructions and the life of a share: issue of a decoded word, the start and end of shares,
their faults, and the governor's leases (chapter 3; R40 to R52, R181 to R190). -/

namespace Sys2Proof.Machine

/-- What a kernel instruction does at the Pavilion that issues it. -/
def effK (k : KInsn) (p : Nat) (word : Word64) (d : Dev) : Eff Dev :=
  match k with
  | .scalar op f => d.onPav p (scalarEff op f)
  | .desc op f => d.onPav p (descEff op f)
  | .tmul f => d.onPav p (fun x => x.tmul f)
  | .tclr f => d.onPav p (fun x => x.tclr f)
  | .tread f => d.onPav p (fun x => x.tread f)
  | .tsave f => d.onPav p (fun x => x.tsave f)
  | .tload f => d.onPav p (fun x => x.tload f)
  | .vec op f => d.onPav p (vecEff op f)
  | .move op f => moveEff op p word f d
  | .esig f => d.effEsig p word f
  | .ewait f => d.onPav p (fun x => x.effEwait f)
  | .mfence _ => d.onPav p Pav.effMfence
  | .hint f => d.effHint p f

/-- The steward of Pavilion `p` issues an instruction; `ce` corrected bed errors are met at its fetch and its reads (R112). -/
def Dev.issueK (d : Dev) (p : Nat) (k : KInsn) (ce : Nat) : Dev :=
  d.issue p ce k.encode (if k.rsvBad then some .reservedField else none) (effK k p k.encode)

/-- The steward of Pavilion `p` issues a word: decoded, or ILLEGAL (R122, R123). -/
def Dev.issueWord (d : Dev) (p ce : Nat) (w : Word64) : Dev :=
  match decodeK w with
  | some k => d.issueK p k ce
  | none => d.issue p ce w (some .illegal) (fun d => .ok d)

/-- ADD (R126). -/
def execAdd (p : Sw) (f : ScalarF) (s : State) : Host.Outcome State Fault Refusal := onDev s fun d => d.issueK p.val (.scalar 0x1 f) p.ce
/-- SUB (R126). -/
def execSub (p : Sw) (f : ScalarF) (s : State) : Host.Outcome State Fault Refusal := onDev s fun d => d.issueK p.val (.scalar 0x2 f) p.ce
/-- MUL (R126). -/
def execMul (p : Sw) (f : ScalarF) (s : State) : Host.Outcome State Fault Refusal := onDev s fun d => d.issueK p.val (.scalar 0x3 f) p.ce
/-- AND (R126). -/
def execAnd (p : Sw) (f : ScalarF) (s : State) : Host.Outcome State Fault Refusal := onDev s fun d => d.issueK p.val (.scalar 0x4 f) p.ce
/-- OR (R126). -/
def execOr (p : Sw) (f : ScalarF) (s : State) : Host.Outcome State Fault Refusal := onDev s fun d => d.issueK p.val (.scalar 0x5 f) p.ce
/-- XOR (R126). -/
def execXor (p : Sw) (f : ScalarF) (s : State) : Host.Outcome State Fault Refusal := onDev s fun d => d.issueK p.val (.scalar 0x6 f) p.ce
/-- SHL (R126). -/
def execShl (p : Sw) (f : ScalarF) (s : State) : Host.Outcome State Fault Refusal := onDev s fun d => d.issueK p.val (.scalar 0x7 f) p.ce
/-- SHR (R126). -/
def execShr (p : Sw) (f : ScalarF) (s : State) : Host.Outcome State Fault Refusal := onDev s fun d => d.issueK p.val (.scalar 0x8 f) p.ce
/-- SAR (R126). -/
def execSar (p : Sw) (f : ScalarF) (s : State) : Host.Outcome State Fault Refusal := onDev s fun d => d.issueK p.val (.scalar 0x9 f) p.ce
/-- SLT (R126). -/
def execSlt (p : Sw) (f : ScalarF) (s : State) : Host.Outcome State Fault Refusal := onDev s fun d => d.issueK p.val (.scalar 0xa f) p.ce
/-- SLTU (R126). -/
def execSltu (p : Sw) (f : ScalarF) (s : State) : Host.Outcome State Fault Refusal := onDev s fun d => d.issueK p.val (.scalar 0xb f) p.ce
/-- ADDI (R126). -/
def execAddi (p : Sw) (f : ScalarF) (s : State) : Host.Outcome State Fault Refusal := onDev s fun d => d.issueK p.val (.scalar 0x10 f) p.ce
/-- ANDI (R126). -/
def execAndi (p : Sw) (f : ScalarF) (s : State) : Host.Outcome State Fault Refusal := onDev s fun d => d.issueK p.val (.scalar 0x11 f) p.ce
/-- ORI (R126). -/
def execOri (p : Sw) (f : ScalarF) (s : State) : Host.Outcome State Fault Refusal := onDev s fun d => d.issueK p.val (.scalar 0x12 f) p.ce
/-- XORI (R126). -/
def execXori (p : Sw) (f : ScalarF) (s : State) : Host.Outcome State Fault Refusal := onDev s fun d => d.issueK p.val (.scalar 0x13 f) p.ce
/-- SHLI (R126). -/
def execShli (p : Sw) (f : ScalarF) (s : State) : Host.Outcome State Fault Refusal := onDev s fun d => d.issueK p.val (.scalar 0x14 f) p.ce
/-- SHRI (R126). -/
def execShri (p : Sw) (f : ScalarF) (s : State) : Host.Outcome State Fault Refusal := onDev s fun d => d.issueK p.val (.scalar 0x15 f) p.ce
/-- LUI (R126). -/
def execLui (p : Sw) (f : ScalarF) (s : State) : Host.Outcome State Fault Refusal := onDev s fun d => d.issueK p.val (.scalar 0x16 f) p.ce
/-- LDS (R129). -/
def execLds (p : Sw) (f : ScalarF) (ce : Nat) (s : State) : Host.Outcome State Fault Refusal := onDev s fun d => d.issueK p.val (.scalar 0x20 f) (p.ce + ce)
/-- STS (R129). -/
def execSts (p : Sw) (f : ScalarF) (s : State) : Host.Outcome State Fault Refusal := onDev s fun d => d.issueK p.val (.scalar 0x21 f) p.ce
/-- BEQ (R126). -/
def execBeq (p : Sw) (f : ScalarF) (s : State) : Host.Outcome State Fault Refusal := onDev s fun d => d.issueK p.val (.scalar 0x30 f) p.ce
/-- BNE (R126). -/
def execBne (p : Sw) (f : ScalarF) (s : State) : Host.Outcome State Fault Refusal := onDev s fun d => d.issueK p.val (.scalar 0x31 f) p.ce
/-- BLT (R126). -/
def execBlt (p : Sw) (f : ScalarF) (s : State) : Host.Outcome State Fault Refusal := onDev s fun d => d.issueK p.val (.scalar 0x32 f) p.ce
/-- BGE (R126). -/
def execBge (p : Sw) (f : ScalarF) (s : State) : Host.Outcome State Fault Refusal := onDev s fun d => d.issueK p.val (.scalar 0x33 f) p.ce
/-- JMP (R126). -/
def execJmp (p : Sw) (f : ScalarF) (s : State) : Host.Outcome State Fault Refusal := onDev s fun d => d.issueK p.val (.scalar 0x38 f) p.ce
/-- SETIB (R126). -/
def execSetib (p : Sw) (f : ScalarF) (s : State) : Host.Outcome State Fault Refusal := onDev s fun d => d.issueK p.val (.scalar 0x3d f) p.ce
/-- RDSR (R130). -/
def execRdsr (p : Sw) (f : ScalarF) (s : State) : Host.Outcome State Fault Refusal := onDev s fun d => d.issueK p.val (.scalar 0x3e f) p.ce
/-- END (R121). -/
def execEndShare (p : Sw) (f : ScalarF) (s : State) : Host.Outcome State Fault Refusal := onDev s fun d => d.issueK p.val (.scalar 0x3f f) p.ce
/-- DLD (R137). -/
def execDld (p : Sw) (f : DescF) (ce : Nat) (s : State) : Host.Outcome State Fault Refusal := onDev s fun d => d.issueK p.val (.desc 0x1 f) (p.ce + ce)
/-- DST (R137). -/
def execDst (p : Sw) (f : DescF) (s : State) : Host.Outcome State Fault Refusal := onDev s fun d => d.issueK p.val (.desc 0x2 f) p.ce
/-- DADD (R137). -/
def execDadd (p : Sw) (f : DescF) (s : State) : Host.Outcome State Fault Refusal := onDev s fun d => d.issueK p.val (.desc 0x3 f) p.ce
/-- DSETF (R137). -/
def execDsetf (p : Sw) (f : DescF) (s : State) : Host.Outcome State Fault Refusal := onDev s fun d => d.issueK p.val (.desc 0x4 f) p.ce
/-- DMOV (R137). -/
def execDmov (p : Sw) (f : DescF) (s : State) : Host.Outcome State Fault Refusal := onDev s fun d => d.issueK p.val (.desc 0x5 f) p.ce
/-- TMUL (R147). -/
def execTmul (p : Sw) (f : TmulF) (ce : Nat) (s : State) : Host.Outcome State Fault Refusal := onDev s fun d => d.issueK p.val (.tmul f) (p.ce + ce)
/-- TREAD (R148). -/
def execTread (p : Sw) (f : TreadF) (s : State) : Host.Outcome State Fault Refusal := onDev s fun d => d.issueK p.val (.tread f) p.ce
/-- TCLR (R141). -/
def execTclr (p : Sw) (f : TclrF) (s : State) : Host.Outcome State Fault Refusal := onDev s fun d => d.issueK p.val (.tclr f) p.ce
/-- TSAVE (R151). -/
def execTsave (p : Sw) (f : TimgF) (s : State) : Host.Outcome State Fault Refusal := onDev s fun d => d.issueK p.val (.tsave f) p.ce
/-- TLOAD (R713). -/
def execTload (p : Sw) (f : TimgF) (s : State) : Host.Outcome State Fault Refusal := onDev s fun d => d.issueK p.val (.tload f) p.ce
/-- VLD (R156). -/
def execVld (p : Sw) (f : VecF) (ce : Nat) (s : State) : Host.Outcome State Fault Refusal := onDev s fun d => d.issueK p.val (.vec 0x1 f) (p.ce + ce)
/-- VST (R156). -/
def execVst (p : Sw) (f : VecF) (s : State) : Host.Outcome State Fault Refusal := onDev s fun d => d.issueK p.val (.vec 0x2 f) p.ce
/-- VSPLAT (R152). -/
def execVsplat (p : Sw) (f : VecF) (s : State) : Host.Outcome State Fault Refusal := onDev s fun d => d.issueK p.val (.vec 0x3 f) p.ce
/-- VMOVS (R152). -/
def execVmovs (p : Sw) (f : VecF) (s : State) : Host.Outcome State Fault Refusal := onDev s fun d => d.issueK p.val (.vec 0x4 f) p.ce
/-- VADD (R107). -/
def execVadd (p : Sw) (f : VecF) (s : State) : Host.Outcome State Fault Refusal := onDev s fun d => d.issueK p.val (.vec 0x10 f) p.ce
/-- VSUB (R107). -/
def execVsub (p : Sw) (f : VecF) (s : State) : Host.Outcome State Fault Refusal := onDev s fun d => d.issueK p.val (.vec 0x11 f) p.ce
/-- VMUL (R107). -/
def execVmul (p : Sw) (f : VecF) (s : State) : Host.Outcome State Fault Refusal := onDev s fun d => d.issueK p.val (.vec 0x12 f) p.ce
/-- VFMA (R107). -/
def execVfma (p : Sw) (f : VecF) (s : State) : Host.Outcome State Fault Refusal := onDev s fun d => d.issueK p.val (.vec 0x13 f) p.ce
/-- VMAX (R155). -/
def execVmax (p : Sw) (f : VecF) (s : State) : Host.Outcome State Fault Refusal := onDev s fun d => d.issueK p.val (.vec 0x14 f) p.ce
/-- VMIN (R155). -/
def execVmin (p : Sw) (f : VecF) (s : State) : Host.Outcome State Fault Refusal := onDev s fun d => d.issueK p.val (.vec 0x15 f) p.ce
/-- VABS (R152). -/
def execVabs (p : Sw) (f : VecF) (s : State) : Host.Outcome State Fault Refusal := onDev s fun d => d.issueK p.val (.vec 0x16 f) p.ce
/-- VNEG (R152). -/
def execVneg (p : Sw) (f : VecF) (s : State) : Host.Outcome State Fault Refusal := onDev s fun d => d.issueK p.val (.vec 0x17 f) p.ce
/-- VRSUM (R108). -/
def execVrsum (p : Sw) (f : VecF) (s : State) : Host.Outcome State Fault Refusal := onDev s fun d => d.issueK p.val (.vec 0x20 f) p.ce
/-- VRMAX (R153). -/
def execVrmax (p : Sw) (f : VecF) (s : State) : Host.Outcome State Fault Refusal := onDev s fun d => d.issueK p.val (.vec 0x21 f) p.ce
/-- VCVT (R157). -/
def execVcvt (p : Sw) (f : VecF) (s : State) : Host.Outcome State Fault Refusal := onDev s fun d => d.issueK p.val (.vec 0x30 f) p.ce
/-- VOLOG2 (R159). -/
def execVolog2 (p : Sw) (f : VecF) (s : State) : Host.Outcome State Fault Refusal := onDev s fun d => d.issueK p.val (.vec 0x31 f) p.ce
/-- VOEXP2 (R160). -/
def execVoexp2 (p : Sw) (f : VecF) (s : State) : Host.Outcome State Fault Refusal := onDev s fun d => d.issueK p.val (.vec 0x32 f) p.ce
/-- VTAB (R161). -/
def execVtab (p : Sw) (f : VecF) (s : State) : Host.Outcome State Fault Refusal := onDev s fun d => d.issueK p.val (.vec 0x33 f) p.ce
/-- MLD (R164). -/
def execMld (p : Sw) (f : MoveF) (s : State) : Host.Outcome State Fault Refusal := onDev s fun d => d.issueK p.val (.move 0x1 f) p.ce
/-- MST (R164). -/
def execMst (p : Sw) (f : MoveF) (ce : Nat) (s : State) : Host.Outcome State Fault Refusal := onDev s fun d => d.issueK p.val (.move 0x2 f) (p.ce + ce)
/-- CSEND (R165). -/
def execCsend (p : Sw) (f : MoveF) (ce : Nat) (s : State) : Host.Outcome State Fault Refusal := onDev s fun d => d.issueK p.val (.move 0x3 f) (p.ce + ce)
/-- RSEND (R167). -/
def execRsend (p : Sw) (f : MoveF) (ce : Nat) (s : State) : Host.Outcome State Fault Refusal := onDev s fun d => d.issueK p.val (.move 0x4 f) (p.ce + ce)
/-- ESIG (R170). -/
def execEsig (p : Sw) (f : SyncF) (s : State) : Host.Outcome State Fault Refusal := onDev s fun d => d.issueK p.val (.esig f) p.ce
/-- EWAIT (R177). -/
def execEwait (p : Sw) (f : SyncF) (s : State) : Host.Outcome State Fault Refusal := onDev s fun d => d.issueK p.val (.ewait f) p.ce
/-- MFENCE (R178). -/
def execMfence (p : Sw) (f : FenceF) (s : State) : Host.Outcome State Fault Refusal := onDev s fun d => d.issueK p.val (.mfence f) p.ce
/-- HINT (R179). -/
def execHint (p : Sw) (f : HintF) (s : State) : Host.Outcome State Fault Refusal := onDev s fun d => d.issueK p.val (.hint f) p.ce
/-- ILLEGAL_INSTRUCTION (R123): the steward meets this word. -/
def execIllegalInstruction (p : Sw) (w : Word64) (s : State) : Host.Outcome State Fault Refusal := onDev s fun d => d.issueWord p.val p.ce w

/-! ### Shares -/

/-- A share has no turn while an earlier accepted KERNEL's share waits for the same Pavilion (R344). -/
def Dev.shareTurn (d : Dev) (a l ord : Nat) : Bool :=
  !(d.execsOf a).any (fun e => e.2.typ == 1 && e.2.started && !e.2.complete && decide (e.2.ord < ord) && e.2.shares.contains (l, .waiting))

/-- The steward state of Table 3-2 for a share (R115); what the pending store holds of older groups is discarded (R174). -/
def Pav.begin (x : Pav) (sh : Share) (now : Nat) (mJ us : Nat) : Pav :=
  let x := { x.dropShare with share := some sh, halted := x.halted, pc := sh.code.setWidth 64, s := [], d := [], v := [], ibase := 0 }
  let x := { x with slot0 := none, slot1 := none, ev := [], flags := 0, srcs := [], dsts := [], lastGroup := some sh.group }
  { x with pend := x.pend.filter (fun m => groupNewer m.group sh.group), runUs := 0,
           descHint := if mJ = 0 ∨ us = 0 then none else some ⟨mJ, us, sh.nshare, now⟩ }

/-- Load the code image and the arguments and start the share (R115, R174, R344). -/
def Dev.startShare (d : Dev) (p q l : Nat) (e : Exec) : Dev :=
  let a := d.qAllot q
  let codeLen := e.f 0x38 0 32
  let argsLen := e.f 0x3C 0 32
  let code := BitVec.ofNat 22 (e.f 0x30 0 22)
  let args := BitVec.ofNat 22 (e.f 0x34 0 22)
  let issue := fun (d : Dev) (part src len : Nat) =>
    match d.plotMA a (BitVec.ofNat 64 src) len with
    | some ma => if len = 0 then d else d.issueRead (.start p q e.seq part) ma len
    | none => d
  let get := fun (d : Dev) (part src len : Nat) =>
    if len = 0 then RdRes.ok [] else if (d.plotMA a (BitVec.ofNat 64 src) len).isNone then .bad else d.mem.resultOf (.start p q e.seq part)
  let d := issue (issue d 0 (e.f 0x20 0 64) codeLen) 1 (e.f 0x28 0 64) argsLen
  let left := d.usersGone (fun u => match u with | .start k _ _ _ => k == p | .xfer k _ => k == p | _ => false)
  match get d 0 (e.f 0x20 0 64) codeLen, get d 1 (e.f 0x28 0 64) argsLen with
  | .wait, _ => d
  | _, .wait => d
  | .bad, _ => (left.stopShares q e.seq).finish q e.seq 0x50
  | _, .bad => (left.stopShares q e.seq).finish q e.seq 0x50
  | .ok cs, .ok as =>
      let d1 := left
      let al := d.allot a
      let sh : Share := ⟨q, e.seq, (e.shares.map Prod.fst).idxOf l, e.shares.length, l, args, code, codeLen, argsLen,
        BitVec.ofNat 64 (e.f 0x40 0 64), d.lmod al, al.nmod, e.group⟩
      let x := d1.pav p
      let held := x.pend.filter (fun m => m.group == e.group)
      let y := (x.begin sh d.clock (e.f 4 0 32) (e.f 8 0 32))
      let d1 := d1.setPav p ((y.bedWrite code.toNat cs).bedWrite args.toNat as)
      let d1 := d1.setFld (Reg.PAV_FAULT p) F.PAV_FAULT_CODE 0
      let d1 := { d1 with org := { d1.org with kwLoad := d1.org.kwLoad.filter (· != p) } }
      let d1 := d1.updExec q e.seq (fun e => e.setShare l .running)
      held.foldl (fun d m => (d.countEvent p m).1) d1

/-- May a queue in this state start shares (Table 7-16, R370)? -/
def Queue.sharesRun (x : Queue) : Bool :=
  match x.st with
  | .running | .error | .arming => true
  | .paused => decide (x.held.length < 4096)
  | .disabled | .held | .clearing => false

/-- SHARE_START (R115, R344): the share named for this Pavilion starts, in its turn. -/
def execShareStart (p : Pv) (q : Qx) (seq : Nat) (s : State) : Host.Outcome State Fault Refusal := onDev s fun d =>
  let x := d.pav p.val
  let a := d.qAllot q.val
  match d.exec? q.val seq, x.logical with
  | some e, some l =>
    if e.started ∧ !e.complete ∧ e.typ = 1 ∧ e.shares.contains (l, .waiting) ∧ x.allot = a ∧ a ≠ 0 ∧ d.pavOf a l = some p.val ∧
        x.share.isNone ∧ !x.withdrawn ∧ !x.clearing ∧ e.gangPh = .none ∧ e.faultRank.isNone ∧ (d.queue q.val).sharesRun ∧
        d.shareTurn a l e.ord ∧ d.computeOn ∧ !d.quiesced then
      d.startShare p.val q.val l e
    else d
  | _, _ => d

/-- Every named share has ended: the KERNEL completes, or is replayed for a REARM notice that waited (R224). -/
def Dev.sharesDone (d : Dev) (q seq : Nat) : Dev :=
  match d.exec? q seq with
  | none => d
  | some e =>
    if e.complete ∨ !e.shares.all (fun s => s.2 == .ended) then d
    else if e.rearm then d.replayAll q seq
    else d.finish q seq 0

/-- SHARE_END (R104, R121, R182): the share's transfers and signals are complete; it reports flags and energy. -/
def execShareEnd (p : Pv) (energy : Nat) (s : State) : Host.Outcome State Fault Refusal := onDev s fun d =>
  let x := d.pav p.val
  match x.share with
  | none => d
  | some sh =>
    if x.block = some .ending ∧ x.xfers.isEmpty ∧ !x.faulted ∧ !x.stopped then
      let d := d.setPav p.val x.dropShare
      let ended := fun (e : Exec) =>
        let e := e.setShare sh.lpav .ended
        { e with flags := e.flags ||| x.flags, energy := e.energy + energy, rxOther := e.rxOther || x.rxOther }
      (d.updExec sh.q sh.seq ended).sharesDone sh.q sh.seq
    else d

/-- SHARE_LIMIT (R190): the share runs, and its running time exceeds PAV_SHARE_LIMIT, in ms. -/
def execShareLimit (p : Pv) (s : State) : Host.Outcome State Fault Refusal := onDev s fun d =>
  let x := d.pav p.val
  let limit := d.fld (Reg.PAV_SHARE_LIMIT p.val) F.PAV_SHARE_LIMIT_LIMIT
  if d.running p.val ∧ limit ≠ 0 ∧ 1000 * limit < x.runUs then d.takeFault p.val .shareLimit x.pc22 x.word else d

/-- PAVILION_HARDWARE_FAULT (R40 to R43, R189). -/
def execPavilionHardwareFault (p : Pv) (code : FaultCode) (s : State) : Host.Outcome State Fault Refusal := onDev s fun d =>
  if isHardware code then d.hardwareFault p.val code else d

/-- IDLE_HARDWARE_CHECK (R715): no share runs; the Pavilion is withdrawn. DESIGN CHOICE (log 63): R715 names the code and PC 0 alone, so
PAV_FAULT_INSN keeps the word it held. -/
def execIdleHardwareCheck (p : Pv) (code : FaultCode) (s : State) : Host.Outcome State Fault Refusal := onDev s fun d =>
  let x := d.pav p.val
  if isHardware code ∧ x.share.isNone ∧ !x.withdrawn then
    let d := d.setFld (Reg.PAV_FAULT p.val) F.PAV_FAULT_PC 0
    let d := d.setFld (Reg.PAV_FAULT p.val) F.PAV_FAULT_CODE (faultNum code)
    ((d.raise (Reg.PAV_FAULT_EVT p.val)).fire 37 (p.val + 65536 * faultNum code)).withdraw p.val
  else d

/-- PROGRAM_FAULT_STOP (R188): the other shares stop and the descriptor completes with the status of lowest RANK. -/
def execProgramFaultStop (q : Qx) (seq : Nat) (s : State) : Host.Outcome State Fault Refusal := onDev s fun d =>
  match d.exec? q.val seq with
  | none => d
  | some e =>
    if e.faultRank.isSome ∧ !e.complete then
      let halt := fun (e : Exec) => Exec.finish { e with shares := e.shares.map (fun s => (s.1, ShareSt.stopped)) } e.status
      (d.stopShares q.val seq).updExec q.val seq halt
    else d

/-! ### The governor (R47 to R50, R181, R505) -/

/-- The operating point a governor takes for a lease: 0.4 to 2.4 GHz in steps of 25 MHz; which one the manual leaves to
the factory table (R181). Under the clamp, and while the rail settles, it is the floor (R49, R50, R505). -/
def Dev.leaseFreq (d : Dev) (p lease : Nat) : Nat :=
  if d.clamp || (d.pav p).settling then 400 else 400 + 25 * (Config.leaseStep p lease % 81)

/-- Give a governor a lease: it sets the frequency, and the rail to the voltage that goes with it; a rail that settles after a clamp
settles at the floor (R28, R50, R181). -/
def Dev.setLease (d : Dev) (p lease : Nat) : Dev :=
  let f := d.leaseFreq p lease
  d.updPav p (fun x => { x with lease := lease, freq := f, rail := if x.settling then x.rail else f })

/-- When a lease given now ends, in µs (R48, R498). -/
def Dev.leaseDeadline (d : Dev) : Nat := d.clock + 1000 * d.leaseTime

/-- LEASE_GRANT (R47, R505): the governor brings its power within the grant. -/
def execLeaseGrant (p : Pv) (grant : BitVec 12) (s : State) : Host.Outcome State Fault Refusal := onDev s fun d =>
  let t := d.leaseDeadline
  (d.setLease p.val grant.toNat).updPav p.val (fun x => { x with leaseEnd := t, newLease := false })

/-- LEASE_EXPIRY (R48, R505): the lease time has passed and the lease was not renewed; the governor decays to the floor cap. A lease
renewed in the instant of the expiry has not expired. -/
def execLeaseExpiry (p : Pv) (s : State) : Host.Outcome State Fault Refusal := onDev s fun d =>
  if d.clock < (d.pav p.val).leaseEnd then d
  else (d.setLease p.val d.floorCap).updPav p.val (fun x => { x with leaseEnd := 0 })

/-- RAIL_SETTLED (R50): the rail has settled at the floor voltage and issue resumes at the floor operating point. -/
def execRailSettled (p : Pv) (s : State) : Host.Outcome State Fault Refusal := onDev s fun d =>
  d.updPav p.val (fun x => if x.settling then { x with settling := false, rail := 400 } else x)

end Sys2Proof.Machine
end

