-- ==== Sys2Proof/Machine/Host.lean ====
section
/-! DEFINITION. The host port (chapter 6): CXL.mem accesses, link events, HDM decoders, doorbells, ATS and MSI-X. -/

namespace Sys2Proof.Machine

/-! ### HDM decoders and CXL.mem (R299 to R304, R268 to R272) -/

/-- Interleave ways (R299). -/
def hdmWays (r : HdmReq) : Nat := 2 ^ r.iw.toNat
/-- Interleave granularity in bytes: IG codes 1 to 6 are 512 bytes to 16 KiB (R299). -/
def hdmGran (r : HdmReq) : Nat := 2 ^ (8 + r.ig.toNat)
/-- The DPA size of a decoder (R300). -/
def hdmDpaSize (r : HdmReq) : Nat := r.size.toNat / hdmWays r
def Dev.hdm (d : Dev) (n : Nat) : Option Hdm := Tab.get none d.hp.hdm n

/-- The DPA a committed decoder gives an HPA that it claims for this module. -/
def Hdm.claim (h : Hdm) (hpa : Nat) : Option Nat :=
  let r := h.req
  let off := hpa - r.base.toNat
  if h.committed ∧ r.base.toNat ≤ hpa ∧ hpa < r.base.toNat + r.size.toNat ∧ off / hdmGran r % hdmWays r = r.pos.toNat then
    some (h.dpaBase + off / (hdmGran r * hdmWays r) * hdmGran r + off % hdmGran r)
  else none

/-- The MA of a host line, if a decoder of this module claims it. -/
def Dev.hpaMA (d : Dev) (hpa : Nat) : Option Nat :=
  (List.range 4).findSome? (fun n => match d.hdm n with | some h => h.claim (hpa / 64 * 64) | none => none)

/-- May the host reach a plot: bound with HOST, its allotment not clearing (R303)? -/
def Dev.hostMay (d : Dev) (p : Nat) : Bool :=
  d.allots.any (fun e => e.2.st == .bound && e.2.plots.any (fun k => k.2 == some (p, true)))

/-- Record a denied host access (R304). -/
def Dev.deny (d : Dev) (ma : Nat) : Dev :=
  ((d.raise Reg.GLB_HOSTM_DENY_EVT).setReg Reg.GLB_HOSTM_DENY_ADDR_LO (BitVec.ofNat 32 (ma / 64 * 64))).setReg
    Reg.GLB_HOSTM_DENY_ADDR_HI (BitVec.ofNat 32 (ma / 2 ^ 32))

/-- HOST_MEM_READ (R243, R260, R262, R264, R267, R269, R271, R303, R304, R324). -/
def execHostMemRead (hpa : HostLine) (s : State) : Host.Outcome State Fault Refusal := onDev s fun d =>
  let d := d.rasRecord hpa.ras
  match d.hpaMA hpa.hpa with
  | none => d
  | some ma =>
    if !d.hostMay (plotAt ma) then (d.deny ma).emit (.cxlData ma (List.replicate 64 0) true)
    else d.readArrives [] ma 64 .host

/-- HOST_MEM_WRITE (R247, R261, R264, R272, R303, R304, R324). -/
def execHostMemWrite (hpa : Nat) (data : Bytes) (poison : WrMark) (s : State) : Host.Outcome State Fault Refusal := onDev s fun d =>
  let d := d.rasRecord poison.ras
  match d.hpaMA hpa with
  | none => d
  | some ma =>
    if !d.hostMay (plotAt ma) then (d.deny ma).emit (.cxlWriteDone ma)
    else d.writeArrives [] ma (data.take 64) poison.poison .host

/-- Where the DPA range of decoder n starts before its skip: the end of the previous committed decoder. -/
def Dev.dpaEnd (d : Dev) (n : Nat) : Nat :=
  if n = 0 then 0 else match d.hdm (n - 1) with | some h => h.dpaBase + hdmDpaSize h.req | none => 0

/-- BI Enable is written; while it is 0 the snoop filter is empty (R301). -/
def Dev.setBi (d : Dev) (on : Bool) : Dev :=
  { d with hp := { d.hp with biEnable := on, held := if on then d.hp.held else [] } }

/-- Is a decoder committed with Lock On Commit (R302)? -/
def Dev.hdmLocked (d : Dev) (n : Nat) : Bool := match d.hdm n with | some h => h.committed && h.req.lock | none => false

/-- Does a commit of decoder n succeed (R276, R281, R299, R300)? -/
def Dev.hdmOk (d : Dev) (n : Nat) (r : HdmReq) : Bool :=
  let base := d.dpaEnd n + r.skip.toNat
  r.bi && decide (1 ≤ r.ig.toNat ∧ r.ig.toNat ≤ 6) && decide (r.iw.toNat ≤ 4) && base % 2 ^ 30 == 0 &&
    r.size.toNat % hdmWays r == 0 && hdmDpaSize r % 2 ^ 30 == 0 && decide (base + hdmDpaSize r ≤ d.nplots * 2 ^ 30) &&
    (List.range n).all (fun k => match d.hdm k with | some h => h.committed | none => false) &&
    d.hp.mode == .flit256 && d.hp.memActive

/-- The place of register k of decoder n: base, size, control and DPA skip (log 74). -/
def hdmReg (n k : Nat) : Nat := 0x1210 + 0x20 * n + 4 * k
/-- The words that the registers of a decoder hold when it is committed. -/
def hdmWords (r : HdmReq) : List Word32 :=
  [BitVec.ofNat 32 r.base.toNat, BitVec.ofNat 32 (r.base.toNat / 2 ^ 32), BitVec.ofNat 32 r.size.toNat, BitVec.ofNat 32 (r.size.toNat / 2 ^ 32),
   BitVec.ofNat 32 (r.ig.toNat + 16 * r.iw.toNat + 256 * bit r.lock + 512 + 8192 * bit r.bi),
   BitVec.ofNat 32 r.skip.toNat, BitVec.ofNat 32 (r.skip.toNat / 2 ^ 32)]
/-- The bits of register k of a decoder that software writes. -/
def hdmMask (k : Nat) : Nat := if k = 4 then 0x23FF else if k = 0 ∨ k = 2 ∨ k = 5 then 0xF0000000 else 0xFFFFFFFF
/-- The registers of a decoder take the words of a request. -/
def Dev.hdmStore (d : Dev) (n : Nat) (r : HdmReq) : Dev :=
  (List.range 7).foldl (fun d k => d.setComp (hdmReg n k) ((hdmWords r).getD k 0 &&& BitVec.ofNat 32 (hdmMask k))) d

/-- A commit of decoder n, which is not locked, succeeds or fails (R299, R300). -/
def Dev.hdmCommit (d : Dev) (n : Nat) (r : HdmReq) : Dev :=
  let h : Hdm := ⟨r, d.dpaEnd n + r.skip.toNat, d.hdmOk n r, !d.hdmOk n r⟩
  { d with hp := { d.hp with hdm := Tab.set none d.hp.hdm n (some h) } }

/-- HDM_DECODER_COMMIT (R276, R280, R281, R299 to R302). -/
def execHdmDecoderCommit (n : Fin 4) (r : HdmReq) (s : State) : Host.Outcome State Fault Refusal := onDev s fun d =>
  if !d.hp.ready ∨ d.hdmLocked n.val then d else ((d.hdmStore n.val r).hdmCommit n.val r).setBi r.biEnable

/-! ### Bring-up (R274 to R281) -/

/-- Set the fields of GLB_HP_LINK (Table 6-11). -/
def Dev.setLink (d : Dev) (speed width flit mem cache st : Nat) : Dev :=
  d.setReg Reg.GLB_HP_LINK (BitVec.ofNat 32 (speed * 2 ^ 21 + width * 2 ^ 16 + flit * 2 ^ 10 + mem * 2 ^ 9 + cache * 2 ^ 8 + st))

/-- PERST_N_DEASSERT (R279): the Detect phase starts; it ends at a tick (log 75). -/
def execPerstNDeassert (s : State) : Host.Outcome State Fault Refusal := onDev s fun d =>
  if d.hp.perst then ({ d with hp := { d.hp with perst := false } }).setLink 0 0 0 0 0 0 else d

/-- Receivers are detected: the link trains (R279, Table 6-3); without a stable CXL_REFCLK the port stays in Detect (R618). Part of the tick. -/
def Dev.linkDetect (d : Dev) : Dev :=
  if !d.hp.perst && d.sup.link && d.refOk 0 && d.fld Reg.GLB_HP_LINK F.GLB_HP_LINK_STATE == 0 then d.setLink 0 0 0 0 0 1 else d

/-- Is a mode one of Table 6-1 and a width of R274? -/
def linkModeOk (m : LinkMode) : Bool :=
  let sp := m.speed.toNat
  (m.width == 16 || m.width == 8 || m.width == 4) && decide (1 ≤ sp ∧ sp ≤ 6) &&
  (match m.flit.toNat with
   | 1 => decide (3 ≤ sp ∧ sp ≤ 5)
   | 2 => decide (3 ≤ sp)
   | 3 => true
   | _ => false)

/-- Is the module in Lodge (Table 6-7)? -/
def Dev.lodge (d : Dev) : Bool := d.fld Reg.KDV_STATE ⟨0, 4⟩ == 1

/-- LINK_AT_L0 (R274, R275, R277, R279, R618): with the link branch on and CXL_REFCLK in use, the link reaches L0 at a mode; in Lodge CXL.io only (R286). -/
def execLinkAtL0 (mode : LinkMode) (s : State) : Host.Outcome State Fault Refusal := onDev s fun d =>
  if d.hp.perst ∨ !linkModeOk mode ∨ d.linkUp ∨ !d.sup.link ∨ !d.refOk 0 then d
  else
    let cxl := mode.flit ≠ 3 ∧ !d.lodge
    let d := d.setLink mode.speed.toNat mode.width.toNat mode.flit.toNat (bit cxl) (bit cxl) 2
    { d with hp := { d.hp with mode := match mode.flit.toNat with | 1 => .flit68 | 2 => .flit256 | _ => .pcie } }

/-- FUNCTION_READY (R280): the host port is released with the link branch. -/
def execFunctionReady (s : State) : Host.Outcome State Fault Refusal := onDev s fun d =>
  if d.hp.perst ∨ !d.sup.link then d else { d with hp := { d.hp with ready := true } }

/-- MEMORY_ACTIVE (R281): once the memory is trained and the clearance map holds its state. -/
def execMemoryActive (s : State) : Host.Outcome State Fault Refusal := onDev s fun d =>
  if d.hp.ready ∧ d.mem.trained then { d with hp := { d.hp with memActive := true } } else d

/-! ### Link events (Table 6-10) -/

/-- Records that were on their way and have not landed are issued again (R369). -/
def Queue.unissue (x : Queue) : Queue :=
  { x with execs := x.execs.map (fun e => { e with issued := e.issued && x.held.any (·.seq == e.seq) }) }

/-- A queue's completion delivery pauses (R369): nothing more is accepted, and records not landed are issued again. DESIGN CHOICE (log 23): an
arm that the event cuts off ends, and ARM reads 0 in PAUSED. -/
def Queue.pause (x : Queue) : Queue :=
  let x := { x with lineArmed := false }
  match x.st with
  | .running | .held | .arming | .paused | .error => { x.unissue with st := .paused, arm := none, read := [] }
  | .clearing => x.unissue
  | .disabled => x

/-- Pause the queues that satisfy a test. -/
def Dev.pauseQueues (d : Dev) (t : Nat → Queue → Bool) : Dev :=
  { d with qs := Tab.mapV (fun _ => Queue.reset) (fun q x => if t q x then x.pause else x) d.qs }

/-- The snoop filter is emptied: every host line is taken as invalidated, and a back-invalidate phase ends (R320, R322). -/
def Dev.emptySnoop (d : Dev) : Dev :=
  { d with
    hp := { d.hp with held := [] }
    mem := { d.mem with owing := d.mem.owing.map (fun e => if e.2 = .backInv then (e.1, .set) else e) } }

/-- The host port configuration returns to its reset values (R318): configuration space with the errors AER has recorded, the registers of
BAR2 with the RAS Capability, HDM decoders, MSI-X tables, translations and IDE keys. -/
def HostPort.resetCfg (h : HostPort) : HostPort :=
  { h with cfg := [], comp := [], devr := [], hdm := [], msix := [], biEnable := false, aerUe := false, aerCe := false, vfEnable := false, io := IdeStream.reset, cm := IdeStream.reset, d3hot := false, atc := [], writes := [], inval := [] }

/-- A descriptor whose host data did not reach global observation has not completed: it starts again (R308, R356, R369). -/
def Exec.again (e : Exec) : Exec := { e with started := false, complete := false, status := 0 }

/-- The data writes that a reset of the host port cuts off are made again by the COPYs they belong to. -/
def Dev.redoData (d : Dev) : Dev :=
  d.hp.writes.foldl (fun d w => match w with | .data q seq => d.updExec q seq Exec.again | .record _ _ | .line _ | .header _ => d) d

/-- The host port configuration of the block, the mailboxes in it among them, returns to its reset values: a request that waits in one is
gone. -/
def Dev.resetHost (d : Dev) : Dev :=
  let d := d.redoData
  { (d.resetRegs Reg.KDV_MBX_CTRL (Reg.KDV_MBX_DATA 8)) with
    hp := d.hp.resetCfg, gate := { d.gate with wait := d.gate.wait.filter (fun m => m != .kdv && m != .cxl) } }

/-- What every event that pauses all queues does. -/
def Dev.downAll (d : Dev) : Dev := ((d.pauseQueues (fun _ _ => true)).emptySnoop).raise Reg.GLB_HP_DOWN_EVT

/-- The link is lost or reset: configuration reset, caches empty, every queue paused; the link is in a state. -/
def Dev.linkLost (d : Dev) (st : Nat) : Dev :=
  let d := d.resetHost
  (({ d with hp := { d.hp with mode := .none } }).setLink 0 0 0 0 0 st).downAll

/-- Set the state field of GLB_HP_LINK alone. -/
def Dev.setLinkSt (d : Dev) (st : Nat) : Dev := d.setFld Reg.GLB_HP_LINK F.GLB_HP_LINK_STATE st

/-- LINK_RECOVERY (R318, Table 6-11): a link at L0 is in recovery, with all state kept. A link in L1 goes there too. -/
def execLinkRecovery (s : State) : Host.Outcome State Fault Refusal := onDev s fun d => if d.linkUp then d.setLinkSt 3 else d

/-- A link in recovery returns to L0; where the link may enter L1 it stands in L0 or L1, when being free (R288, Table 6-11, log 75). Part of the
tick. -/
def Dev.linkSettles (d : Dev) : Dev :=
  if d.linkUp then
    if d.l1May then
      let (d, k) := d.takeFree
      d.setLinkSt (if Config.freeChoice k % 2 = 1 then 4 else 2)
    else d.setLinkSt 2
  else d

/-- LINK_DOWN (R318, R320, R322). -/
def execLinkDown (s : State) : Host.Outcome State Fault Refusal := onDev s fun d => if d.hp.perst then d else d.linkLost 1

/-- HOT_RESET, or a link disable (R318, R325): which of the two the row does not tell, so it is free whether the link trains or is
disabled (log 75). -/
def execHotReset (s : State) : Host.Outcome State Fault Refusal := onDev s fun d =>
  if d.hp.perst then d
  else
    let (d, k) := d.takeFree
    d.linkLost (if Config.freeChoice k % 2 = 0 then 1 else 5)

/-- PERST_N_ASSERT (R318, R319): the host port only is reset. -/
def Dev.perstAssert (d : Dev) : Dev :=
  let d := d.resetHost
  let h : HostPort := { d.hp with mode := .none, perst := true, ready := false, memActive := false }
  (({ d with hp := h }).setLink 0 0 0 0 0 0).downAll

def execPerstNAssert (s : State) : Host.Outcome State Fault Refusal := onDev s fun d => d.perstAssert

/-- FLR_PF (R318, R321): the PF and all VFs are reset, VF Enable is 0. -/
def execFlrPf (s : State) : Host.Outcome State Fault Refusal := onDev s fun d => d.resetHost.downAll

/-- FLR_VF (R318, R321): VF n is reset, and the queues of allotment n are paused. -/
def execFlrVf (n : Fin 256) (s : State) : Host.Outcome State Fault Refusal := onDev s fun d =>
  if n.val = 0 then d
  else
    let ms := (d.allot n.val).vecs.foldl (fun t v => Tab.set Msix.reset t v Msix.reset) d.hp.msix
    let d := { d with hp := { d.hp with
      cfg := d.hp.cfg.clearRange (4096 * n.val) (4096 * n.val + 4096), msix := ms, atc := d.hp.atc.filter (fun e => e.fn != n.val) } }
    d.pauseQueues (fun _ x => x.allot == n.val)

/-- The PF enters D3hot (R318): configuration kept, caches emptied, every queue paused; the power state reads D3hot. -/
def Dev.enterD3 (d : Dev) : Dev :=
  (({ d with hp := { d.hp with d3hot := true } }).setCfg 0 0x44 (BitVec.ofNat 32 3)).downAll

/-- PF_D3HOT (R318). -/
def execPfD3hot (s : State) : Host.Outcome State Fault Refusal := onDev s fun d => d.enterD3

/-- IDE_INTEGRITY_FAILURE (R317): the link goes down and AER records an uncorrectable internal error, which stands after the link down
(log 72). IDE that is off checks nothing (R315). -/
def execIdeIntegrityFailure (s : State) : Host.Outcome State Fault Refusal := onDev s fun d =>
  if d.hp.io.on ∨ d.hp.cm.on then
    let d := (d.aerReport true).linkLost 1
    { d with hp := { d.hp with aerUe := true } }
  else d

/-! ### Doorbells (R307, R309, R336 to R339) -/

/-- Take PRODUCER and CQ_HEAD together and check them (R332, R339, Table 7-17). DESIGN CHOICE (log 23): where both break their condition,
PRODUCER is the reason recorded; the manual gives no order. -/
def Dev.takeDoorbell (d : Dev) (q producer cqHead : Nat) : Dev :=
  let x := d.queue q
  match x.st with
  | .running | .held =>
    if producer < x.accept ∨ cqHead + d.ringN q < producer then d.queueError q 5
    else if x.c < cqHead ∨ cqHead < x.cqHead then d.queueError q 6
    else d.setQueue q { x with producer := producer, cqHead := cqHead }
  | _ => d

/-- Ask for a doorbell line with RdShared (R306, R312). -/
def Dev.readLine (d : Dev) (q : Nat) : Dev :=
  let d := d.translate q (d.dbAddr q).toNat 64
  d.emit (.hostRead (d.hostReq q .rdShared) (BitVec.ofNat 64 (d.hostAddr q (d.dbAddr q).toNat)) 64)

/-- The accesses of a function that have not completed (R313). -/
def Dev.hostWaits (d : Dev) (fn : Nat) : List HostWait :=
  (d.qs.filter (fun e => e.2.allot == fn)).flatMap (fun e =>
    (e.2.execs.filter (fun k => k.issued && !e.2.held.any (fun r => r.seq == k.seq))).map (fun k => HostWait.record e.1 k.seq) ++
    (if e.2.useLine && (e.2.st == .running || e.2.st == .held) && !e.2.lineArmed then [HostWait.line e.1] else []) ++
    d.hp.writes.filter (fun w => match w with | .data q _ | .header q => q == e.1 | _ => false))

/-- ATS invalidations whose accesses have all completed are answered (R313). -/
def Dev.serveInval (d : Dev) : Dev :=
  let left := d.hp.inval.map (fun i => { i with waits := i.waits.filter (fun w => (d.hostWaits i.fn).contains w) })
  (left.filter (fun i => i.waits.isEmpty)).foldl (fun d i => d.emit (.invalidateDone i.fn i.tag))
    { d with hp := { d.hp with inval := left.filter (fun i => !i.waits.isEmpty) } }

/-- The posted writes have been observed (log 76). Part of the tick. -/
def Dev.observeWrites (d : Dev) : Dev := ({ d with hp := { d.hp with writes := [] } }).serveInval

/-- Does a queue keep its doorbell line armed? -/
def Queue.usesLine (x : Queue) : Bool := x.useLine && (x.st == .running || x.st == .held)

/-- DOORBELL_SNOOP (R307, R324, R336, R415): the snoop is answered without data and the line asked for again, unless the queue is clearing. -/
def execDoorbellSnoop (q : Qs) (s : State) : Host.Outcome State Fault Refusal := onDev s fun d =>
  let x := d.queue q.val
  if !x.lineArmed then d
  else
    let d := d.rasRecord q.ras
    let d := (d.setQueue q.val { x with lineArmed := false }).emit (.snoopDone q.val)
    if x.usesLine then d.hostThen q.val .ok (fun d => d.readLine q.val) else d

/-- DOORBELL_LINE_DATA (R307, R314, R339): the line is armed and its cursors are taken. -/
def execDoorbellLineData (q : Qh) (producer cqHead : Nat) (s : State) : Host.Outcome State Fault Refusal := onDev s fun d =>
  let x := d.queue q.val
  if x.usesLine ∧ !x.lineArmed then
    d.hostDone q (fun d => ((d.setQueue q.val { x with lineArmed := true }).takeDoorbell q.val producer cqHead).serveInval)
  else d

/-- Deliver the doorbell of an MMIO page (R338). -/
def Dev.mmioDoorbell (d : Dev) (q : Nat) : Dev :=
  d.takeDoorbell q (d.queue q).dbProducer.toNat (d.queue q).dbCqHead.toNat

/-- DBP_PRODUCER_LO (R280, R338, R678): the latched high half joins. -/
def execDbpProducerLo (q : Qx) (v : Word32) (s : State) : Host.Outcome State Fault Refusal := onDev s fun d =>
  if !d.hp.ready ∨ (d.queue q.val).useLine then d
  else
    let d := d.setReg (Reg.DBP_PRODUCER_LO q.val) v
    let w := (d.reg (Reg.DBP_PRODUCER_HI q.val)) ++ v
    (d.updQueue q.val (fun x => { x with dbProducer := w })).mmioDoorbell q.val

/-- DBP_CQ_HEAD_LO (R280, R338, R678). -/
def execDbpCqHeadLo (q : Qx) (v : Word32) (s : State) : Host.Outcome State Fault Refusal := onDev s fun d =>
  if !d.hp.ready ∨ (d.queue q.val).useLine then d
  else
    let d := d.setReg (Reg.DBP_CQ_HEAD_LO q.val) v
    let w := (d.reg (Reg.DBP_CQ_HEAD_HI q.val)) ++ v
    (d.updQueue q.val (fun x => { x with dbCqHead := w })).mmioDoorbell q.val

/-- The doorbell line leaves the device cache. -/
def Queue.dropLine (x : Queue) : Queue := { x with lineArmed := false }

/-- CACHE_WRITEBACK_INVALIDATE (R309): every line is dropped, the request completes, and the lines are armed again. -/
def execCacheWritebackInvalidate (s : State) : Host.Outcome State Fault Refusal := onDev s fun d =>
  let lines := d.qs.filter (fun e => e.2.usesLine)
  let d := ({ d with qs := Tab.mapV (fun _ => Queue.reset) (fun _ x => x.dropLine) d.qs }).emit .cacheDone
  lines.foldl (fun d e => d.hostThen e.1 .ok (fun d => d.readLine e.1)) d

/-! ### ATS and MSI-X -/

/-- ATS_INVALIDATION (R313): the function's translations are dropped; it completes once every access that was under way has completed. -/
def execAtsInvalidation (fn : Fin 256) (tag : Nat) (s : State) : Host.Outcome State Fault Refusal := onDev s fun d =>
  let i : AtsInval := ⟨fn.val, tag, d.hostWaits fn.val⟩
  ({ d with hp := { d.hp with atc := d.hp.atc.filter (fun e => e.fn != fn.val), inval := d.hp.inval ++ [i] } }).serveInval

/-- MSIX_UNMASK (R280, R297, R298, R415): a pending message is sent. The write is dropped before the function is ready and while its
allotment clears (Table 8-8). -/
def execMsixUnmask (fn : Fin 256) (entry : Nat) (s : State) : Host.Outcome State Fault Refusal := onDev s fun d =>
  if !d.hp.ready ∨ (d.allot fn.val).st = .clearing then d
  else
  match d.vectorOf fn.val entry with
  | none => d
  | some v =>
    let m := d.msix v
    let (en, fm) := d.msixCtl fn.val
    let go := m.pending && en && !fm
    let d := d.setMsix v { m with masked := false, pending := m.pending && !go }
    if go then d.emit (.msix fn.val entry) else d

end Sys2Proof.Machine
end

