-- ==== Sys2Proof/Machine/Queue.lean ====
section
/-! DEFINITION. The queue engine (chapter 7): acceptance, the tenant descriptors, completion and commit, gangs, arming and
disabling. The operator descriptors stand in Machine/Allotment.lean. -/

namespace Sys2Proof.Machine

/-! ### Acceptance (R353 to R355) -/

/-- Does a queue accept (Table 7-16, R377)? -/
def Queue.accepts (x : Queue) : Bool := (x.st == .running || x.st == .held) && !x.disableReq

/-- Insert a descriptor in sequence order. -/
def insExec (e : Exec) : List Exec → List Exec
  | [] => [e]
  | x :: r => if e.seq < x.seq then e :: x :: r else x :: insExec e r

/-- Types that no row executes complete at acceptance: reserved types and reserved KEY operations with BAD_DESCRIPTOR,
operator types on another queue with ACCESS_DENIED (R341, R342). -/
def Exec.atAccept (e : Exec) (q : Nat) : Exec :=
  match e.typ with
  | 1 | 2 | 3 | 4 | 5 | 6 => e
  | 8 | 9 | 10 => if q = 0 then e else e.finish 0x31
  | 11 => if q ≠ 0 then e.finish 0x31 else if e.f 0x21 0 4 = 1 ∨ e.f 0x21 0 4 = 2 then e else e.finish 0x21
  | _ => e.finish 0x21

/-- May a queue reach its rings now, outside an arm: while it delivers completions, and in ERROR or PAUSED when the host can be reached
(Table 7-16)? -/
def Dev.ringsOpen (d : Dev) (q : Nat) : Bool :=
  match (d.queue q).st with
  | .running | .held => true
  | .error | .paused => d.reach q
  | .disabled | .arming | .clearing => false

/-- Is a user of memory a descriptor? -/
def MemUser.ofExec (q seq : Nat) : MemUser → Bool
  | .exec k n _ => k == q && n == seq
  | _ => false

/-- A descriptor that is executed again joins with the place it was accepted at, where the queue store still holds it, and is decided as
at acceptance (R341, R344, R382). -/
def Dev.rejoin (d : Dev) (q seq : Nat) (data : BitVec 1024) : Dev :=
  let (d, ord) := match (d.queue q).acc.find? (fun k => k.seq == seq) with
    | some k => (d, k.ord)
    | none => ({ d with acceptIx := d.acceptIx + 1 }, d.acceptIx)
  let e := ({ Exec.new seq data ord with replayed := true, redo := true } : Exec).atAccept q
  (d.usersGone (MemUser.ofExec q seq)).updQueue q (fun x => { x with
    redo := x.redo.filter (· != seq), execs := insExec e x.execs,
    acc := if x.acc.any (fun k => k.seq == seq) then x.acc else x.acc ++ [⟨seq, data, ord⟩] })

/-- DESCRIPTOR_READ (R314, R330, R353, R376, R382): the slot is read, its SEQUENCE checked and the descriptor taken; one that must be
executed again joins at once. -/
def execDescriptorRead (q : Qh) (seq : Nat) (data : BitVec 1024) (s : State) : Host.Outcome State Fault Refusal := onDev s fun d =>
  let x := d.queue q.val
  let sq := bitsOf data.toNat 128 64
  let fresh := x.accepts && seq == x.accept + x.read.length && decide (seq < x.producer)
  let again := x.redo.contains seq && d.ringsOpen q.val
  if !fresh && !again then d
  else
    d.fetchThen q [(d.slotAddr q.val seq, 128)] fun d =>
      if sq ≠ seq then d.queueError q.val 4
      else if again then d.rejoin q.val seq data
      else d.updQueue q.val (fun x => { x with read := x.read ++ [(seq, data)] })

/-- Accept one descriptor and forward its energy hint (R44). -/
def Dev.acceptOne (d : Dev) (q seq : Nat) (data : BitVec 1024) : Dev :=
  let e := (Exec.new seq data d.acceptIx).atAccept q
  let k : Accepted := ⟨seq, data, d.acceptIx⟩
  let d := ({ d with acceptIx := d.acceptIx + 1 }).usersGone (MemUser.ofExec q seq)
  let d := d.updQueue q (fun x => { x with accept := seq + 1, execs := x.execs ++ [e], acc := x.acc ++ [k] })
  if e.f 4 0 32 = 0 ∨ e.f 8 0 32 = 0 then d else d.emit (.hint q 2 (e.f 4 0 32) (e.f 8 0 32))

/-- DESCRIPTOR_ACCEPT (R44, R335, R354): the header line with the new ACCEPT is globally observed. -/
def execDescriptorAccept (q : Qh) (s : State) : Host.Outcome State Fault Refusal := onDev s fun d =>
  let x := d.queue q.val
  if !x.accepts ∨ x.read = [] then d
  else d.hostDone q fun d =>
    (x.read.foldl (fun d r => d.acceptOne q.val r.1 r.2) (d.setQueue q.val { x with read := [] })).writeHeader q.val

/-- Does a queue write its header line: while it delivers completions; and when the host can be reached and something has committed since the
line was written, in ERROR, while it clears, and in an arm that has found C (R335, Table 7-16)? -/
def Dev.headerOpen (d : Dev) (q : Nat) : Bool :=
  let x := d.queue q
  match x.st with
  | .running | .held => true
  | .error | .clearing => d.reach q && x.sinceHdr != 0
  | .arming => x.arm == some .heldRecords && d.reach q && x.sinceHdr != 0
  | .disabled | .paused => false

/-- May a queue write data to host memory: while it delivers completions, and in ERROR when the host can be reached (R370, Table 7-16)? -/
def Dev.mayWriteHost (d : Dev) (q : Nat) : Bool :=
  match (d.queue q).st with
  | .running | .held => true
  | .error => d.reach q
  | .disabled | .arming | .paused | .clearing => false

/-- May a descriptor of a queue read host memory? -/
def Dev.mayReadHost (d : Dev) (q : Nat) : Bool := d.ringsOpen q || (d.queue q).st == .arming

/-- HEADER_LINE_REFRESH (R335). A queue that clears and whose write errs keeps the line as it is. -/
def execHeaderLineRefresh (q : Qh) (s : State) : Host.Outcome State Fault Refusal := onDev s fun d =>
  if d.headerOpen q.val && ((d.queue q.val).st != .clearing || q.res == .ok) then d.hostDone q (fun d => d.writeHeader q.val) else d

/-! ### Starting a descriptor (R348, R355, R362, R370, R393) -/

/-- Is a descriptor one of the operator's, which run alone (R393)? -/
def Exec.isOperator (e : Exec) : Bool := decide (8 ≤ e.typ ∧ e.typ ≤ 11)

/-- May descriptor `e` of a queue start now? -/
def Queue.mayStart (x : Queue) (e : Exec) : Bool :=
  let lower := x.execs.filter (fun k => decide (k.seq < e.seq))
  !e.started && !x.redo.any (fun k => decide (k < e.seq)) && lower.all (fun k => k.started) &&
  lower.all (fun k => k.complete || (k.typ != 5 && !k.isOperator)) &&
  (if e.isOperator then lower.all (fun k => k.complete) else true) &&
  (if e.typ = 4 then lower.all (fun k => k.typ != 4 || decide (e.seq < k.seq + 4096)) else true) &&
  (match x.st with
   | .running | .held | .error | .arming => true
   | .paused => decide (x.held.length < 4096)
   | .disabled | .clearing => false)

/-- The descriptor of a type that may start now. -/
def Dev.startable (d : Dev) (q seq typ : Nat) : Option Exec :=
  match d.exec? q seq with
  | some e => if e.typ = typ ∧ (d.queue q).mayStart e then some e else none
  | none => none

/-- Mark a descriptor started. -/
def Dev.start (d : Dev) (q seq : Nat) : Dev := d.updExec q seq (fun e => { e with started := true })

/-- REDUCE (R196 to R201, R212, R223): its blocks are decided together; none is armed when one rejects it. DESIGN CHOICE (log 64): where one
block is FAULTED and another rejects it by case 6, the status is DEVICE_FAULT; R201 gives no order. -/
def execReduce (q : Qx) (seq : Nat) (s : State) : Host.Outcome State Fault Refusal := onDev s fun d =>
  match d.startable q.val seq 3 with
  | none => d
  | some e =>
    let a := d.qAllot q.val
    match d.reduceBad a e with
    | some st => d.finish q.val seq st
    | none =>
      let d := d.start q.val seq
      let bs := (List.range (e.f 0x20 12 7)).map (fun i => (i, (d.blkOf a (e.f 0x20 2 10 + i)).getD 0))
      let cs := bs.map (fun b => (d.blk b.2).armCase e.group q.val seq)
      if cs.contains .faulted then d.finish q.val seq 0x7F
      else if cs.contains .bad then d.finish q.val seq 0x21
      else
        let d := bs.foldl (fun d b =>
          match (d.blk b.2).armCase e.group q.val seq with
          | .arm => d.arm a e q.val b.1 b.2
          | .wait => d.updBlk b.2 (fun x => { x with waiters := x.waiters ++ [(q.val, seq, b.1)] })
          | .join | .faulted | .bad => d) d
        if bs.any (fun b => (d.blk b.2).st == .faulted) then d.finishReduce q.val seq 0x7F else d.checkReduce q.val seq

/-- The status with which a KERNEL fails its checks (R342, R343). -/
def Dev.kernelBad (d : Dev) (a : Nat) (e : Exec) : Option Nat :=
  let cl := e.f 0x38 0 32
  let al := e.f 0x3C 0 32
  let cb := e.f 0x30 0 22
  let ab := e.f 0x34 0 22
  let bad := e.headBad || e.f 0x30 22 10 != 0 || e.f 0x34 22 10 != 0 || e.f 0x5A 0 16 != 0 || e.f 0x60 0 256 != 0 ||
    cb % 16 != 0 || ab % 16 != 0 || cl % 16 != 0 || cl == 0 || al % 16 != 0 || e.f 0x48 0 144 == 0 ||
    decide (bedSize < cb + cl) || decide (bedSize < ab + al) || (al != 0 && decide (cb < ab + al) && decide (ab < cb + cl))
  if bad then some 0x21
  else if e.pavs.any (fun l => (d.pavOf a l).isNone) ∨ (d.plotMA a (BitVec.ofNat 64 (e.f 0x20 0 64)) cl).isNone ∨
      (al ≠ 0 ∧ (d.plotMA a (BitVec.ofNat 64 (e.f 0x28 0 64)) al).isNone) then some 0x31
  else none

/-- KERNEL (R343, R367, R368): checked, then one share for each named Pavilion waits for it. -/
def execKernel (q : Qx) (seq : Nat) (s : State) : Host.Outcome State Fault Refusal := onDev s fun d =>
  match d.startable q.val seq 1 with
  | none => d
  | some e =>
    let a := d.qAllot q.val
    match d.kernelBad a e with
    | some st => d.finish q.val seq st
    | none =>
      let later := e.isGang && (d.allot a).replays.contains e.group
      let d := d.updExec q.val seq (fun e =>
        { e with started := true, shares := e.pavs.map (fun l => (l, .waiting)), gangPh := if later then .ready else .none })
      if e.isGang ∧ e.redo ∧ !later then d.initReplay a e.group else d

/-! ### COPY (R345, R346, R416 to R422) -/

/-- The live key slot that holds an epoch. -/
def Allot.slotFor (a : Allot) (ep : BitVec 2) : Option KeySlot :=
  match (if ep.toNat % 2 = 0 then a.slot0 else a.slot1) with
  | some k => if k.epoch = ep then some k else none
  | none => none
/-- Change the key slot of an epoch. -/
def Allot.setSlot (a : Allot) (ep : BitVec 2) (k : Option KeySlot) : Allot :=
  if ep.toNat % 2 = 0 then { a with slot0 := k } else { a with slot1 := k }

/-- The IV of a page (R418). -/
def pageIv (addr counter : Nat) : Nat := addr / 4096 * 2 ^ 44 + counter
/-- The additional authenticated data (R418). -/
def Allot.aad (a : Allot) (ep : BitVec 2) : Bytes := leBytes 8 a.token.toNat ++ [BitVec.ofNat 8 ep.toNat] ++ List.replicate 7 0

/-- The key that the Gatehouse's store holds under a handle (R598). -/
def Dev.keyOf (d : Dev) (h : Word32) : BitVec 256 := ((d.keys.find? (fun k => k.handle == h)).map (fun k => k.key)).getD 0

/-- Open a sealed page of an allotment by Table 8-10: a status, or the plaintext. -/
def Dev.openPage (d : Dev) (n : Nat) (addr : Nat) (t : TagEntry) (ct : Bytes) : Nat × Bytes :=
  let a := d.allot n
  if !t.valid then (0x10, [])
  else
    match a.slotFor t.epoch with
    | none => (0x11, [])
    | some k =>
      let iv := pageIv addr t.counter.toNat
      let key := d.keyOf k.handle
      if Config.gcmTag key iv (a.aad t.epoch) ct ≠ t.tag then (0x10, [])
      else (0, (Config.gcmOpen key iv (a.aad t.epoch) ct ++ List.replicate 4096 0).take 4096)

/-- The host address of the tag entry of a protected page (R417). -/
def Allot.tagAddr (a : Allot) (addr : Nat) : Word64 := a.tagBase + BitVec.ofNat 64 (32 * ((addr - a.protBase.toNat) / 4096))

/-- Seal a page and write it and its tag entry for a queue (R417, R419 to R421); a status other than 0 writes nothing. -/
def Dev.sealPage (d : Dev) (q a : Nat) (addr : Nat) (pt : Bytes) : Dev × Nat :=
  let al := d.allot a
  match al.slotFor al.wepoch with
  | none => (d, 0x11)
  | some k =>
    if 2 ^ 44 ≤ k.counter then (d, 0x11)
    else
      let iv := pageIv addr k.counter
      let key := d.keyOf k.handle
      let ct := Config.gcmSeal key iv (al.aad al.wepoch) pt
      let tag := Config.gcmTag key iv (al.aad al.wepoch) ct
      let d := d.setAllot a (al.setSlot al.wepoch (some { k with counter := k.counter + 1 }))
      let ent := leBytes 16 tag.toNat ++ leBytes 8 (k.counter + al.wepoch.toNat * 2 ^ 44 + 2 ^ 46) ++ leBytes 8 0
      ((d.hostWrite q true (BitVec.ofNat 64 addr) ct).hostWrite q true (al.tagAddr addr) ent, 0)

/-- Does a range lie in the protected range (R416)? -/
def Allot.protects (a : Allot) (addr len : Nat) : Bool :=
  decide (a.protBase.toNat ≤ addr) && decide (addr + len ≤ a.protBase.toNat + 4096 * a.protPages.toNat)

/-- The status with which a COPY fails its checks (R342, R345, R416). -/
def Dev.copyBad (d : Dev) (a : Nat) (e : Exec) : Option Nat :=
  let len := e.f 0x30 0 32
  let crypt := e.f 0x34 4 2
  let sk := e.f 0x34 0 2
  let dk := e.f 0x34 2 2
  let src := e.f 0x20 0 64
  let dst := e.f 0x28 0 64
  let prot := fun addr : Nat => addr % 4096 != 0 || len % 4096 != 0 || !(d.allot a).protects addr len
  let bad := e.headBad || e.f 0x34 6 2 != 0 || e.f 0x35 0 600 != 0 || len % 16 != 0 || len == 0 || decide (2 ^ 30 < len) ||
    decide (2 ≤ sk) || decide (2 ≤ dk) || crypt == 3 || (sk == 0 && dk == 0) || (crypt == 1 && sk != 0) || (crypt == 2 && dk != 0) ||
    (crypt == 1 && prot src) || (crypt == 2 && prot dst)
  if bad then some 0x21
  else if (sk = 1 ∧ (d.plotMA a (BitVec.ofNat 64 src) len).isNone) ∨ (dk = 1 ∧ (d.plotMA a (BitVec.ofNat 64 dst) len).isNone) then some 0x31
  else none

/-- Open the pages of a protected source one by one: the bytes to write, and the status; the first failure ends the COPY (R346). -/
def Dev.copyOpen (d : Dev) (a src : Nat) (host : Bytes) (tags : List TagEntry) : Bytes × Nat :=
  ((chunks 4096 host).zip (List.range host.length)).foldl (fun (r : Bytes × Nat) c =>
    if r.2 ≠ 0 then r
    else
      match tags[c.2]? with
      | none => (r.1, 0x10)
      | some t =>
        match d.openPage a (src + 4096 * c.2) t c.1 with
        | (0, pt) => (r.1 ++ pt, 0)
        | (st, _) => (r.1, st)) ([], 0)

/-- Write the bytes of a COPY to a plot and end it with a status; a write that waits keeps it going, a dropped one ends it with
UNCORRECTABLE_MEMORY (R246, R267). -/
def Dev.copyIn (d : Dev) (q seq ma : Nat) (bs : Bytes) (st : Nat) : Dev :=
  if bs = [] then d.finish q seq st
  else
    match d.memWrite (.exec q seq 1) ma bs with
    | (d, .wait) => d
    | (d, .bad) => d.finish q seq 0x50
    | (d, .ok _) => d.finish q seq st

/-- What a COPY reads of host memory: its source, and the tag entries of its protected pages (R306, R312, R417). -/
def Allot.sourceReads (a : Allot) (src len : Nat) (sealed : Bool) : List (Word64 × Nat) :=
  (BitVec.ofNat 64 src, len) :: (if sealed then (List.range (len / 4096)).map (fun k => (a.tagAddr (src + 4096 * k), 32)) else [])

/-- Write the bytes of a COPY to host memory, sealed or plain (R308, R419): its status. -/
def Dev.copyOut (d : Dev) (q a seq dst : Nat) (sealed : Bool) (bs : Bytes) : Dev × Nat :=
  let (d, st) := if sealed then
      ((chunks 4096 bs).zip (List.range bs.length)).foldl (fun (r : Dev × Nat) c =>
        if r.2 ≠ 0 then r else r.1.sealPage q a (dst + 4096 * c.2) c.1) (d, 0)
    else (d.hostWrite q true (BitVec.ofNat 64 dst) bs, 0)
  (d.await (.data q seq), st)

/-- COPY (R308, R314, R345, R346, R370, R416 to R422): the source's host bytes and tag entries come with the command. A COPY whose host access
errs puts its queue in ERROR and is not started; one that must write host memory waits for the re-arm of a PAUSED queue. While an access to a
plot waits, the command comes again and goes on from it (log 69). -/
def execCopy (q : Qh) (seq : Nat) (host : Bytes) (tags : List TagEntry) (s : State) : Host.Outcome State Fault Refusal := onDev s fun d =>
  match d.startable q.val seq 2 with
  | none => d
  | some e =>
    let a := d.qAllot q.val
    match d.copyBad a e with
    | some st => d.finish q.val seq st
    | none =>
      let len := e.f 0x30 0 32
      let src := e.f 0x20 0 64
      let dst := e.f 0x28 0 64
      let crypt := e.f 0x34 4 2
      let dma := (d.plotMA a (BitVec.ofNat 64 dst) len).getD 0
      if e.f 0x34 0 2 = 0 then
        if host.length ≠ len ∨ !d.mayReadHost q.val then d
        else
          let (bs, st) := if crypt = 1 then d.copyOpen a src host tags else (host, 0)
          if d.mem.begun (.exec q.val seq 1) then d.copyIn q.val seq dma bs st
          else d.fetchThen q ((d.allot a).sourceReads src len (crypt == 1)) fun d => d.copyIn q.val seq dma bs st
      else if d.mem.begun (.exec q.val seq 1) then d.copyIn q.val seq dma [0] 0
      else
        match d.memRead (.exec q.val seq 0) ((d.plotMA a (BitVec.ofNat 64 src) len).getD 0) len with
        | (d, .wait) => d
        | (d, .bad) => d.finish q.val seq 0x50
        | (d1, .ok bs) =>
          if e.f 0x34 2 2 = 1 then d1.copyIn q.val seq dma bs 0
          else if !d.mayWriteHost q.val then d
          else d1.hostDone q fun d =>
            let (d, st) := d.copyOut q.val a seq dst (crypt == 2) bs
            d.finish q.val seq st

/-! ### SEND (R347, R361, R362) -/

/-- The window kept for the SENDs of one source queue. -/
def Allot.win (a : Allot) (m : BitVec 16) (q : Nat) : Option SendWin := a.wins.find? (fun w => w.srcMod == m && w.queue == q)

/-- Is a SEND fresh in its window (R361)? -/
def Allot.sendFresh (a : Allot) (m : BitVec 16) (q seq : Nat) : Bool :=
  match a.win m q with
  | none => true
  | some w => decide (w.high < seq) || (decide (w.high < seq + 4096) && !w.bits.contains seq)

/-- Enter a SEND in its window (R361). -/
def Allot.sendApplied (a : Allot) (m : BitVec 16) (q seq : Nat) : Allot :=
  let w := match a.win m q with | some w => w | none => ⟨m, q, seq, []⟩
  let hi := max w.high seq
  let w := { w with high := hi, bits := (seq :: w.bits).filter (fun k => decide (hi < k + 4096)) }
  { a with wins := a.wins.filter (fun k => !(k.srcMod == m && k.queue == q)) ++ [w] }

/-- Apply the data of a SEND of this module (R361): discarded when not fresh, MEMORY when a write is dropped. -/
def Dev.applySend (d : Dev) (a q seq ma : Nat) (bs : Bytes) : Dev :=
  if !(d.allot a).sendFresh d.moduleId q seq then d.finish q seq 0
  else
    match d.memWrite (.exec q seq 1) ma bs with
    | (d, .wait) => d
    | (d, .bad) => d.finish q seq 0x50
    | (d, .ok _) => (d.updAllot a (fun x => x.sendApplied d.moduleId q seq)).finish q seq 0

/-- The status with which a SEND fails its checks (R342, Table 7-10). -/
def Dev.sendBad (d : Dev) (a : Nat) (e : Exec) : Option Nat :=
  let len := e.f 0x34 0 32
  let al := d.allot a
  let m := e.f 0x30 0 16
  let bad := e.headBad || e.f 0x30 16 16 != 0 || e.f 0x38 0 576 != 0 || len % 16 != 0 || len == 0 || decide (2 ^ 30 < len)
  let dst := BitVec.ofNat 64 (e.f 0x28 0 64)
  if bad then some 0x21
  else if (d.plotMA a (BitVec.ofNat 64 (e.f 0x20 0 64)) len).isNone ∨ al.nmod ≤ m ∨ !plotAddrOk dst len ∨
      (m = d.lmod al ∧ (d.plotMA a dst len).isNone) then some 0x31
  else none

/-- Send the data of a SEND, here or over the Trellis (R347, R457, R466). -/
def Dev.sendData (d : Dev) (q : Nat) (e : Exec) : Dev :=
  let a := d.qAllot q
  let al := d.allot a
  let len := e.f 0x34 0 32
  let dst := BitVec.ofNat 64 (e.f 0x28 0 64)
  match d.plotMA a (BitVec.ofNat 64 (e.f 0x20 0 64)) len with
  | none => d.finish q e.seq 0x31
  | some sma =>
    let dma := (d.plotMA a dst len).getD 0
    if d.mem.begun (.exec q e.seq 1) then d.applySend a q e.seq dma []
    else
    match d.memRead (.exec q e.seq 0) sma len with
    | (d, .wait) => d
    | (d, .bad) => d.finish q e.seq 0x50
    | (d, .ok bs) =>
      if e.f 0x30 0 16 = d.lmod al then d.applySend a q e.seq dma bs
      else
        let m := d.modId al (e.f 0x30 0 16)
        if d.routeDead m then (d.noteUnreach m).finish q e.seq 0x40
        else
          (d.updExec q e.seq (fun e => { e with started := true, sendLeft := true })).trlSend m
            (d.mkMessage ftSendData m al.token (dst.toNat + q * 2 ^ 41 + e.seq * 2 ^ 64) bs) (.send q e.seq)

/-- SEND (R347, R362). -/
def execSend (q : Qx) (seq : Nat) (s : State) : Host.Outcome State Fault Refusal := onDev s fun d =>
  match d.startable q.val seq 4 with
  | none => d
  | some e =>
    match d.sendBad (d.qAllot q.val) e with
    | some st => d.finish q.val seq st
    | none => d.sendData q.val e

/-- SEND_RESEND_TIMEOUT (R347): the same data with the same tuple, or REMOTE_UNREACHABLE. -/
def execSendResendTimeout (q : Qx) (seq : Nat) (s : State) : Host.Outcome State Fault Refusal := onDev s fun d =>
  match d.exec? q.val seq with
  | some e => if e.typ = 4 ∧ e.sendLeft ∧ !e.complete then d.sendData q.val e else d
  | none => d

/-! ### FENCE and HINT (R341, R348) -/

/-- The queue a FENCE waits on: physical on queue 0, else allotment-relative (Table 7-11). -/
def Dev.fenceQueue (d : Dev) (q : Nat) (e : Exec) : Option Nat :=
  let w := e.f 0x20 0 12
  if q = 0 then some w else d.queueOf (d.qAllot q) w

/-- Are the conditions of a FENCE met (R348)? -/
def Dev.fenceMet (d : Dev) (q : Nat) (e : Exec) : Bool :=
  (d.queue q).c == e.seq &&
  (e.f 0x20 12 1 == 0 ||
    (match d.fenceQueue q e with | some w => decide (e.f 0x28 0 64 < (d.queue w).c) | none => false))

/-- FENCE (R348): completes at once when its conditions are met, else waits. -/
def execFence (q : Qx) (seq : Nat) (s : State) : Host.Outcome State Fault Refusal := onDev s fun d =>
  match d.startable q.val seq 5 with
  | none => d
  | some e =>
    if e.headBad ∨ e.f 0x20 13 19 ≠ 0 ∨ e.f 0x24 0 32 ≠ 0 ∨ e.f 0x30 0 640 ≠ 0 then d.finish q.val seq 0x21
    else if e.f 0x20 12 1 = 1 ∧ (d.fenceQueue q.val e).isNone then d.finish q.val seq 0x31
    else if d.fenceMet q.val e then d.finish q.val seq 0
    else d.start q.val seq

/-- FENCE_RELEASE (R348): the wait conditions are met. -/
def execFenceRelease (q : Qx) (seq : Nat) (s : State) : Host.Outcome State Fault Refusal := onDev s fun d =>
  match d.exec? q.val seq with
  | some e => if e.typ = 5 ∧ e.started ∧ !e.complete ∧ d.fenceMet q.val e then d.finish q.val seq 0 else d
  | none => d

/-- HINT_DESCRIPTOR (R341): only its header hint, forwarded at acceptance, has an effect. -/
def execHintDescriptor (q : Qx) (seq : Nat) (s : State) : Host.Outcome State Fault Refusal := onDev s fun d =>
  match d.startable q.val seq 6 with
  | none => d
  | some e => d.finish q.val seq (if e.headBad ∨ e.f 0x20 0 768 ≠ 0 then 0x21 else 0)

/-! ### Completion and commit (R219, R220, R349, R356 to R358, R366, R369, R370) -/

/-- Is a block COMMITTED, or does it carry a newer group than `g` (R221)? -/
def Dev.blkCommitted (d : Dev) (b : Nat) (g : Word32) : Bool :=
  (d.blk b).st == .committed || (!(d.blk b).fresh && groupNewer (d.blk b).group g)

/-- Has the REDUCE that consumed a contribution committed (R220)? Remote blocks are marked by their probe's reply. -/
def Dev.contribDone (d : Dev) (a : Nat) (k : ContribMark) : Bool :=
  match k.phys with
  | none => k.done
  | some b =>
    let x := d.blk b
    x.allot != a || d.blkCommitted b k.group

/-- The descriptor a message of the Trellis belongs to. -/
def Dev.ownerOf (d : Dev) (o : Origin) : Option (Nat × Nat) :=
  match o with
  | .xfer q sq _ _ | .packet q sq _ _ _ | .send q sq => some (q, sq)
  | .post b _ g | .postEv b _ g => if (d.blk b).group = g then (d.blk b).params.map (fun p => (p.q, p.seq)) else none
  | .control | .reply => none

/-- Is a message of a descriptor on its way to another module, not acknowledged (R356, Table 7-15)? -/
def Dev.remoteOut (d : Dev) (q seq : Nat) : Bool :=
  let mine := fun (o : Origin) => d.ownerOf o == some (q, seq)
  d.trl.send.any (fun e => match e.2 with | some t => t.msgs.any (fun m => mine m.2.1) || t.backlog.any (fun m => mine m.2) | none => false) ||
  d.trl.waiting.any (fun m => mine m.2.2) || d.trl.resend.any (fun m => mine m.2.2.1) || d.trl.orphans.any (fun m => mine m.2.2.1)

/-- Is a block of a REDUCE still posting (R356)? -/
def Dev.stillPosts (d : Dev) (q seq : Nat) : Bool :=
  d.blks.any (fun b => b.2.st == .posting && (match b.2.params with | some p => p.q == q && p.seq == seq | none => false))

/-- Is every effect of a completed descriptor complete: its host data observed, its posts ended, its remote messages acknowledged (R308,
R356)? -/
def Dev.settled (d : Dev) (q seq : Nat) : Bool :=
  !d.hp.writes.contains (.data q seq) && !d.stillPosts q seq && !d.remoteOut q seq

/-- May the record of a descriptor be issued (R220, R308, R356, R366)? -/
def Dev.mayIssue (d : Dev) (q : Nat) (e : Exec) : Bool :=
  let x := d.queue q
  e.complete && !e.issued && !x.redo.any (fun k => decide (k < e.seq)) &&
  x.execs.all (fun k => k.issued || decide (e.seq ≤ k.seq)) && d.settled q e.seq &&
  e.contribs.all (d.contribDone (d.qAllot q)) && (!e.isGang || e.gangDone)

/-- A descriptor commits: C passes it, the blocks of a REDUCE become COMMITTED, those it left unposted or FAULTED among them, and its
interrupt is signalled (R219, R220, R357, R358; log 64). The 64th commit since the header line was written rewrites it (R335). -/
def Dev.commit (d : Dev) (q seq : Nat) (irq : Bool) : Dev :=
  let mine := fun (b : Nat × CisBlk) => b.2.st != .clearing && b.2.st != .committed &&
    (match b.2.params with | some p => p.q == q && p.seq == seq | none => false)
  let reduce := match d.exec? q seq with | some e => e.typ == 3 && e.complete | none => false
  let bs := if reduce then (d.blks.filter mine).map Prod.fst else []
  let d := d.updQueue q (fun x => { x with
    c := max x.c (seq + 1), execs := x.execs.filter (fun e => e.seq != seq), acc := x.acc.filter (fun e => e.seq != seq),
    sinceHdr := x.sinceHdr + 1 })
  let d := bs.foldl (fun d b => d.blkState b .committed) d
  let d := if irq then d.signalQueue q else d
  if 64 ≤ (d.queue q).sinceHdr ∧ d.headerOpen q then d.hostThen q .ok (fun d => d.writeHeader q) else d

/-- A descriptor with the flags that its blocks hold by now, where it is a REDUCE (R104). -/
def Dev.joinFlags (d : Dev) (q : Nat) (e : Exec) : Exec := if e.typ = 3 then { e with flags := e.flags ||| d.reduceFlags q e.seq } else e

/-- Every REDUCE of a queue takes the flags of its blocks. -/
def Dev.gatherFlags (d : Dev) (q : Nat) : Dev := d.updQueue q (fun x => { x with execs := x.execs.map (d.joinFlags q) })

/-- The record of a completed descriptor (R104, Table 7-12). -/
def Dev.recordOf (d : Dev) (q : Nat) (e : Exec) : Record := (d.joinFlags q e).record

/-- Is host data of a queue on its way, not observed (R308)? -/
def Dev.dataOut (d : Dev) (q : Nat) : Bool := d.hp.writes.any (fun w => match w with | .data k _ => k == q | .record _ _ | .line _ | .header _ => false)

/-- Hold a record in the queue store (R369, R370). -/
def Dev.holdRecord (d : Dev) (q : Nat) (r : Record) : Dev :=
  (d.updQueue q (fun x => { x with held := x.held ++ [r] })).updExec q r.seq (fun e => { e with issued := true })

/-- Write the record of a descriptor into its slot: it is on its way. -/
def Dev.issueRecord (d : Dev) (q : Nat) (e : Exec) : Dev := (d.writeRecord q (d.recordOf q e)).updExec q e.seq (fun e => { e with issued := true })

/-- COMPLETION_RECORD (R104, R314, R349, R356, R369 to R371): issued in order, or held while the queue is PAUSED; records held are written
before any new one. -/
def execCompletionRecord (q : Qh) (seq : Nat) (s : State) : Host.Outcome State Fault Refusal := onDev s fun d =>
  match d.exec? q.val seq with
  | none => d
  | some e =>
    let x := d.queue q.val
    if !d.mayIssue q.val e then d
    else
      match x.st with
      | .paused => if x.held.length < 4096 then d.holdRecord q.val (d.recordOf q.val e) else d
      | .running | .held => d.hostDone q (fun d => d.issueRecord q.val e)
      | .error => if d.reach q.val ∧ x.held = [] then d.hostDone q (fun d => d.issueRecord q.val e) else d
      | .disabled | .arming | .clearing => d

/-- COMPLETION_LANDED (R357, R358): the record of the first uncommitted sequence lands. -/
def execCompletionLanded (q : Qx) (seq : Nat) (s : State) : Host.Outcome State Fault Refusal := onDev s fun d =>
  match d.exec? q.val seq with
  | none => d
  | some e =>
    let x := d.queue q.val
    if e.issued ∧ x.c = seq ∧ !x.held.any (fun r => r.seq == seq) then (d.commit q.val seq (e.f 1 0 1 == 1)).serveInval else d

/-- Write a record that is not on its way yet, and take it as landed: it commits (R371, R375). -/
def Dev.landRecord (d : Dev) (q : Nat) (r : Record) : Dev :=
  let onWay := match d.exec? q r.seq with | some e => e.issued && !(d.queue q).held.any (fun k => k.seq == r.seq) | none => false
  let d := if onWay then d else d.writeRecord q r
  (d.updQueue q (fun x => { x with held := x.held.filter (fun k => k.seq != r.seq) })).commit q r.seq r.irq

/-- Write the held records in sequence order from C on; each commits (R371). -/
def Dev.flushHeld (d : Dev) (q : Nat) : Dev :=
  (d.queue q).held.foldl (fun d r => if r.seq = (d.queue q).c then d.landRecord q r else d) d

/-- The record of a revoked descriptor (R379, R380). -/
def revokedRecord (seq : Nat) (data : BitVec 1024) : Record := ((Exec.new seq data 0).finish 0x30).record

/-- The record that ends a sequence whose binding goes: one held in the queue store, that of a descriptor which had completed, else
ALLOTMENT_REVOKED (R375, R379); `ring` is the submission slot, for a sequence that the queue store does not hold. -/
def Queue.endRecord (x : Queue) (s : Nat) (ring : BitVec 1024) : Record :=
  match x.held.find? (fun r => r.seq == s), x.execs.find? (fun e => e.seq == s), x.acc.find? (fun e => e.seq == s) with
  | some r, _, _ => r
  | none, some e, _ => (e.finish 0x30).record
  | none, none, some k => revokedRecord s k.data
  | none, none, none => revokedRecord s ring

/-- The records of every accepted sequence that has not committed, in order. -/
def Queue.endRecords (x : Queue) (ring : List (BitVec 1024)) : List Record :=
  (List.range (x.accept - x.c)).map (fun k => x.endRecord (x.c + k) (ring.getD k 0))

/-- Revoke one queue: its records are written and commit, or, while the host cannot be reached, up to 4,096 are held; what is left then
keeps its place for a later arm or flush (R370, R375, R379). -/
def Dev.revokeQueue (d : Dev) (q : Nat) : Dev :=
  let rs := (d.queue q).endRecords []
  let d := d.updQueue q (fun x => { x with redo := [] })
  if d.reach q then rs.foldl (fun d r => d.landRecord q r) d
  else
    let keep := rs.take 4096
    d.updQueue q (fun x => { x with
      held := keep, execs := x.execs.map (fun e => { e with issued := keep.any (fun r => r.seq == e.seq) }) })

/-- HELD_RECORDS_FLUSH (R308, R369, R410): a queue being released writes its held records once the host can be reached and its data is
observed, and after them those of its revoked descriptors that it could not hold. -/
def execHeldRecordsFlush (q : Qh) (s : State) : Host.Outcome State Fault Refusal := onDev s fun d =>
  let x := d.queue q.val
  if x.st = .clearing ∧ x.released ∧ d.reach q.val ∧ !d.dataOut q.val ∧ q.res = .ok then
    let d := d.cacheErr q
    let revoked := match d.clearOp with | some op => op.allot == x.allot && op.revokeDone | none => false
    let d := d.flushHeld q.val
    if revoked then d.revokeQueue q.val else d
  else d

/-! ### Gangs -/

/-- GANG_DONE_TIMER (R364, R366). -/
def execGangDoneTimer (q : Qx) (seq : Nat) (s : State) : Host.Outcome State Fault Refusal := onDev s fun d =>
  match d.exec? q.val seq with
  | none => d
  | some e =>
    let a := d.qAllot q.val
    if !e.isGang ∨ !e.complete ∨ e.gangDone ∨ e.gangPh ≠ .none then d
    else if d.homeOf a e.group = d.moduleId then
      let (d, ok) := d.homeDone a e.group (d.moduleId, q.val, seq)
      if ok then d.updExec q.val seq (fun e => { e with gangDone := true }) else d
    else d.control (d.homeOf a e.group) (d.allot a).token 3 0 0 q.val e.group seq

/-- Move a member to its next replay phase. -/
def Dev.gangPhase (d : Dev) (q seq : Nat) (ph : GangPh) : Dev := d.updExec q seq (fun e => { e with gangPh := ph })

/-- GANG_STOP_END (Table 7-15). -/
def execGangStopEnd (q : Qx) (seq : Nat) (s : State) : Host.Outcome State Fault Refusal := onDev s fun d =>
  match d.exec? q.val seq with
  | some e => if e.gangPh = .stop then d.gangPhase q.val seq .drain else d
  | none => d

/-- GANG_DRAIN_END (Table 7-15): no message of the member's shares is outstanding. -/
def execGangDrainEnd (q : Qx) (seq : Nat) (s : State) : Host.Outcome State Fault Refusal := onDev s fun d =>
  match d.exec? q.val seq with
  | some e =>
    if e.gangPh = .drain ∧ !d.remoteOut q.val seq ∧ (d.sharePavs q.val seq).all (fun p =>
        (d.pav p).xfers.all (fun t => t.kind == .mld || t.kind == .mst)) then d.gangPhase q.val seq .ready
    else d
  | none => d

/-- GANG_READY_TIMER (R368). -/
def execGangReadyTimer (q : Qx) (seq : Nat) (s : State) : Host.Outcome State Fault Refusal := onDev s fun d =>
  match d.exec? q.val seq with
  | none => d
  | some e =>
    let a := d.qAllot q.val
    if e.gangPh ≠ .ready then d
    else if d.homeOf a e.group = d.moduleId then d.homeReady a e.group (d.moduleId, q.val, seq)
    else d.control (d.homeOf a e.group) (d.allot a).token 6 0 0 q.val e.group seq

/-! ### HELD, arming and disabling (R336, R372 to R382) -/

/-- Does R43 or a quiesce hold a queue (R374)? -/
def Dev.holdCause (d : Dev) (q : Nat) : Bool :=
  d.quiesced || (d.queue q).execs.any (fun e => e.typ == 1 && e.started && !e.complete && e.shares.any (fun k => k.2 == .waiting &&
    (match d.pavOf (d.qAllot q) k.1 with | some p => (d.pav p).withdrawn | none => false)))

/-- QUEUE_HELD (R374): the queue enters HELD, and returns by itself when the cause has ended. -/
def execQueueHeld (q : Qx) (s : State) : Host.Outcome State Fault Refusal := onDev s fun d =>
  let x := d.queue q.val
  if x.st = .running ∧ d.holdCause q.val then ((d.setQueue q.val { x with st := .held }).raise Reg.GLB_QE_HOLD_EVT).fire 47 q.val
  else if x.st = .held ∧ !d.holdCause q.val then d.setQueue q.val { x with st := .running }
  else d

/-- Is the queue store named (R372)? -/
def Dev.storeValid (d : Dev) : Bool := d.fld Reg.GLB_QE_STORE F.GLB_QE_STORE_VALID == 1

/-- Start the phases of an arm, or enter ERROR with STORE or CONFIG (R376, R378). -/
def Dev.beginArm (d : Dev) (q : Nat) : Dev :=
  let l := bitsOf (d.reg (Reg.QCT_CFG q)).toNat 16 5
  if !d.storeValid then d.queueError q 1
  else if l < 6 ∨ 16 < l then d.queueError q 2
  else d.updQueue q (fun x => { x with st := .arming, reason := 0, arm := some .header, armHeld := false, useLine := false })

/-- QCT_ARM (R378): a write of 1 to ARM. -/
def execQctArm (q : Qx) (s : State) : Host.Outcome State Fault Refusal := onDev s fun d =>
  let x := d.queue q.val
  match x.st with
  | .disabled | .paused | .error => d.beginArm q.val
  | .clearing => d.setQueue q.val { x with armHeld := true }
  | .arming | .running | .held => d

/-- ARM_HEADER_READ (R314, R379, Table 7-18 phases 1 and 2). -/
def execArmHeaderRead (q : Qh) (hdr : HeaderLine) (s : State) : Host.Outcome State Fault Refusal := onDev s fun d =>
  let x := d.queue q.val
  if x.st ≠ .arming ∨ x.arm ≠ some .header then d
  else d.fetchThen q [(d.hdrAddr q.val, 64)] fun d =>
  if hdr.accept.toNat < hdr.commit.toNat ∨ d.ringN q.val < hdr.accept.toNat - hdr.commit.toNat then d.queueError q.val 3
  else
    let stale := hdr.incarnation ≠ d.reg Reg.GLB_INCARNATION ∨ hdr.binding.toNat ≠ d.serialOf q.val
    d.setQueue q.val
      { x with armAccept := hdr.accept.toNat, armCommit := hdr.commit.toNat, armStale := stale, hdrId := (hdr.incarnation, hdr.binding),
               arm := some .scan }

/-- How far C advances over the sequences found in the completion slots from COMMIT on (R381). -/
def scanC (accept : Nat) : Nat → List Nat → Nat
  | c, [] => c
  | c, v :: r => if v = c ∧ c < accept then scanC accept (c + 1) r else c

/-- ARM_SCAN (R314, R335, R358, R381, phase 3): ACCEPT and C stand where the header line and the completion slots have them; records that had
landed commit, and signal the interrupts that the queue store knows of. -/
def execArmScan (q : Qh) (slots : List Nat) (s : State) : Host.Outcome State Fault Refusal := onDev s fun d =>
  let x := d.queue q.val
  if x.st ≠ .arming ∨ x.arm ≠ some .scan then d
  else
    d.fetchThen q ((List.range slots.length).map (fun k => (d.cqAddr q.val (x.armCommit + k), 32))) fun d =>
      let c := scanC x.armAccept x.armCommit slots
      let d := d.setQueue q.val { x with accept := x.armAccept, c := x.armCommit, arm := some .heldRecords }
      let d := (x.execs.filter (fun e => e.seq < c)).foldl (fun d e => d.commit q.val e.seq (e.f 1 0 1 == 1)) d
      let lost := x.acc.filter (fun k => decide (k.seq < c) && !x.execs.any (fun e => e.seq == k.seq))
      let d := lost.foldl (fun d k => d.commit q.val k.seq ((Exec.new k.seq k.data 0).f 1 0 1 == 1)) d
      d.updQueue q.val (fun x => { x with c := c, held := x.held.filter (fun r => c ≤ r.seq) })

/-- The uncommitted sequences of which only the submission ring holds the descriptor. -/
def Queue.onlyRing (x : Queue) : List Nat :=
  ((List.range (x.accept - x.c)).map (· + x.c)).filter (fun s =>
    !x.held.any (fun r => r.seq == s) && !x.execs.any (fun e => e.seq == s) && !x.acc.any (fun k => k.seq == s))

/-- Has the binding of a queue gone (R379, R380)? -/
def Queue.bindingGone (x : Queue) (q : Nat) : Bool := q != 0 && (x.armStale || x.allot == 0)

/-- What phase 4 reads: of a queue whose binding has gone, the submission slots that alone hold a descriptor. -/
def Dev.armReads (d : Dev) (q : Nat) : List (Word64 × Nat) :=
  if (d.queue q).bindingGone q then (d.queue q).onlyRing.map (fun k => (d.slotAddr q k, 128)) else []

/-- Phase 4 (R371, R379, R380): the held records, and, for a queue whose binding has gone, one record for each sequence from C to ACCEPT − 1
in order, ALLOTMENT_REVOKED but for those held; `ring` holds the submission slots from C on. -/
def Dev.armRecords (d : Dev) (q : Nat) (ring : List (BitVec 1024)) : Dev :=
  if (d.queue q).bindingGone q then
    let d := ((d.queue q).execs.foldl (fun d e => d.stopShares q e.seq) d).gatherFlags q
    ((d.queue q).endRecords ring).foldl (fun d r => d.landRecord q r) d
  else d.flushHeld q

/-- Phase 5 (R336, R339, R382): what has neither record nor live execution is executed again, the doorbell is taken and
the header rewritten. -/
def Dev.armResume (d : Dev) (q producer cqHead : Nat) : Dev :=
  let x := d.queue q
  let line := d.cacheOn && d.atsOn x.allot
  let redo := ((List.range (x.accept - x.c)).map (· + x.c)).filter (fun k =>
    !x.execs.any (fun e => e.seq == k) && !x.held.any (fun r => r.seq == k))
  let d := d.setQueue q { x with st := .running, arm := none, redo := redo, useLine := line, lineArmed := x.lineArmed || line, armStale := false }
  let d := if line then (d.readLine q).takeDoorbell q producer cqHead else d.mmioDoorbell q
  if (d.queue q).st = .running then d.writeHeader q else d

/-- ARM_HELD_RECORDS (R308, R371, R379 to R382; phases 4 and 5): the doorbell line's cursors and the submission
slots from C on come with the command. A queue that is being released then waits for its release (R410), after which the arm runs as that of
an unbound queue (R378). -/
def execArmHeldRecords (q : Qh) (producer cqHead : Nat) (ring : List (BitVec 1024)) (s : State) : Host.Outcome State Fault Refusal := onDev s fun d =>
  let x := d.queue q.val
  if x.st ≠ .arming ∨ x.arm ≠ some .heldRecords ∨ d.dataOut q.val then d
  else d.fetchThen q (d.armReads q.val) fun d =>
    let d := d.armRecords q.val ring
    if x.released then d.updQueue q.val (fun x => { x with st := .clearing, arm := none, armHeld := true })
    else if x.allot = 0 ∧ q.val ≠ 0 then d.queueError q.val 9 else d.armResume q.val producer cqHead

/-- QUEUE_DISABLE (R377): acceptance stops at once. -/
def execQueueDisable (q : Qx) (s : State) : Host.Outcome State Fault Refusal := onDev s fun d =>
  let x := d.queue q.val
  if x.st = .disabled then d else d.setQueue q.val { x with disableReq := true, read := [] }

/-- QUEUE_DISABLED (R306, R377): no accepted descriptor of the queue is uncommitted; its doorbell line is dropped. -/
def execQueueDisabled (q : Qx) (s : State) : Host.Outcome State Fault Refusal := onDev s fun d =>
  let x := d.queue q.val
  if x.disableReq ∧ x.st ≠ .clearing ∧ x.st ≠ .arming ∧ x.c = x.accept ∧ x.execs = [] ∧ x.held = [] ∧ x.redo = [] then
    let d := if x.lineArmed then d.emit (.evict (d.hostReq q.val .cleanEvict) (d.dbAddr q.val)) else d
    d.setQueue q.val { x with st := .disabled, disableReq := false, arm := none, cqHead := 0, lineArmed := false, useLine := false, acc := [] }
  else d

/-- Is a plot bound to any allotment? -/
def Dev.plotBound (d : Dev) (p : Nat) : Bool :=
  d.allots.any (fun e => e.2.plots.any (fun k => match k.2 with | some (x, _) => x == p | none => false))

/-- GLB_QE_STORE (R372). -/
def execGlbQeStore (v : Word32) (s : State) : Host.Outcome State Fault Refusal := onDev s fun d =>
  let plot := if d.qs.all (fun e => e.2.st == .disabled) then F.GLB_QE_STORE_PLOT.get v
    else d.fld Reg.GLB_QE_STORE F.GLB_QE_STORE_PLOT
  let valid := F.GLB_QE_STORE_VALID.get v
  if valid = 1 ∧ (d.plotBound plot ∨ d.nplots ≤ plot) then d
  else d.setReg Reg.GLB_QE_STORE (BitVec.ofNat 32 (valid * 2 ^ 31 + plot))

end Sys2Proof.Machine
end

