-- ==== Sys2Proof/Machine/Allotment.lean ====
section
/-! DEFINITION. Allotments (chapter 8): binding, unbinding and clearing of resources, and the keys of sealed pages. The
entries of a list that lies in host memory come with the command. -/

namespace Sys2Proof.Machine

/-! ### The body of BIND, UNBIND and CLEAR (Tables 8-3 and 8-4) -/

def Exec.allotNo (e : Exec) : Nat := e.f 0x20 0 8
def Exec.scope (e : Exec) : Bool := e.f 0x21 0 1 == 1

/-- Is the fixed part of a body malformed (R394, Table 8-3)? -/
def Exec.listBad (e : Exec) (bind : Bool) : Bool :=
  let create := bind && e.scope
  e.headBad || e.allotNo == 0 || e.f 0x21 1 7 != 0 || e.f 0x24 0 32 != 0 || e.f 0x28 0 64 % 8 != 0 ||
  (e.f 0x22 0 16 == 0 && e.f 0x28 0 64 != 0) || e.f 0x4C 0 416 != 0 || e.f 0x38 0 64 % 4096 != 0 || e.f 0x40 0 64 % 4096 != 0 ||
  (!create && (e.f 0x30 0 64 != 0 || e.f 0x38 0 64 != 0 || e.f 0x40 0 64 != 0 || e.f 0x48 0 32 != 0))

/-- PHYS of a list entry. -/
def entPhys (w : Word64) : Nat := bitsOf w.toNat 0 16
def entLogical (w : Word64) : Nat := bitsOf w.toNat 16 16
def entKind (w : Word64) : Nat := bitsOf w.toNat 32 8
def entHost (w : Word64) : Bool := w.toNat.testBit 40
def entShare (w : Word64) : Nat := bitsOf w.toNat 48 8

/-- Are the reserved and unused fields of an entry 0 (Table 8-4)? -/
def entOk (w : Word64) : Bool :=
  let k := entKind w
  decide (1 ≤ k ∧ k ≤ 7) && bitsOf w.toNat 41 7 == 0 && bitsOf w.toNat 56 8 == 0 && (k == 2 || !entHost w) &&
  (k == 6 || entShare w == 0) && ((k != 5 && k != 6) || entLogical w == 0)

/-! ### BIND (R396 to R404) -/

/-- Sixty-fourths of a port that all allotments hold (R388). -/
def Dev.shareSum (d : Dev) (p : Nat) : Nat := d.allots.foldl (fun n e => n + Tab.get 0 e.2.shares p) 0

/-- Is a ledger block bound to any allotment? -/
def Dev.blkBound (d : Dev) (b : Nat) : Bool := (d.blk b).allot != 0
/-- Is a vector bound to any allotment? -/
def Dev.vecBound (d : Dev) (v : Nat) : Bool := d.allots.any (fun e => e.2.vecs.contains v)

/-- A Pavilion entry: free, or already there, or a replacement of a withdrawn one (R397, R398, R402). -/
def Dev.bindPav (d : Dev) (a p l : Nat) : Option Dev :=
  let x := d.pav p
  if 160 ≤ p ∨ 144 ≤ l ∨ x.spare ∨ x.withdrawn then none
  else if d.pavOf a l = some p then some d
  else if x.allot ≠ 0 then none
  else
    let go := fun (d : Dev) =>
      let d := d.setPav p { Pav.reset p with
        spare := false, allot := a, logical := some l, freq := x.freq, rail := x.rail, settling := x.settling, lease := d.floorCap, newLease := true }
      d.updAllot a (fun t => { t with pavs := Tab.set none t.pavs l (some p) })
    match d.pavOf a l with
    | none => some (go d)
    | some old => if (d.pav old).withdrawn then some (go (d.updPav old (fun y => { y with allot := 0, logical := none }))) else none

/-- A plot entry; a plot that is newly bound is owed (Table 5-4). -/
def Dev.bindPlot (d : Dev) (a p l : Nat) (host : Bool) : Option Dev :=
  if d.nplots ≤ p ∨ d.nplots ≤ l ∨ (d.storeValid ∧ d.fld Reg.GLB_QE_STORE F.GLB_QE_STORE_PLOT = p) then none
  else
    match Tab.get none (d.allot a).plots l with
    | some k => if k = (p, host) then some d else none
    | none =>
      if d.plotBound p then none
      else some ((d.updAllot a (fun t => { t with plots := Tab.set none t.plots l (some (p, host)) })).oweRequest p)

/-- A Cistern block entry. -/
def Dev.bindBlk (d : Dev) (a b l : Nat) : Option Dev :=
  if 1024 ≤ b ∨ 1024 ≤ l then none
  else
    match d.blkOf a l with
    | some k => if k = b then some d else none
    | none =>
      if d.blkBound b then none
      else some ((d.updBlk b (fun x => { x with allot := a })).updAllot a (fun t => { t with blocks := Tab.set none t.blocks l (some b) }))

/-- A queue entry (R403). -/
def Dev.bindQueue (d : Dev) (a q l : Nat) : Option Dev :=
  if q = 0 ∨ 4096 ≤ q ∨ 4096 ≤ l then none
  else
    match d.queueOf a l with
    | some k => if k = q then some d else none
    | none =>
      let x := d.queue q
      if x.allot ≠ 0 ∨ x.st ≠ .disabled then none
      else some ((d.setQueue q { x with allot := a, lqueue := l }).updAllot a (fun t => { t with queues := Tab.set none t.queues l (some q) }))

/-- A vector entry: the next MSI-X entry of the function (R401). -/
def Dev.bindVec (d : Dev) (a v : Nat) : Option Dev :=
  let al := d.allot a
  if v < 64 ∨ 4096 ≤ v then none
  else if al.vecs.contains v then some d
  else if d.vecBound v ∨ 2048 ≤ al.vecs.length then none
  else some (d.setAllot a { al with vecs := al.vecs ++ [v] })

/-- A Trellis share entry (R388, R397). -/
def Dev.bindShare (d : Dev) (a p n : Nat) : Option Dev :=
  let have_ := Tab.get 0 (d.allot a).shares p
  if 18 ≤ p ∨ n = 0 ∨ 64 < n ∨ n < have_ ∨ 64 < d.shareSum p - have_ + n then none
  else some (d.updAllot a (fun t => { t with shares := Tab.set 0 t.shares p n }))

/-- One entry that is no module entry. -/
def Dev.bindEntry (d : Dev) (a : Nat) (w : Word64) : Option Dev :=
  if !entOk w then none
  else
    match entKind w with
    | 1 => d.bindPav a (entPhys w) (entLogical w)
    | 2 => d.bindPlot a (entPhys w) (entLogical w) (entHost w)
    | 3 => d.bindBlk a (entPhys w) (entLogical w)
    | 4 => d.bindQueue a (entPhys w) (entLogical w)
    | 5 => d.bindVec a (entPhys w)
    | 6 => d.bindShare a (entPhys w) (entShare w)
    | _ => some d

/-- The module map after the module entries of a list, or none when they break R400. Entries that already stand at their
index pass (R397). `base` is the map before. -/
def mapAfter (base : List (BitVec 16)) (self : BitVec 16) (list : List Word64) : Option (List (BitVec 16)) :=
  let es := (list.filter (fun w => entKind w == 7)).map (fun w => (entLogical w, BitVec.ofNat 16 (entPhys w)))
  let new := es.filter (fun e => base[e.1]? != some e.2)
  let ids := (List.range new.length).map (fun k => (new.find? (fun e => e.1 == base.length + k)).map Prod.snd)
  if es.isEmpty then some base
  else if ids.any Option.isNone then none
  else
    let m := base ++ ids.filterMap id
    if m.eraseDups.length = m.length ∧ m.all (fun i => i != 0 && i != 0xFFFF) ∧ m.contains self then some m else none

/-- The block after every entry of a list, or none when a check fails (R396). `base` is the module map before. DESIGN CHOICE (log 24): each
entry is checked after the effects of those before it, so an entry that stands in the list twice passes (R397). -/
def Dev.bindList (d : Dev) (a : Nat) (base : List (BitVec 16)) (list : List Word64) : Option Dev :=
  match list.foldl (fun (r : Option Dev) w => r.bind (fun d => d.bindEntry a w)) (some d), mapAfter base d.moduleId list with
  | some d, some m => some (if list.any (fun w => entKind w == 7) then d.updAllot a (fun t => { t with modules := m }) else d)
  | _, _ => none

/-- Create an allotment (R390, R399, R423). -/
def Dev.createAllot (d : Dev) (a : Nat) (e : Exec) : Dev :=
  let n := (d.allot a).serial + 1
  d.setAllot a
    { Allot.reset with
      st := .bound
      serial := n
      token := BitVec.ofNat 64 (e.f 0x30 0 64)
      protBase := BitVec.ofNat 64 (e.f 0x38 0 64)
      tagBase := BitVec.ofNat 64 (e.f 0x40 0 64)
      protPages := BitVec.ofNat 32 (e.f 0x48 0 32)
      lastUnbind := (d.allot a).lastUnbind }

/-- Complete a BIND, UNBIND, CLEAR or KEY: trigger 57 with its TYPE and allotment. -/
def Dev.finishOp (d : Dev) (seq status : Nat) : Dev :=
  match d.exec? 0 seq with
  | some e => if e.complete then d else (d.finish 0 seq status).fire 57 (e.typ + 65536 * e.allotNo)
  | none => d

/-- What a BIND makes of the block, or none when it fails (R396 to R400). -/
def Dev.bind (d : Dev) (e : Exec) (list : List Word64) : Option Dev :=
  let a := e.allotNo
  let t := d.allot a
  let tok := BitVec.ofNat 64 (e.f 0x30 0 64)
  if e.listBad true then none
  else if e.scope then
    if tok = 0 ∨ 2 ^ 64 < e.f 0x38 0 64 + 4096 * e.f 0x48 0 32 then none
    else if t.st = .unbound then
      if d.allots.any (fun k => k.2.st != .unbound && k.2.token == tok) then none
      else (d.createAllot a e).bindList a [] list
    else if e.replayed ∧ t.token = tok ∧ t.protBase.toNat = e.f 0x38 0 64 ∧ t.tagBase.toNat = e.f 0x40 0 64 ∧
        t.protPages.toNat = e.f 0x48 0 32 then
      d.bindList a t.modules list
    else none
  else if t.st = .unbound then none
  else d.bindList a (if t.modules.isEmpty then [d.moduleId] else t.modules) list

/-- The list of a BIND, UNBIND or CLEAR in host memory, in queue 0's address space (Table 8-3). -/
def Exec.listReads (e : Exec) : List (Word64 × Nat) :=
  if e.f 0x22 0 16 = 0 then [] else [(BitVec.ofNat 64 (e.f 0x28 0 64), 8 * e.f 0x22 0 16)]

/-- Read what an operator descriptor needs of host memory, if anything, and go on; it waits while queue 0 can read nothing, and a read that
errs puts queue 0 in ERROR, the descriptor not started (R314, R336, R369). -/
def Dev.operatorReads (d : Dev) (x : Sh) (rs : List (Word64 × Nat)) (f : Dev → Dev) : Dev :=
  if rs = [] then f d else if !d.mayReadHost 0 then d else d.fetchThen x.q0 rs f

/-- BIND (R314, R393, R396 to R404). -/
def execBind (seq : Sh) (list : List Word64) (s : State) : Host.Outcome State Fault Refusal := onDev s fun d =>
  match d.startable 0 seq.seq 8 with
  | none => d
  | some e =>
    if list.length ≠ e.f 0x22 0 16 then d
    else d.operatorReads seq e.listReads fun d =>
      match d.bind e list with
      | some d => d.finishOp seq.seq 0
      | none => d.finishOp seq.seq 0x21

/-! ### UNBIND and CLEAR (R405 to R413) -/

/-- What one UNBIND or CLEAR entry names: nothing (an execution again that finds it released by the earlier one), a resource, a cut of a
share; none when the entry fails (R405). DESIGN CHOICE (log 24): an entry with HOST 1 fails, the field being unused there. `before` is what the entries before it name: vectors, cuts of shares; `again` holds when an
earlier execution of this UNBIND released the entries of `list`. -/
def Dev.clearEntry (d : Dev) (a : Nat) (unbind : Bool) (again : Option (List Word64)) (before : Nat × List (Nat × Nat)) (w : Word64) :
    Option (List (ResKind × Nat) × List (Nat × Nat)) :=
  let was := match again with | some l => unbind && l.contains w | none => false
  let gone : Option (List (ResKind × Nat) × List (Nat × Nat)) := if was then some ([], []) else none
  let one := fun (k : ResKind) (x : Option Nat) =>
    if entPhys w ≠ 0 then none else match x with | some p => some ([(k, p)], []) | none => gone
  let al := d.allot a
  if !entOk w || entHost w then none
  else
    match entKind w with
    | 1 => one .pavilion (d.pavOf a (entLogical w))
    | 2 => one .plot (d.plotOf a (entLogical w))
    | 3 => one .block (d.blkOf a (entLogical w))
    | 4 => if unbind then one .queue (d.queueOf a (entLogical w)) else none
    | 5 =>
      if !unbind then none
      else if was then gone
      else match al.vecs.reverse[before.1]? with | some v => some ([(.vector, v)], []) | none => none
    | 6 =>
      let cut := ((before.2.filter (fun c => c.1 == entPhys w)).map Prod.snd).sum
      if !unbind || entShare w == 0 || decide (18 ≤ entPhys w) then none
      else if was then gone
      else if Tab.get 0 al.shares (entPhys w) < cut + entShare w then none
      else some ([(.share, entPhys w)], [(entPhys w, entShare w)])
    | _ => none

/-- What a whole list names. -/
def Dev.clearList (d : Dev) (a : Nat) (unbind : Bool) (again : Option (List Word64)) (list : List Word64) :
    Option (List (ResKind × Nat) × List (Nat × Nat)) :=
  (list.foldl (fun (r : Option (Nat × List (ResKind × Nat) × List (Nat × Nat))) w =>
    match r with
    | none => none
    | some (v, n, c) =>
      match d.clearEntry a unbind again (v, c) w with
      | some (n', c') => some (if entKind w = 5 then v + 1 else v, n ++ n', c ++ c')
      | none => none) (some (0, [], []))).map Prod.snd

/-- The resources a whole CLEAR cleans: Pavilions, plots and blocks (R408). -/
def Allot.cleanable (al : Allot) : List (ResKind × Nat) :=
  al.pavs.filterMap (fun e => e.2.map (fun p => (ResKind.pavilion, p))) ++
  al.plots.filterMap (fun e => e.2.map (fun p => (ResKind.plot, p.1))) ++
  al.blocks.filterMap (fun e => e.2.map (fun p => (ResKind.block, p)))

/-- All resources of an allotment. -/
def Allot.resources (al : Allot) : List (ResKind × Nat) :=
  al.cleanable ++ al.queues.filterMap (fun e => e.2.map (fun p => (ResKind.queue, p))) ++
  al.vecs.map (fun v => (ResKind.vector, v)) ++ al.shares.map (fun e => (ResKind.share, e.1))

/-- The queues of an allotment enter CLEARING; those named are being released (R406, R410). A doorbell line stays where it is (Table 8-8). -/
def Dev.clearQueues (d : Dev) (a : Nat) (rel : List Nat) : Dev :=
  let f := fun (q : Nat) (x : Queue) =>
    if x.allot ≠ a then x
    else { x with st := .clearing, read := [], arm := none, armHeld := false, released := rel.contains q }
  { d with qs := Tab.mapV (fun _ => Queue.reset) f d.qs }

/-- Start the Stop phase (Table 8-5). -/
def Dev.startClear (d : Dev) (op : ClearOp) : Dev :=
  let d := d.updAllot op.allot (fun t => { t with st := .clearing })
  let rel := op.named.filterMap (fun r => if r.1 = .queue then some r.2 else none)
  let d := d.clearQueues op.allot rel
  { d.start 0 op.seq with clearOp := some op }

/-- The list with which an earlier execution of an UNBIND released, where the UNBIND is executed again (R405). -/
def Allot.again (al : Allot) (e : Exec) : Option (List Word64) :=
  if e.redo then (al.lastUnbind.find? (fun u => u.1 == e.seq)).map Prod.snd else none

/-- UNBIND or CLEAR starts, or fails its checks (R314, R396, R405, R406). Executed again, an UNBIND whose earlier execution released what it
names changes nothing, the allotment being UNBOUND by now among the cases. -/
def Dev.beginClear (d : Dev) (unbind : Bool) (x : Sh) (list : List Word64) : Dev :=
  let seq := x.seq
  match d.startable 0 seq (if unbind then 9 else 10) with
  | none => d
  | some e =>
    if list.length ≠ e.f 0x22 0 16 then d
    else d.operatorReads x e.listReads fun d =>
      let a := e.allotNo
      let al := d.allot a
      let again := al.again e
      if e.listBad false then d.finishOp seq 0x21
      else if al.st = .unbound then
        let done := if e.scope then e.replayed else again.isSome && d.clearList a unbind again list == some ([], [])
        d.finishOp seq (if done then 0 else 0x21)
      else
        match d.clearList a unbind again list with
        | none => d.finishOp seq 0x21
        | some (named, cut) =>
          let named := if e.scope then (if unbind then al.resources else al.cleanable) else named.eraseDups
          let cut := if !unbind then [] else if e.scope then al.shares else cut
          d.startClear { allot := a, seq := seq, unbind := unbind, whole := e.scope, stopDone := false, revokeDone := false,
                         relDone := false, named := named, todo := named, shareCut := cut, list := list }

/-- UNBIND (R314, R393, R396, R405, R406, R408). -/
def execUnbind (seq : Sh) (list : List Word64) (s : State) : Host.Outcome State Fault Refusal :=
  onDev s fun d => d.beginClear true seq list

/-- CLEAR (R314, R393, R396, R405, R406, R408). -/
def execClear (seq : Sh) (list : List Word64) (s : State) : Host.Outcome State Fault Refusal :=
  onDev s fun d => d.beginClear false seq list

/-- A revoked gang member counts as DONE (R412). -/
def Dev.revokedDone (d : Dev) (a q : Nat) (e : Exec) : Dev :=
  if !e.isGang then d
  else if d.homeOf a e.group = d.moduleId then (d.homeDone a e.group (d.moduleId, q, e.seq)).1
  else d.control (d.homeOf a e.group) (d.allot a).token 3 0 0 q e.group e.seq

/-- A descriptor that had not completed, a gang member whose DONE has not been answered COMPLETE among them, completes with
ALLOTMENT_REVOKED and takes no further part in a replay (R366, R375, R412). -/
def Exec.revoke (e : Exec) : Exec :=
  if e.complete && (!e.isGang || e.gangDone) then e
  else { e with started := true, complete := true, sendLeft := false, status := 0x30, gangPh := .none }

/-- The accepted descriptors of a queue that have neither record nor execution, as executions in their place (R375). -/
def Queue.withLost (x : Queue) : Queue :=
  let lost := x.acc.filter (fun k => !x.execs.any (fun e => e.seq == k.seq) && !x.held.any (fun r => r.seq == k.seq))
  { x with execs := lost.foldl (fun l k => insExec (Exec.new k.seq k.data k.ord) l) x.execs, redo := [] }

/-- CLEARING_STOP_END (Table 8-5, R104, R366, R375, R406, R412): every share has stopped; what had not completed is revoked; clearing starts. -/
def execClearingStopEnd (s : State) : Host.Outcome State Fault Refusal := onDev s fun d =>
  match d.clearOp with
  | none => d
  | some op =>
    if op.stopDone then d
    else
      let d : Dev := { d with qs := Tab.mapV (fun _ => Queue.reset) (fun _ x => if x.allot = op.allot then x.withLost else x) d.qs }
      let d := ((d.qs.filter (fun e => e.2.allot == op.allot)).map Prod.fst).foldl Dev.gatherFlags d
      let es := (d.execsOf op.allot).filter (fun e => e.2.revoke != e.2)
      let d := es.foldl (fun d e => ((d.stopShares e.1 e.2.seq).updExec e.1 e.2.seq Exec.revoke).revokedDone op.allot e.1 e.2) d
      let d := op.named.foldl (fun d r =>
        match r.1 with
        | .pavilion => d.updPav r.2 (fun x => { x.dropShare with clearing := true })
        | .plot => d.oweRequest r.2
        | .block => d.updBlk r.2 (fun x => { x with st := .clearing })
        | _ => d) d
      { d with clearOp := some { op with stopDone := true } }

/-- REVOKE_END (Table 8-5, R308, R375): the records are written once the data they cover is observed. What a completed descriptor has on its
way to other modules is not waited for (DESIGN CHOICE, log 25): modules that clear the same allotment refuse each other's messages until they have
ended. -/
def execRevokeEnd (s : State) : Host.Outcome State Fault Refusal := onDev s fun d =>
  match d.clearOp with
  | none => d
  | some op =>
    if !op.stopDone ∨ op.revokeDone then d
    else
      let qs := (d.qs.filter (fun e => e.2.allot == op.allot && e.2.st == .clearing)).map Prod.fst
      if qs.any d.dataOut then d else
      let d := qs.foldl Dev.revokeQueue d
      { d with clearOp := some { op with revokeDone := true } }

/-- A Trellis share is cleared once no frame of the allotment is queued on the port: each has been sent in the slots of priority 3 or
discarded (Table 8-6, R439, R443, R460). -/
def Dev.drainShare (d : Dev) (p : Nat) (token : Word64) : Option Dev :=
  if (d.port p).queue.any (fun e => e.2.1.token == token) then none else some d

/-- The state of Table 8-6 of one resource; none while it has not been reached. -/
def Dev.cleared (d : Dev) (op : ClearOp) (k : ResKind) (i : Nat) : Option Dev :=
  match k with
  | .pavilion =>
    let x := d.pav i
    let d := d.setPav i { Pav.reset i with spare := x.spare, withdrawn := x.withdrawn, allot := x.allot, logical := x.logical, freq := x.freq, rail := x.rail, settling := x.settling }
    some (d.setLease i d.floorCap)
  | .plot => if d.mem.isOwing i then none else some d
  | .block => some (d.setBlk i { CisBlk.reset with allot := op.allot })
  | .share => d.drainShare i (d.allot op.allot).token
  | .vector => some (d.setMsix i Msix.reset)
  | .queue => if op.revokeDone then some d else none

/-- RESOURCE_CLEAR (R406, R407). -/
def execResourceClear (kind : ResKind) (idx : Nat) (s : State) : Host.Outcome State Fault Refusal := onDev s fun d =>
  match d.clearOp with
  | none => d
  | some op =>
    if op.stopDone ∧ op.todo.contains (kind, idx) then
      match d.cleared op kind idx with
      | none => d
      | some d => { d with clearOp := some { op with todo := op.todo.filter (· != (kind, idx)) } }
    else d

/-- Remove the entries of a map that hold a value. -/
def dropOpt (t : Tab (Option Nat)) (p : Nat) : Tab (Option Nat) := t.filter (fun e => e.2 != some p)

/-- Release one resource from its allotment (R306, R401, R408, R409, R411). A queue becomes DISABLED, its doorbell line dropped; an ARM held for it runs then as the arm
of an unbound queue (R378). -/
def Dev.releaseOne (d : Dev) (a : Nat) (r : ResKind × Nat) : Dev :=
  match r.1 with
  | .pavilion =>
    let join := decide (d.spares.length < 2) && !(d.pav r.2).withdrawn
    let d := d.updPav r.2 (fun x => { x with allot := 0, logical := none, spare := join })
    d.updAllot a (fun t => { t with pavs := dropOpt t.pavs r.2 })
  | .plot => d.updAllot a (fun t => { t with plots := t.plots.filter (fun e => e.2.map Prod.fst != some r.2) })
  | .block => (d.updBlk r.2 (fun x => { x with allot := 0 })).updAllot a (fun t => { t with blocks := dropOpt t.blocks r.2 })
  | .queue =>
    let held := (d.queue r.2).armHeld
    let d := if (d.queue r.2).lineArmed then d.emit (.evict (d.hostReq r.2 .cleanEvict) (d.dbAddr r.2)) else d
    let d := (d.setQueue r.2 Queue.reset).updAllot a (fun t => { t with queues := dropOpt t.queues r.2 })
    if held then d.beginArm r.2 else d
  | .vector => d.updAllot a (fun t => { t with vecs := t.vecs.filter (· != r.2) })
  | .share => d

/-- Lower the shares an UNBIND names. -/
def Dev.cutShares (d : Dev) (op : ClearOp) : Dev :=
  op.shareCut.foldl (fun d c => d.updAllot op.allot (fun t => { t with shares := Tab.set 0 t.shares c.1 (Tab.get 0 t.shares c.1 - c.2) })) d

/-- An ARM held for a queue that is being released runs, where the queue still waits for its records (R378, R410). -/
def Dev.armReleased (d : Dev) (a : Nat) : Dev :=
  d.qs.foldl (fun d e => if e.2.allot = a ∧ e.2.st = .clearing ∧ e.2.released ∧ e.2.armHeld then d.beginArm e.1 else d) d

/-- Every queue the allotment still holds is PAUSED; an ARM held for one runs at once (R378, R409). -/
def Dev.pauseCleared (d : Dev) (a : Nat) : Dev :=
  d.qs.foldl (fun d e =>
    if e.2.allot ≠ a ∨ e.2.st ≠ .clearing then d
    else if e.2.armHeld then d.beginArm e.1
    else if e.2.released then d
    else d.updQueue e.1 (fun x => { x with st := .paused })) d

/-- Erase keys of the Gatehouse store. -/
def Dev.eraseKey (d : Dev) (k : Option KeySlot) : Dev :=
  match k with
  | some k => { d with keys := d.keys.filter (fun x => x.handle != k.handle) }
  | none => d

/-- The end of an UNBIND or CLEAR: the allotment is BOUND, or UNBOUND with its keys erased; the queues it holds are PAUSED, and messages
that waited are sent (R298, R406, R408, R409, R415). -/
def Dev.endClear (d : Dev) (op : ClearOp) : Dev :=
  let al := d.allot op.allot
  let d := { d with clearOp := none }.pauseCleared op.allot
  let d := if op.unbind && op.whole then
      ((d.eraseKey al.slot0).eraseKey al.slot1).setAllot op.allot { Allot.reset with serial := al.serial, lastUnbind := al.lastUnbind }
    else (d.setAllot op.allot { al with st := .bound }).flushMsix op.allot
  d.finishOp op.seq 0

/-- The UNBINDs that may be executed again after one that releases (R405): those of queue 0 that have not committed, and it. -/
def Dev.unbindsKept (d : Dev) (t : Allot) (op : ClearOp) : List (Nat × List Word64) :=
  t.lastUnbind.filter (fun u => decide ((d.queue 0).c ≤ u.1) && u.1 != op.seq) ++ [(op.seq, op.list)]

/-- RELEASE (R390, R406, R408 to R411): tables updated and serial increased; a released queue that still holds records is
released by a later RELEASE, and the descriptor completes, and the allotment leaves CLEARING, then. -/
def execRelease (s : State) : Host.Outcome State Fault Refusal := onDev s fun d =>
  match d.clearOp with
  | none => d
  | some op =>
    if !op.revokeDone ∨ op.todo ≠ [] then d
    else
      let waits := fun (r : ResKind × Nat) => r.1 == .queue && ((d.queue r.2).st == .arming || (d.queue r.2).accept != (d.queue r.2).c)
      let left := if op.unbind then op.named.filter waits else []
      let go := if op.unbind then op.named.filter (fun r => !waits r) else []
      let d1 := go.foldl (fun d r => d.releaseOne op.allot r) d
      let d2 := if op.relDone then d1
        else ((d1.cutShares op).updAllot op.allot (fun t =>
          { t with serial := t.serial + 1, lastUnbind := if op.unbind then d1.unbindsKept t op else t.lastUnbind }))
      let d2 := d2.armReleased op.allot
      let op := { op with relDone := true, named := left }
      if left.isEmpty then d2.endClear op else { d2 with clearOp := some op }

/-! ### Keys (R423 to R429) -/

/-- The slot and epoch that INSTALL fills. -/
def Allot.nextEpoch (a : Allot) : BitVec 2 := a.wepoch + 1
/-- The slot of a parity. -/
def Allot.slotAt (a : Allot) (ep : BitVec 2) : Option KeySlot := if ep.toNat % 2 = 0 then a.slot0 else a.slot1

/-- INSTALL (R424 to R426). -/
def execInstall (seq : Nat) (s : State) : Host.Outcome State Fault Refusal := onDev s fun d =>
  match d.startable 0 seq 11 with
  | none => d
  | some e =>
    if e.f 0x21 0 4 ≠ 1 then d
    else
      let a := e.allotNo
      let al := d.allot a
      let h := BitVec.ofNat 32 (e.f 0x24 0 32)
      let bad := e.headBad || a == 0 || e.f 0x21 4 4 != 0 || e.f 0x22 0 16 != 0 || h == 0 || e.f 0x28 0 704 != 0
      if bad then d.finishOp seq 0x21
      else if (al.slot0.map (·.handle) = some h) ∨ (al.slot1.map (·.handle) = some h) then d.finishOp seq 0
      else
        match d.keys.find? (fun k => k.handle == h) with
        | none => d.finishOp seq 0x21
        | some k =>
          if k.token ≠ al.token ∨ k.installed ∨ (al.slotAt al.nextEpoch).isSome ∨ al.st = .unbound then d.finishOp seq 0x21
          else
            let al := { al.setSlot al.nextEpoch (some ⟨al.nextEpoch, h, 0⟩) with wepoch := al.nextEpoch }
            let keys := d.keys.map (fun (x : KeyEntry) => if x.handle = h then { x with installed := true } else x)
            let d := { d.setAllot a al with keys := keys }
            d.finishOp seq 0

/-- The check ranges of a RETIRE: address and pages. -/
def Exec.ranges (e : Exec) : List (Nat × Nat) :=
  (List.range (e.f 0x22 0 3)).map (fun i => (e.f (0x30 + 16 * i) 0 64, e.f (0x38 + 16 * i) 0 32))

/-- Is a RETIRE body malformed (Table 8-11)? -/
def Exec.retireBad (e : Exec) (al : Allot) : Bool :=
  let n := e.f 0x22 0 3
  e.headBad || e.allotNo == 0 || e.f 0x21 6 2 != 0 || e.f 0x22 3 13 != 0 || decide (4 < n) || e.f 0x24 0 32 != 0 ||
  e.f 0x28 0 64 != 0 || e.f 0x70 0 128 != 0 ||
  (List.range 4).any (fun i => if i < n then e.f (0x3C + 16 * i) 0 32 != 0 else e.f (0x30 + 16 * i) 0 128 != 0) ||
  e.ranges.any (fun r => r.1 % 4096 != 0 || r.2 == 0 || !al.protects r.1 (4096 * r.2))

/-- The pages of the check ranges, in order. -/
def Exec.rangePages (e : Exec) : List Nat :=
  e.ranges.flatMap (fun r => (List.range r.2).map (fun i => r.1 + 4096 * i))

/-- RETIRE (R314, R427 to R429): the tag entries of the check ranges are read in host memory, and come with the command in order. -/
def execRetire (x : Sh) (tags : List TagEntry) (s : State) : Host.Outcome State Fault Refusal := onDev s fun d =>
  match d.startable 0 x.seq 11 with
  | none => d
  | some e =>
    if e.f 0x21 0 4 ≠ 2 then d
    else
      let a := e.allotNo
      let al := d.allot a
      let ep := BitVec.ofNat 2 (e.f 0x21 4 2)
      if e.retireBad al then d.finishOp x.seq 0x21
      else
        match al.slotFor ep with
        | none => d.finishOp x.seq 0
        | some k =>
          if ep = al.wepoch then d.finishOp x.seq 0x21
          else if tags.length ≠ (e.ranges.foldl (fun n r => n + r.2) 0) then d
          else d.operatorReads x (e.rangePages.map (fun p => (al.tagAddr p, 32))) fun d =>
            match (e.rangePages.zip tags).find? (fun p => p.2.valid && p.2.epoch == ep) with
            | some p =>
              let d := d.setReg Reg.ALT_KEY_CHECK_LO (BitVec.ofNat 32 (p.1 % 2 ^ 32 + a))
              let d := d.setReg Reg.ALT_KEY_CHECK_HI (BitVec.ofNat 32 (p.1 / 2 ^ 32))
              d.finishOp x.seq 0x21
            | none => ((d.setAllot a (al.setSlot ep none)).eraseKey (some k)).finishOp x.seq 0

end Sys2Proof.Machine
end

