-- ==== Sys2Proof/Machine/Sensors.lean ====
section
/-! DEFINITION. What the Orangery reads: sensors, pairs, controlled readings, leak loops and the measured flow (R470 to R482),
and the hazards latched. -/

namespace Sys2Proof.Machine

def Dev.sensor (d : Dev) (n : Nat) : Sensor := Tab.get Sensor.reset d.org.sensors n
def Dev.updSensor (d : Dev) (n : Nat) (f : Sensor → Sensor) : Dev := { d with org := { d.org with sensors := Tab.upd Sensor.reset d.org.sensors n f } }
def Dev.spair (d : Dev) (n : Nat) : SPair := Tab.get SPair.reset d.org.pairs n
def Dev.updSpair (d : Dev) (n : Nat) (f : SPair → SPair) : Dev := { d with org := { d.org with pairs := Tab.upd SPair.reset d.org.pairs n f } }
def Dev.zone (d : Dev) (z : Nat) : Zone := Tab.get Zone.reset d.org.zones z
def Dev.updZone (d : Dev) (z : Nat) (f : Zone → Zone) : Dev := { d with org := { d.org with zones := Tab.upd Zone.reset d.org.zones z f } }
def Dev.orgPav (d : Dev) (p : Nat) : OrgPav := Tab.get OrgPav.reset d.org.pavs p
def Dev.updOrgPav (d : Dev) (p : Nat) (f : OrgPav → OrgPav) : Dev := { d with org := { d.org with pavs := Tab.upd OrgPav.reset d.org.pavs p f } }

/-- The kinds of sensor of Table 10-2. -/
inductive SKind where
  | temp | press | flow | hum | leak
  deriving DecidableEq, Repr

/-- The kind of the sensor at an index; none for a reserved index (R472). -/
def sensorKind (n : Nat) : Option SKind :=
  if n ≤ 25 then some .temp
  else if n ≤ 27 then some .press
  else if n ≤ 29 then some .flow
  else if n = 30 then some .hum
  else if n ≤ 34 then some .leak
  else if 64 ≤ n ∧ n < 408 then some .temp
  else none

/-- Does a sensor have a partner (Table 10-2)? Partners are the two indices of an even and odd couple. -/
def hasPair (n : Nat) : Bool := decide (n < 24) || decide (n = 28 ∨ n = 29) || decide (64 ≤ n ∧ n < 384)
/-- The partner's index. -/
def partner (n : Nat) : Nat := if n % 2 = 0 then n + 1 else n - 1
/-- The lower index of a couple. -/
def pairLow (n : Nat) : Nat := n - n % 2

/-- A temperature in 1/128 °C. -/
def Sensor.temp (x : Sensor) : Int := sInt 16 x.value

/-- The value of the temperature pair at a lower index: the higher of the readings, one alone when the other is excluded
(R476, R478). -/
def Dev.pairTemp (d : Dev) (lo : Nat) : Option Int :=
  let a := d.sensor lo
  let b := d.sensor (lo + 1)
  match a.excl, b.excl with
  | true, true => none
  | true, false => some b.temp
  | false, true => some a.temp
  | false, false => some (max a.temp b.temp)

/-- The measured flow, in 1/1,024 L/min: the lower of the flow meters (R476). Both are never excluded (R478). -/
def Dev.flow (d : Dev) : Nat :=
  let a := d.sensor 28
  let b := d.sensor 29
  if a.excl then b.value else if b.excl then a.value else min a.value b.value

/-- Is a pair flagged: by its counts, or by an excluded member (R477, R478)? -/
def Dev.pairFlagged (d : Dev) (lo : Nat) : Bool := (d.spair lo).flag || (d.sensor lo).excl || (d.sensor (lo + 1)).excl

/-- The value of the pair of a Pavilion. -/
def Dev.pavTemp (d : Dev) (p : Nat) : Option Int := d.pairTemp (64 + 2 * p)
/-- The value of the coolant pair of a zone. -/
def Dev.coolTemp (d : Dev) (z : Nat) : Option Int := d.pairTemp (2 * z)

/-- Device sensors of zones 8 to 11: first index and number. -/
def zoneDevices (z : Nat) : Nat × Nat :=
  match z with
  | 8 => (384, 4) | 9 => (388, 4) | 10 => (392, 6) | 11 => (398, 10) | _ => (0, 0)

/-- The greatest of a list of readings. -/
def maxTemp : List Int → Option Int
  | [] => none
  | x :: r => some (r.foldl max x)

/-- The values of the Pavilion pairs of a zone that have a member not excluded. -/
def Dev.zonePairs (d : Dev) (z : Nat) : List Int := (List.range 20).filterMap (fun k => d.pavTemp (20 * z + k))

/-- The controlled reading with SRC = 1, in 1/128 °C (R482). -/
def Dev.hotReading (d : Dev) (z : Nat) : Int :=
  if z < 8 then
    match maxTemp (d.zonePairs z) with
    | some t => t
    | none => (d.coolTemp z).getD 0x7FFF
  else
    let (a, k) := zoneDevices z
    (maxTemp ((List.range k).map (fun i => (d.sensor (a + i)).temp))).getD 0x7FFF

/-- The controlled reading y of a zone, in 1/128 °C (R482). -/
def Dev.reading (d : Dev) (z : Nat) : Int :=
  if d.fld (Reg.ORG_ZONE_CFG z) F.ORG_ZONE_CFG_SRC = 0 then (d.coolTemp z).getD (d.hotReading z) else d.hotReading z

/-- The states of a leak loop (R475). -/
inductive LeakSt where
  | dry | wet | fault
  deriving DecidableEq, Repr

/-- A loop's state by its resistance in units of 4 Ω; DRY before its first conversion, as the register reads at reset. -/
def Sensor.leak (x : Sensor) : LeakSt :=
  if !x.seen then .dry else if x.value ≤ 1250 then .wet else if x.value ≤ 5000 then .dry else .fault

/-- Leak loops in a state, one bit each. -/
def Dev.leakBits (d : Dev) (st : LeakSt) : Nat :=
  ((List.range 4).map (fun k => if (d.sensor (31 + k)).leak = st then 2 ^ k else 0)).sum

/-- Hazards latched and trip conditions present (Table 10-12). -/
def Dev.latched (d : Dev) : Nat := d.fld Reg.ORG_HAZ_STATUS F.ORG_HAZ_STATUS_LATCHED
def Dev.hazActive (d : Dev) : Nat := d.fld Reg.ORG_HAZ_STATUS F.ORG_HAZ_STATUS_ACTIVE

/-- Is the heartbeat watchdog active (R56, R661)? -/
def Dev.hbLost (d : Dev) : Bool := d.fld Reg.SUN_HB_STATUS F.SUN_HB_STATUS_HB_LOST == 1
/-- Is full flow requested: after reset, during a hazard, under the heartbeat watchdog and in Lodge (R493)? -/
def Dev.fullFlow (d : Dev) : Bool := d.vdr.resetForce || d.latched != 0 || d.hbLost || d.inLodge

/-- The sum of the grants the 160 governors hold, in 1/16 W. -/
def Dev.grantSum (d : Dev) : Nat := ((List.range 160).map (fun p => (d.pav p).lease)).sum

end Sys2Proof.Machine
end

