-- ==== Sys2Proof/Machine/Valve.lean ====
section
/-! DEFINITION. The valve drive and the Fountain sequencer (chapter 11): channel commands, the sequencer's instructions, its
slots, sharing of switches, protection and forced release. -/

namespace Sys2Proof.Machine

def Dev.chan (d : Dev) (c : Nat) : Chan := Tab.get Chan.reset d.vdr.chans c
def Dev.setChan (d : Dev) (c : Nat) (x : Chan) : Dev := { d with vdr := { d.vdr with chans := Tab.set Chan.reset d.vdr.chans c x } }
def Dev.updChan (d : Dev) (c : Nat) (f : Chan → Chan) : Dev := d.setChan c (f (d.chan c))

/-- Is a channel fitted (R543)? -/
def Dev.fitted (d : Dev) (c : Nat) : Bool := d.fld (Reg.VDR_CH_CFG c) F.VDR_CH_CFG_FITTED == 1
/-- Does a channel belong to the operator? -/
def Dev.operatorOwned (d : Dev) (c : Nat) : Bool := d.fld (Reg.VDR_CH_CFG c) F.VDR_CH_CFG_OWNER == 1
/-- Are channels 14 and 15 paralleled (R540)? -/
def Dev.paired (d : Dev) : Bool := d.fld (Reg.VDR_SW_CFG 7) F.VDR_SW_CFG_PARALLEL == 1
/-- Is channel c the leading channel of a pair? -/
def Dev.leads (d : Dev) (c : Nat) : Bool := d.paired && c == 14

/-- Does any force of R544 last? -/
def Dev.forced (d : Dev) : Bool := d.vdr.resetForce || d.clamp || d.hbLost || d.inLodge || d.vdr.railUv

/-- MAXBOOST: 1 to 8 (Table 11-7). -/
def Dev.maxBoost (d : Dev) : Nat := min 8 (max 1 (d.fld Reg.VDR_CTRL F.VDR_CTRL_MAXBOOST))
/-- A channel's LIMIT in mA, at most 3,500 (Table 11-8). -/
def Dev.chLimit (d : Dev) (c : Nat) : Nat := min 3500 (d.fld (Reg.VDR_CH_CFG c) F.VDR_CH_CFG_LIMIT)
/-- Is a channel in BOOST? -/
def Chan.boosting (x : Chan) : Bool := x.phase == .boost
/-- Channels of the module in BOOST; a pair counts as two channels. -/
def Dev.boostCount (d : Dev) : Nat :=
  (d.vdr.chans.filter (fun e => e.2.boosting)).length + (if d.paired && (d.chan 14).boosting then 1 else 0)

/-! ### Targets (R534) -/

/-- What the program asks for, in mA. -/
def Chan.asked (x : Chan) (now : Nat) : Nat :=
  match x.src with
  | .none => 0
  | .fixed ma => ma
  | .mul m => x.level * m / 64
  | .ramp from_ m us since =>
    let k := min us (now - since)
    let to_ := x.level * m / 64
    if from_ ≤ to_ then from_ + (to_ - from_) * k / us else from_ - (from_ - to_) * k / us

/-- The present target of a channel, of both channels where it leads a pair. -/
def Dev.present (d : Dev) (c : Nat) : Nat := if d.leads c then 2 * (d.chan c).target else (d.chan c).target

/-- What a channel wants: a deferred channel keeps the target it had (R538), any other what its program asks for. -/
def Dev.wanted (d : Dev) (c : Nat) : Nat := if (d.chan c).st = .defer then d.present c else (d.chan c).asked d.clock

/-- The target of one channel and whether the limit lowered it: LIMIT and the phase limit; a pair splits its target. -/
def Dev.limited (d : Dev) (c : Nat) : Nat × Bool :=
  let ph := if (d.chan c).boosting then 3000 else 1000
  let want := if d.leads c then d.wanted c / 2 else d.wanted c
  let lim := min ph (d.chLimit c)
  (min want lim, decide (lim < want))

/-- Does a state keep a channel from power until it is left: TRIPPED, LOCKOUT, OPEN? -/
def ChSt.isDown (st : ChSt) : Bool := st == .tripped || st == .lockout || st == .openLoad
/-- Must channel 15 stay unpowered: not fitted, or TRIPPED, LOCKOUT or OPEN (R540, R541, R542, R543)? -/
def Dev.partnerDown (d : Dev) : Bool := !d.fitted 15 || (d.chan 15).st.isDown

/-- Give a channel its target; a paralleled channel 15 that may be powered follows channel 14 in the same slot (R534, R540). A limit that lowers the target sets
CLAMP when an instruction asked for the target (`fresh`), or when the target changes. -/
def Dev.putTarget (d : Dev) (c : Nat) (fresh : Bool) : Dev :=
  let x := d.chan c
  let (t, cut) := d.limited c
  let event := fresh || t != x.target
  let d := d.setChan c { x with target := t }
  let d := if cut && event then d.raise (Reg.VDR_CH_EVT c 1) else d
  if d.leads c then
    let t15 := if d.partnerDown then 0 else min t (d.chLimit 15)
    let d := if t15 < t ∧ event ∧ !d.partnerDown then d.raise (Reg.VDR_CH_EVT 15 1) else d
    d.updChan 15 (fun y => { y with target := t15 })
  else d

/-- The target after an instruction. -/
def Dev.retarget (d : Dev) (c : Nat) : Dev := d.putTarget c true
/-- The target after a new level, and as a ramp moves it. -/
def Dev.follow (d : Dev) (c : Nat) : Dev := d.putTarget c false

/-! ### States -/

/-- The state in which a channel that loses power stands: TRIPPED, LOCKOUT and OPEN are kept, any other becomes IDLE. -/
def ChSt.off (st : ChSt) : ChSt := if st.isDown then st else .idle
/-- A channel without power and program. -/
def Chan.unpower (x : Chan) (st : ChSt) : Chan :=
  { x with st := st, phase := .none, target := 0, src := .none, wait := none, deferSince := none, boostSince := none, current := 0 }

/-- Leaving DEFER records how long the channel waited (R539). -/
def Dev.leaveDefer (d : Dev) (c : Nat) : Dev :=
  let x := d.chan c
  match x.deferSince with
  | some t => (d.setChan c { x with deferSince := none, st := .run }).setReg (Reg.VDR_CH_LAST_DEFER c) (BitVec.ofNat 32 (d.clock - t))
  | none => d

/-- Unpower a channel into a state; with a pair both channels lose power (R540). -/
def Dev.cutChan (d : Dev) (c : Nat) (st : ChSt) : Dev :=
  let d := if d.paired ∧ c = 15 then d.leaveDefer 14 else d.leaveDefer c
  let d := d.updChan c (fun x => x.unpower st)
  if d.paired ∧ c = 14 then d.updChan 15 (fun x => x.unpower x.st.off)
  else if d.paired ∧ c = 15 then d.updChan 14 (fun x => x.unpower x.st.off)
  else d

/-- A program fault or a BOOST of 50 ms: FAULT (R532, R535). -/
def Dev.faultChan (d : Dev) (c : Nat) : Dev := ((d.cutChan c .fault).raise (Reg.VDR_CH_EVT c 5)).fire 49 c

/-- Force every channel off at once: programs end, level registers become 0, and a TRIPPED, LOCKOUT or OPEN channel keeps
its state (R544, R545). -/
def Dev.forceOff (d : Dev) : Dev :=
  let f := fun (x : Chan) => { x.unpower x.st.off with level := 0, cmd := none, pc := 0 }
  (List.range 16).foldl (fun d c => (d.leaveDefer c).updChan c f) d

/-! ### Commands (R525, R526, R528, R536, R539, R540, R543, R545) -/

/-- Does a channel refuse every command? A pair is one valve: channel 14 refuses while channel 15 must stay unpowered (log 82). -/
def Dev.refuses (d : Dev) (c : Nat) : Bool :=
  d.forced || !d.fitted c || (d.chan c).st.isDown || (c == 15 && d.paired) || (d.leads c && d.partnerDown)

/-- The program table entry of a channel: ENTRY and RELEASE. -/
def Dev.progOf (d : Dev) (c : Nat) : Nat × Nat :=
  let n := d.fld (Reg.VDR_CH_CFG c) F.VDR_CH_CFG_PROG
  (d.fld (Reg.VDR_PROG n) F.VDR_PROG_ENTRY, d.fld (Reg.VDR_PROG n) F.VDR_PROG_RELEASE)

/-- Count a START (R549). -/
def Chan.count (x : Chan) : Chan := { x with cycles := min (2 ^ 32 - 1) (x.cycles + 1) }

/-- Is editing enabled (R536)? -/
def Dev.editing (d : Dev) : Bool := d.fld Reg.VDR_CTRL F.VDR_CTRL_EDIT == 1

/-- START: the level is set and the program restarts from ENTRY, whatever phase it is in. The target stays what it was until the program
sets another (Table 11-3, Table 11-6). -/
def Dev.chStart (d : Dev) (c lvl : Nat) : Dev :=
  if d.refuses c || d.editing then d
  else
    let e := (d.progOf c).1
    let held := d.wanted c
    (d.leaveDefer c).updChan c (fun x =>
      { x.count with level := lvl, st := .run, pc := e, wait := none, src := if x.src = .none then .none else .fixed held })

/-- LEVEL: the level register only; on an IDLE channel a nonzero level is a START. -/
def Dev.chLevel (d : Dev) (c lvl : Nat) : Dev :=
  if d.refuses c || d.editing then d
  else if (d.chan c).st = .idle then (if lvl = 0 then d.updChan c (fun x => { x with level := 0 }) else d.chStart c lvl)
  else (d.updChan c (fun x => { x with level := lvl })).follow c

/-- STOP: the program continues from RELEASE. -/
def Dev.chStop (d : Dev) (c : Nat) : Dev :=
  let st := (d.chan c).st
  if d.refuses c ∨ st = .idle ∨ st = .fault then d
  else
    let d := d.leaveDefer c
    let r := (d.progOf c).2
    d.updChan c (fun x => { x with pc := r, wait := none, st := .run })

/-- Apply a command. -/
def Dev.chApply (d : Dev) (c : Nat) (k : ChCmd) : Dev :=
  match k with
  | .start l => d.chStart c l
  | .level l => d.chLevel c l
  | .stop => d.chStop c

/-- A command waits for its channel's next slot; a START that it overwrites is counted all the same (R528). -/
def Chan.put (x : Chan) (k : ChCmd) : Chan :=
  match x.cmd with
  | some (.start _) => { x.count with cmd := some k }
  | _ => { x with cmd := some k }
def Dev.chPut (d : Dev) (c : Nat) (k : ChCmd) : Dev := d.updChan c (fun x => x.put k)

/-- A command arrives. The time of a START is kept (R527); a command of the Orangery refreshes the command watchdog (R529). -/
def Dev.chSend (d : Dev) (c : Nat) (k : ChCmd) : Dev :=
  let d := d.chPut c k
  let now := d.clock
  let d := match k with | .start _ => d.updChan c (fun x => { x with lastStart := some now }) | _ => d
  if d.operatorOwned c then d else { d with vdr := { d.vdr with lastCmd := some now } }

/-- The command that arrived since the previous slot takes effect (R528). -/
def Dev.takeCmd (d : Dev) (c : Nat) : Dev :=
  match (d.chan c).cmd with
  | some k => (d.updChan c (fun x => { x with cmd := none })).chApply c k
  | none => d

/-- START (R525, R528): it takes effect in the channel's next slot. -/
def execStart (c : Cx) (level : BitVec 12) (s : State) : Host.Outcome State Fault Refusal := onDev s fun d =>
  d.chSend c.val (.start level.toNat)

/-- LEVEL (R525, R526, R528): it takes effect in the channel's next slot. -/
def execLevel (c : Cx) (level : BitVec 12) (s : State) : Host.Outcome State Fault Refusal := onDev s fun d =>
  d.chSend c.val (.level level.toNat)

/-- STOP (R525, R528): it takes effect in the channel's next slot. -/
def execStop (c : Cx) (s : State) : Host.Outcome State Fault Refusal := onDev s fun d => d.chSend c.val .stop

/-! ### Fountain instructions (Table 11-4) -/

/-- May a channel execute an instruction now? -/
def Chan.canRun (x : Chan) : Bool := x.st == .run && x.wait.isNone

/-- Go on at the next address. -/
def Chan.step (x : Chan) : Chan := { x with pc := (x.pc + 1) % 256 }

/-- Must a channel wait before BOOST (R538)? The pair on switch 7 boosts together. -/
def Dev.mustDefer (d : Dev) (c : Nat) : Bool :=
  let own := if d.leads c then 2 else 1
  let others := if (d.chan c).boosting then d.boostCount - own else d.boostCount
  (!d.leads c && (d.chan (c ^^^ 1)).boosting) || decide (d.maxBoost ≤ others)

/-- Enter BOOST; the 50 ms of R535 run on when the channel was in BOOST already. -/
def Dev.enterBoost (d : Dev) (c : Nat) : Dev :=
  let now := d.clock
  (d.updChan c (fun x => { x.step with phase := .boost, boostSince := match x.boostSince with | some t => some t | none => some now })).retarget c

/-- Execute one instruction of a channel: operation, A and B (R531, R532, R538, R539). -/
def Dev.ftn (d : Dev) (c op a b : Nat) : Dev :=
  let x := d.chan c
  if !x.canRun then d
  else
    match op with
    | 0 => if a ≠ 0 ∨ b ≠ 0 then d.faultChan c else d.cutChan c .idle
    | 1 =>
      if b ≠ 0 ∨ a = 0 ∨ 3 < a then d.faultChan c
      else if a = 1 then
        if d.mustDefer c then (d.setChan c { x with st := .defer, deferSince := some d.clock }).raise (Reg.VDR_CH_EVT c 0)
        else d.enterBoost c
      else (d.setChan c { x.step with phase := if a = 2 then .hold else .release, boostSince := none }).retarget c
    | 2 =>
      if a ≠ 0 ∨ 4096 ≤ b then d.faultChan c else (d.setChan c { x.step with src := .fixed b }).retarget c
    | 3 => if b ≠ 0 then d.faultChan c else (d.setChan c { x.step with src := .mul a }).retarget c
    | 4 => if a ≠ 0 ∨ b = 0 then d.faultChan c else d.setChan c { x with wait := some (.time (d.clock + b)) }
    | 5 => if a ≠ 0 ∨ b = 0 then d.faultChan c else d.setChan c { x with wait := some (.current (d.clock + b)) }
    | 6 => if a ≠ 0 ∨ b ≠ 0 then d.faultChan c else d.setChan c { x with wait := some .hold }
    | 7 => if b ≠ 0 ∨ 3 ≤ a then d.faultChan c else d.setChan c { x.step with pwm := a }
    | 8 => if b ≠ 0 then d.faultChan c else d.setChan c { x with pc := a }
    | 9 =>
      if b = 0 then d.faultChan c
      else (d.setChan c { x with src := .ramp (d.present c) a b d.clock, wait := some (.ramp (d.clock + b)) }).retarget c
    | _ => d.faultChan c

/-- Execute a program word. -/
def Dev.ftnWord (d : Dev) (c : Nat) (w : Word32) : Dev := d.ftn c (bitsOf w.toNat 28 4) (bitsOf w.toNat 20 8) (bitsOf w.toNat 0 20)

/-- OFF (R531). -/
def execOff (c : Cx) (w : FtnF) (s : State) : Host.Outcome State Fault Refusal := onDev s fun d => d.ftn c.val 0 w.a.toNat w.b.toNat
/-- PHASE (R531, R538, R539). -/
def execPhase (c : Cx) (w : FtnF) (s : State) : Host.Outcome State Fault Refusal := onDev s fun d => d.ftn c.val 1 w.a.toNat w.b.toNat
/-- SETI (R531, R534). -/
def execSeti (c : Cx) (w : FtnF) (s : State) : Host.Outcome State Fault Refusal := onDev s fun d => d.ftn c.val 2 w.a.toNat w.b.toNat
/-- SETL (R531, R534). -/
def execSetl (c : Cx) (w : FtnF) (s : State) : Host.Outcome State Fault Refusal := onDev s fun d => d.ftn c.val 3 w.a.toNat w.b.toNat
/-- WAIT (R531). -/
def execWait (c : Cx) (w : FtnF) (s : State) : Host.Outcome State Fault Refusal := onDev s fun d => d.ftn c.val 4 w.a.toNat w.b.toNat
/-- WAITI (R531). -/
def execWaiti (c : Cx) (w : FtnF) (s : State) : Host.Outcome State Fault Refusal := onDev s fun d => d.ftn c.val 5 w.a.toNat w.b.toNat
/-- HOLDW (R531). -/
def execHoldw (c : Cx) (w : FtnF) (s : State) : Host.Outcome State Fault Refusal := onDev s fun d => d.ftn c.val 6 w.a.toNat w.b.toNat
/-- PWM (R531). -/
def execPwm (c : Cx) (w : FtnF) (s : State) : Host.Outcome State Fault Refusal := onDev s fun d => d.ftn c.val 7 w.a.toNat w.b.toNat
/-- JMP (R531). -/
def execFountainJmp (c : Cx) (w : FtnF) (s : State) : Host.Outcome State Fault Refusal := onDev s fun d => d.ftn c.val 8 w.a.toNat w.b.toNat
/-- RAMPL (R531, R534). -/
def execRampl (c : Cx) (w : FtnF) (s : State) : Host.Outcome State Fault Refusal := onDev s fun d => d.ftn c.val 9 w.a.toNat w.b.toNat

/-- WAIT_END (R531): the time of a WAIT has passed. -/
def execWaitEnd (c : Cx) (s : State) : Host.Outcome State Fault Refusal := onDev s fun d =>
  match (d.chan c.val).wait with
  | some (.time _) => d.updChan c.val (fun x => { x.step with wait := none })
  | _ => d

/-- Is a measured current within 1/16 of the target (Table 11-4)? -/
def Chan.near (x : Chan) (i : Nat) : Bool := decide (16 * (max i x.target - min i x.target) ≤ x.target)

/-- WAITI_END (R531): a current is measured. The wait ends when it is within 1/16 of the target, or at the timeout; a timeout is no fault. -/
def execWaitiEnd (c : Cx) (current : BitVec 12) (s : State) : Host.Outcome State Fault Refusal := onDev s fun d =>
  let x := d.chan c.val
  let i := current.toNat
  match x.wait with
  | some (.current t) =>
    if x.near i ∨ t ≤ d.clock then d.setChan c.val { x.step with wait := none, current := i } else d.setChan c.val { x with current := i }
  | _ => d

/-- The measured current of VDR_CH_MEAS (R533, log 83): within 3% and 20 mA of the target while a channel holds, a free value of the coil there;
otherwise the latest measurement, 0 without power. -/
def Dev.measured (d : Dev) (c : Nat) : Nat :=
  let x := d.chan c
  let off := x.target * 3 / 100 + 20
  if x.wait = some .hold ∨ (x.st = .defer ∧ x.phase ≠ .none) then
    (x.target - off) + Config.coilCurrent c d.clock % (x.target + off - (x.target - off) + 1)
  else x.current

/-- The end of a ramp: the target follows the level. -/
def Dev.rampEnd (d : Dev) (c : Nat) : Dev :=
  match (d.chan c).src with
  | .ramp _ m _ _ => (d.updChan c (fun x => { x.step with wait := none, src := .mul m })).follow c
  | _ => d

/-- RAMPL_END (R531). -/
def execRamplEnd (c : Cx) (s : State) : Host.Outcome State Fault Refusal := onDev s fun d =>
  match (d.chan c.val).wait with
  | some (.ramp _) => d.rampEnd c.val
  | _ => d

/-- A deferred channel enters BOOST in the first slot in which nothing makes it wait (R538, R539). -/
def Dev.deferEnd (d : Dev) (c : Nat) : Dev :=
  if (d.chan c).st = .defer ∧ !d.mustDefer c then (d.leaveDefer c).enterBoost c else d

/-- BOOST_DEFER_END (R538, R539). -/
def execBoostDeferEnd (c : Cx) (s : State) : Host.Outcome State Fault Refusal := onDev s fun d => d.deferEnd c.val

/-- What a slot does after the command: at most one instruction; a wait that ends takes the slot. A WAITI ends here at its timeout; the
current that ends it comes with WAITI_END (log 33). -/
def Dev.runSlot (d : Dev) (c : Nat) : Dev :=
  let x := d.chan c
  let d := match x.src with | .ramp _ _ _ _ => d.follow c | _ => d
  if x.st = .defer then d.deferEnd c
  else if x.st ≠ .run then d
  else
    match x.wait with
    | none => d.ftnWord c (d.reg (Reg.VDR_PSTORE x.pc))
    | some (.time t) => if t ≤ d.clock then d.updChan c (fun x => { x.step with wait := none }) else d
    | some (.current t) => if t ≤ d.clock then d.updChan c (fun x => { x.step with wait := none }) else d
    | some (.ramp t) => if t ≤ d.clock then d.rampEnd c else d
    | some .hold => d

/-- One slot of a channel (R528): the command that arrived, then at most one instruction. -/
def Dev.slot (d : Dev) (c : Nat) : Dev := (d.takeCmd c).runSlot c

/-- The sixteen slots of a microsecond, channel 0 first (R528): part of the tick. A BOOST of 50 ms ends in FAULT (R535). -/
def Dev.fountain (d : Dev) : Dev :=
  (List.range 16).foldl (fun d c =>
    match (d.chan c).boostSince with
    | some t => if t + 50000 ≤ d.clock then d.faultChan c else d.slot c
    | none => d.slot c) d

/-! ### Protection (R535, R541, R542) -/

/-- BOOST_TIMEOUT (R535). -/
def execBoostTimeout (c : Cx) (s : State) : Host.Outcome State Fault Refusal := onDev s fun d =>
  if (d.chan c.val).boosting then d.faultChan c.val else d

/-- CHANNEL_TRIP (R541): 4.5 A, or above LIMIT for 20 µs; a second trip within 10 s of the first is a LOCKOUT. -/
def execChannelTrip (c : Cx) (current : BitVec 16) (s : State) : Host.Outcome State Fault Refusal := onDev s fun d =>
  let c := c.val
  let x := d.chan c
  if current.toNat < 4500 ∧ current.toNat ≤ d.chLimit c ∨ !d.fitted c then d
  else
    let again := match x.tripAt with | some t => decide (d.clock ≤ t + 10000000) | none => false
    let d := (d.cutChan c (if again then .lockout else .tripped)).raise (Reg.VDR_CH_EVT c 2)
    let now := d.clock
    (d.updChan c (fun x => { x with tripAt := some now })).fire (if again then 49 else 48) c

/-- TRIP_RECOVERY (R541): 100 ms after a trip. -/
def execTripRecovery (c : Cx) (s : State) : Host.Outcome State Fault Refusal := onDev s fun d =>
  if (d.chan c.val).st = .tripped then d.updChan c.val (fun x => { x with st := .idle }) else d

/-- An open load is detected (R542). -/
def Dev.openChan (d : Dev) (c : Nat) : Dev :=
  (((d.cutChan c .openLoad).updChan c (fun x => { x with offPass := 0 })).raise (Reg.VDR_CH_EVT c 3)).fire 49 c

/-- OPEN_LOAD (R542): the on-state detection, for a fitted channel with a target of at least 200 mA. -/
def execOpenLoad (c : Cx) (s : State) : Host.Outcome State Fault Refusal := onDev s fun d =>
  if d.fitted c.val ∧ 200 ≤ (d.chan c.val).target then d.openChan c.val else d

/-- OFF_STATE_TEST (R542, R543): an IDLE channel that fails becomes OPEN; an OPEN one returns after three passes in a row. -/
def execOffStateTest (c : Cx) (passed : Bool) (s : State) : Host.Outcome State Fault Refusal := onDev s fun d =>
  let x := d.chan c.val
  if !d.fitted c.val then d
  else if x.st = .idle then (if passed then d else d.openChan c.val)
  else if x.st = .openLoad then
    if passed then
      d.setChan c.val { x with offPass := (if x.offPass = 2 then 0 else x.offPass + 1), st := if x.offPass = 2 then .idle else .openLoad }
    else d.setChan c.val { x with offPass := 0 }
  else d

/-- CHANNEL_RESET (R541, R542): a LOCKOUT or OPEN channel returns to IDLE. -/
def execChannelReset (c : Cx) (s : State) : Host.Outcome State Fault Refusal := onDev s fun d =>
  let x := d.chan c.val
  if x.st = .lockout ∨ x.st = .openLoad then d.setChan c.val { x with st := .idle, offPass := 0 } else d

/-- RAIL_UNDERVOLTAGE (R523, R544): below 10.0 V for 100 µs. -/
def execRailUndervoltage (mv : BitVec 16) (s : State) : Host.Outcome State Fault Refusal := onDev s fun d =>
  let d := { d with vdr := { d.vdr with railMv := mv.toNat } }
  if mv.toNat < 10000 then
    ((({ d with vdr := { d.vdr with railUv := true } }).forceOff).raise Reg.VDR_RAIL_EVT).fire 51 mv.toNat
  else d

/-- RAIL_RECOVERY (R523, R545): above 10.8 V for 10 ms. -/
def execRailRecovery (mv : BitVec 16) (s : State) : Host.Outcome State Fault Refusal := onDev s fun d =>
  let d := { d with vdr := { d.vdr with railMv := mv.toNat } }
  if 10800 < mv.toNat then { d with vdr := { d.vdr with railUv := false } } else d

/-- EDIT: a write of VDR_CTRL (R536, Table 11-7): a 1 in EDIT is ignored unless every channel is IDLE; MAXBOOST is locked
by LOCK. -/
def execEdit (v : Word32) (s : State) : Host.Outcome State Fault Refusal := onDev s fun d =>
  let idle := (List.range 16).all (fun c => (d.chan c).st == .idle)
  let lock := d.fld Reg.VDR_CTRL F.VDR_CTRL_LOCK = 1
  let edit := F.VDR_CTRL_EDIT.get v
  let d := if edit = 1 ∧ !idle then d else d.setFld Reg.VDR_CTRL F.VDR_CTRL_EDIT edit
  let d := if lock then d else d.setFld Reg.VDR_CTRL F.VDR_CTRL_MAXBOOST (F.VDR_CTRL_MAXBOOST.get v)
  if F.VDR_CTRL_LOCK.get v = 1 then d.setFld Reg.VDR_CTRL F.VDR_CTRL_LOCK 1 else d

/-- Put the START counts into flash (R549). -/
def Dev.saveCycles (d : Dev) : Dev :=
  (List.range 16).foldl (fun d c => d.updChan c (fun x => { x with saved := x.cycles })) d

/-- CYCLES_SAVE (R549). -/
def execCyclesSave (s : State) : Host.Outcome State Fault Refusal := onDev s Dev.saveCycles

end Sys2Proof.Machine
end

