-- ==== Sys2Proof/Machine/Bus.lean ====
section
/-! DEFINITION. The thermal bus (chapter 12): the two CAN controllers, mailboxes, filters and receive FIFO, the message
catalogue, and the reference-message time service. Mailbox contents and states, and the error counters, stand in their
registers. -/

namespace Sys2Proof.Machine

/-- The number of a controller. -/
def tbIx (t : Tb) : Nat := match t with | .tb0 => 0 | .tb1 => 1

def Dev.can (d : Dev) (t : Nat) : Can := Tab.get Can.reset d.cans t
def Dev.updCan (d : Dev) (t : Nat) (f : Can → Can) : Dev := { d with cans := Tab.upd Can.reset d.cans t f }

/-! ### Controllers (R551 to R556, R566 to R569) -/

/-- A nominal bit in kernel clocks (R553). -/
def Dev.nomBit (d : Dev) (t : Nat) : Nat :=
  let n := Reg.TBC_NBT t
  (3 + d.fld n F.TBC_NBT_NTSEG1 + d.fld n F.TBC_NBT_NTSEG2) * (d.fld n F.TBC_NBT_NBRP + 1)
/-- Begin the wait for 11 recessive bits (R552, R556). -/
def Dev.busWait (d : Dev) (t : Nat) : Dev :=
  let us := (11 * d.nomBit t + 79) / 80
  d.updCan t (fun c => { c with quiet := us })
/-- A microsecond of recessive bits passes on both buses. -/
def Dev.busQuiet (d : Dev) : Dev :=
  (d.updCan 0 (fun c => { c with quiet := c.quiet - 1 })).updCan 1 (fun c => { c with quiet := c.quiet - 1 })

/-- Does the bit timing leave the controller unable to enable: a rate above 1 or 8 Mbit/s at 80 MHz, or an SJW above its
TSEG2 (R554)? -/
def Dev.cfgErr (d : Dev) (t : Nat) : Bool :=
  let n := Reg.TBC_NBT t
  let b := Reg.TBC_DBT t
  let nbit := d.nomBit t
  let dbit := (3 + d.fld b F.TBC_DBT_DTSEG1 + d.fld b F.TBC_DBT_DTSEG2) * (d.fld b F.TBC_DBT_DBRP + 1)
  decide (nbit < 80) || decide (dbit < 10) || decide (d.fld n F.TBC_NBT_NTSEG2 < d.fld n F.TBC_NBT_NSJW) ||
    decide (d.fld b F.TBC_DBT_DTSEG2 < d.fld b F.TBC_DBT_DSJW)

/-- Does the controller take part in its bus? -/
def Dev.busOn (d : Dev) (t : Nat) : Bool := !d.clk.dead.contains 4 && d.fld (Reg.TBC_CTRL t) F.TBC_CTRL_EN == 1 && !d.cfgErr t && !(t == 1 && d.isGated 18)
/-- Is the controller bus-off? -/
def Dev.busOff (d : Dev) (t : Nat) : Bool := d.fld (Reg.TBC_ERR t) F.TBC_ERR_STATE == 2
/-- Is the controller in normal mode? -/
def Dev.busNormal (d : Dev) (t : Nat) : Bool := d.fld (Reg.TBC_CTRL t) F.TBC_CTRL_MODE == 0
/-- May the controller drive the bus (R567, R569)? -/
def Dev.busTx (d : Dev) (t : Nat) : Bool := d.busOn t && d.busNormal t && !d.busOff t

/-- Does the controller receive from its bus (R566, R569)? -/
def Dev.busHears (d : Dev) (t : Nat) : Bool := d.busOn t && !d.busOff t

/-! ### Mailboxes (R557 to R562) -/

/-- Mailbox states (Table 12-6). -/
def mbEmpty : Nat := 0
def mbPending : Nat := 1
def mbOnBus : Nat := 2
def mbSent : Nat := 3
def mbCancelled : Nat := 4
def mbLost : Nat := 5
def mbError : Nat := 6
def mbHeld : Nat := 7
def mbRefused : Nat := 8

def Dev.mbSt (d : Dev) (t m : Nat) : Nat := d.fld (Reg.TBC_MB_CTRL t m) F.TBC_MB_CTRL_STATE
def Dev.setMbSt (d : Dev) (t m st : Nat) : Dev := d.setFld (Reg.TBC_MB_CTRL t m) F.TBC_MB_CTRL_STATE st
def Dev.setCancel (d : Dev) (t m r : Nat) : Dev := d.setFld (Reg.TBC_MB_CTRL t m) F.TBC_MB_CTRL_CANCEL_RESULT r
def Dev.oneshot (d : Dev) (t m : Nat) : Bool := d.fld (Reg.TBC_MB_CTRL t m) F.TBC_MB_CTRL_ONESHOT == 1

/-- The state a frame that waits takes: PENDING, or HELD while bus-off or listen-only (R567, R569). -/
def Dev.waitSt (d : Dev) (t : Nat) : Nat := if d.busOff t || !d.busNormal t then mbHeld else mbPending
/-- Is a frame of a mailbox waiting? -/
def Dev.mbWaits (d : Dev) (t m : Nat) : Bool := d.mbSt t m == mbPending || d.mbSt t m == mbHeld

/-- The number of data bytes of a data length code; a classical frame has at most 8 (ISO 11898-1). -/
def canLen (fdf : Bool) (dlc : Nat) : Nat :=
  if !fdf then min 8 dlc
  else match dlc with | 9 => 12 | 10 => 16 | 11 => 20 | 12 => 24 | 13 => 32 | 14 => 48 | 15 => 64 | n => n

/-- The frame a mailbox holds (R555, Table 12-6): FDF counts while FD_EN is 1, BRS while BRS_EN is 1 and the always-on island
does not run on its internal oscillator. -/
def Dev.mbFrame (d : Dev) (t m : Nat) : CanFrame :=
  let fl := Reg.TBC_MB_FLAGS t m
  let ide := d.fld fl F.TBC_MB_FLAGS_IDE == 1
  let fdf := d.fld fl F.TBC_MB_FLAGS_FDF == 1 && d.fld (Reg.TBC_CTRL t) F.TBC_CTRL_FD_EN == 1
  let brs := fdf && d.fld fl F.TBC_MB_FLAGS_BRS == 1 && d.fld (Reg.TBC_CTRL t) F.TBC_CTRL_BRS_EN == 1 && !d.onFallback 4
  let dlc := d.fld fl F.TBC_MB_FLAGS_DLC
  let id := d.fld (Reg.TBC_MB_ID t m) F.TBC_MB_ID_ID
  let data := ((List.range 16).map (fun i => leBytes 4 (d.reg (Reg.TBC_MB_DATA t m i)).toNat)).flatten
  { ide := ide, fdf := fdf, brs := brs, rtr := false, esi := fdf && d.fld (Reg.TBC_ERR t) F.TBC_ERR_STATE == 1, res := false,
    id := BitVec.ofNat 29 (if ide then id else id % 2048), dlc := BitVec.ofNat 4 dlc, data := data.take (canLen fdf dlc) }

/-- The bits by which a frame arbitrates, most significant first, as the bus compares them (R558): base identifier, then
an extended frame after a base frame, then the extension. -/
def Dev.arbKey (d : Dev) (t m : Nat) : Nat :=
  let id := d.fld (Reg.TBC_MB_ID t m) F.TBC_MB_ID_ID
  if d.fld (Reg.TBC_MB_FLAGS t m) F.TBC_MB_FLAGS_IDE = 1 then id / 2 ^ 18 * 2 ^ 19 + 2 ^ 18 + id % 2 ^ 18
  else id % 2048 * 2 ^ 19

/-- May a mailbox enter arbitration: mailboxes 4 to 15 send nothing without an active core (R573)? -/
def Dev.mbReady (d : Dev) (t m : Nat) : Bool :=
  d.mbSt t m == mbPending && (d.activeCore.isSome || decide (m < 4) || decide (16 ≤ m))

/-- The mailbox that enters arbitration next (R558). -/
def Dev.mbNext (d : Dev) (t : Nat) : Option Nat :=
  (List.range 64).foldl (fun best m =>
    if !d.mbReady t m then best
    else match best with
      | some b => if d.arbKey t m < d.arbKey t b then some m else some b
      | none => some m) none

/-- The local counter of the time service: 80 MHz (chapter 12). -/
def Dev.local80 (d : Dev) : Nat := 80 * d.clock

/-- Is this module the time master (R574)? -/
def Dev.timeMaster (d : Dev) : Bool := d.fld Reg.TBC_TIME_CFG F.TBC_TIME_CFG_MASTER == 1
/-- The bus that network time comes from. -/
def Dev.timeSrc (d : Dev) : Nat := d.fld Reg.TBC_TIME_CFG F.TBC_TIME_CFG_SRC

/-- The time line at a local count, in whole µs: the line of R575 and what is left of the difference that is slewed at 1,000 ×
10^−6 (R576). -/
def TimeLine.at (x : TimeLine) (l : Nat) : Nat :=
  let left : Int := max 0 (((x.slew.natAbs * 80000 : Nat) : Int) - ((l - x.slewAt : Nat) : Int))
  let res : Int := if x.slew < 0 then -left else left
  let num : Int := ((x.t * 80000 * x.den + (l - x.l) * x.num * 1000 : Nat) : Int) + res * x.den
  (num / ((80000 * x.den : Nat) : Int)).toNat

/-- Network time at a local count: the master's own, also before TIME_SET, or the line in force, or the value last loaded before any. -/
def Dev.ntAt (d : Dev) (l : Nat) : Nat :=
  let x := d.time
  if d.timeMaster then (((x.setNt : Int) + ((l : Int) - (x.setAt : Int)) / 80) % 2 ^ 48).toNat
  else (match x.line with
    | some y => y.at l
    | none => x.setNt) % 2 ^ 48

/-- Network time now. -/
def Dev.nt (d : Dev) : Nat := d.ntAt d.local80
/-- The content of a TIME_REF: network time at a sync mark, CYCLE, MODULE_MASTER (Table 12-3). -/
def refBytes (nt : Nat) (c : Byte) : Bytes := leBytes 6 nt ++ [c] ++ leBytes 1 1
/-- Put up to 8 data bytes into a mailbox. -/
def Dev.mbData (d : Dev) (t m : Nat) (data : Bytes) : Dev :=
  (d.setReg (Reg.TBC_MB_DATA t m 0) (BitVec.ofNat 32 (leNat (data.take 4)))).setReg (Reg.TBC_MB_DATA t m 1)
    (BitVec.ofNat 32 (leNat ((data.drop 4).take 4)))
/-- A TIME_REF takes its sync mark at its start of frame and carries network time at the mark of the TIME_REF sent before (R574). -/
def Dev.refStart (d : Dev) (t : Nat) : Dev :=
  let d := match d.time.sentAt with
    | some l => d.mbData t 3 (refBytes (d.ntAt l) d.time.cycle)
    | none => d
  let l := d.local80
  { d with time := { d.time with sofAt := some l } }

/-- The start of frame of the next attempt, when the bus is idle and 11 recessive bits have passed (R556). -/
def Dev.busStart (d : Dev) (t : Nat) : Dev :=
  if !d.busTx t || (d.can t).onBus.isSome || (d.can t).quiet != 0 then d
  else
    match d.mbNext t with
    | none => d
    | some m =>
      let d := if m = 3 then d.refStart t else d
      let f := d.mbFrame t m
      (d.setMbSt t m mbOnBus).updCan t (fun c => { c with onBus := some (m, f) })

/-- Bring the waiting frames of a controller to PENDING or HELD after a change of mode or error state. -/
def Dev.busHold (d : Dev) (t : Nat) : Dev :=
  let st := d.waitSt t
  (List.range 64).foldl (fun d m => if d.mbWaits t m then d.setMbSt t m st else d) d

/-- REQ (R557, R558, R561): a write of REQ to a mailbox. -/
def execReq (t : Tb) (m : Fin 64) (s : State) : Host.Outcome State Fault Refusal := onDev s fun d =>
  let t := tbIx t
  let m := m.val
  if t = 1 ∧ d.isGated 18 then d else
  let id := d.fld (Reg.TBC_MB_ID t m) F.TBC_MB_ID_ID
  let base := if d.fld (Reg.TBC_MB_FLAGS t m) F.TBC_MB_FLAGS_IDE = 1 then id / 2 ^ 18 else id % 2048
  if m ≤ 15 then d.setCancel t m 3
  else if base < 0x340 then d.setMbSt t m mbRefused
  else if d.mbSt t m = mbOnBus then d.updCan t (fun c => { c with again := if m ∈ c.again then c.again else c.again ++ [m] })
  else d.setMbSt t m (d.waitSt t)

/-- CANCEL (R557, R562). -/
def execCancel (t : Tb) (m : Fin 64) (s : State) : Host.Outcome State Fault Refusal := onDev s fun d =>
  let t := tbIx t
  let m := m.val
  if t = 1 ∧ d.isGated 18 then d
  else if m ≤ 15 then d.setCancel t m 3
  else if d.mbWaits t m then (d.setMbSt t m mbCancelled).setCancel t m 1
  else if d.mbSt t m = mbOnBus then (d.setCancel t m 2).raise (Reg.TBC_EVT t 4)
  else d

/-! ### The end of an attempt, errors and bus-off (R560, R566, R567) -/

/-- The frame on the bus has ended: the mailbox takes a state, or waits again with its latest content (R559). -/
def Dev.busEnd (d : Dev) (t m st : Nat) : Dev :=
  let st := if m ∈ (d.can t).again then d.waitSt t else st
  (d.setMbSt t m st).updCan t (fun c => { c with onBus := none, again := c.again.filter (· != m) })

/-- A controller that may no longer drive its bus gives up the frame on it, which waits again (R567, R569, log 35). -/
def Dev.busRelease (d : Dev) (t : Nat) : Dev :=
  match (d.can t).onBus with
  | some (m, _) => if d.busTx t then d else d.busEnd t m (d.waitSt t)
  | none => d

/-- Go bus-off: every frame waits with STATE HELD; with AUTO_RECOVER, recovery starts at once (R567). -/
def Dev.goBusOff (d : Dev) (t : Nat) : Dev :=
  let d := (d.setFld (Reg.TBC_ERR t) F.TBC_ERR_STATE 2).setFld (Reg.TBC_ERR t) F.TBC_ERR_TEC 255
  let d := match (d.can t).onBus with
    | some (m, _) => d.busEnd t m (if d.oneshot t m then mbError else mbHeld)
    | none => d
  let auto := d.fld (Reg.TBC_CTRL t) F.TBC_CTRL_AUTO_RECOVER == 1
  (((d.busHold t).updCan t (fun c => { c with recovering := auto })).raise (Reg.TBC_EVT t 1)).fire 52 t

/-- Set the error counters; error-passive above 127, bus-off from a transmit count of 256 (ISO 11898-1, R566). -/
def Dev.setErr (d : Dev) (t tec rec : Nat) : Dev :=
  if 256 ≤ tec then d.goBusOff t
  else
    let r := Reg.TBC_ERR t
    let st := if 127 < tec ∨ 127 < rec then 1 else 0
    let d := if st = 1 ∧ d.fld r F.TBC_ERR_STATE = 0 then d.raise (Reg.TBC_EVT t 0) else d
    ((d.setFld r F.TBC_ERR_STATE st).setFld r F.TBC_ERR_TEC tec).setFld r F.TBC_ERR_REC (min 255 rec)

/-- An error flag leaves, active or passive by the controller's error state (R551). -/
def Dev.errFlag (d : Dev) (t : Nat) : Dev := d.emit (.canError t (d.fld (Reg.TBC_ERR t) F.TBC_ERR_STATE == 0))

/-- How an attempt ended: the mailbox's state and the counters. An error-passive transmitter does not count a missing
acknowledgement (ISO 11898-1). A sent TIME_REF raises CYCLE (R574). -/
def Dev.txEnd (d : Dev) (t m : Nat) (f : CanFrame) (r : TxResult) : Dev :=
  let e := Reg.TBC_ERR t
  let tec := d.fld e F.TBC_ERR_TEC
  let rec_ := d.fld e F.TBC_ERR_REC
  match r with
  | .sent =>
    let d := if m = 3 then { d with time := { d.time with cycle := d.time.cycle + 1, sentAt := d.time.sofAt, sofAt := none } } else d
    ((d.emit (.can t f)).busEnd t m mbSent).setErr t (tec - 1) rec_
  | .lostArbitration => d.busEnd t m (if d.oneshot t m then mbLost else d.waitSt t)
  | .error lec =>
    let d := (d.errFlag t).setFld e F.TBC_ERR_LEC lec.toNat
    let tec := if lec = 3 ∧ d.fld e F.TBC_ERR_STATE = 1 then tec else tec + 8
    (d.busEnd t m (if d.oneshot t m then mbError else d.waitSt t)).setErr t tec rec_

/-- CAN_TRANSMIT_END (R558 to R560, R566): the attempt of the frame on the bus ends; the next is chosen in the next tick. When no start of
frame has been sent, it is the attempt that the choice of R558 makes. -/
def execCanTransmitEnd (t : Tb) (r : TxResult) (s : State) : Host.Outcome State Fault Refusal := onDev s fun d =>
  let t := tbIx t
  let d := d.busStart t
  match (d.can t).onBus with
  | none => d
  | some (m, f) => d.txEnd t m f r

/-- BUS_OFF (R567). -/
def execBusOff (t : Tb) (s : State) : Host.Outcome State Fault Refusal := onDev s fun d =>
  if d.busTx (tbIx t) then d.goBusOff (tbIx t) else d

/-- RECOVER (R567): a write of 1. -/
def execRecover (t : Tb) (s : State) : Host.Outcome State Fault Refusal := onDev s fun d =>
  if d.busOff (tbIx t) ∧ ¬ (tbIx t = 1 ∧ d.isGated 18) then d.updCan (tbIx t) (fun c => { c with recovering := true }) else d

/-- BUS_OFF_RECOVERY_END (R567): 128 sequences of 11 recessive bits. -/
def execBusOffRecoveryEnd (t : Tb) (s : State) : Host.Outcome State Fault Refusal := onDev s fun d =>
  let t := tbIx t
  if d.busOff t && (d.can t).recovering then
    let r := Reg.TBC_ERR t
    let d := ((d.setFld r F.TBC_ERR_STATE 0).setFld r F.TBC_ERR_TEC 0).setFld r F.TBC_ERR_REC 0
    (d.updCan t (fun c => { c with recovering := false })).busHold t
  else d

/-! ### Reception (R552, R563, R564, R568) -/

/-- This module's N (R570). -/
def Dev.slotN (d : Dev) : Nat := d.fld Reg.TBC_NODE F.TBC_NODE_SLOT
/-- The codes of the messages that modules send (Table 12-3), TIME_REF apart. -/
def moduleCodes : List Nat := [0x00, 0x01, 0x02, 0x05, 0x07, 0x08, 0x09, 0x0C]

/-- The acceptance of filters 0 to 31: identifiers of base frames, all bits compared. Filter 0 takes TIME_REF, 1 ISOLATE, 2
LOOP_CAPACITY, 3 and 4 the heartbeats, and 5 to 12 the module messages that carry this module's own N (R563, R568). -/
def Dev.catFilters (d : Dev) : List Nat :=
  [0x0C0, 0x100 + d.slotN, 0x180 + d.slotN, 0x280, 0x2C0] ++ moduleCodes.map (fun c => 64 * c + d.slotN)

/-- Does an enabled filter take a frame (R563)? -/
def Dev.filterTakes (d : Dev) (t f : Nat) (fr : CanFrame) : Bool :=
  if f ≤ 31 then
    match d.catFilters[f]? with
    | some id => !fr.ide && fr.id.toNat == id
    | none => false
  else
    let w := Reg.TBC_FILT_ID t f
    let x := (fr.id.toNat ^^^ d.fld w F.TBC_FILT_ID_ID) &&& d.fld (Reg.TBC_FILT_MASK t f) F.TBC_FILT_MASK_MASK
    d.fld w F.TBC_FILT_ID_EN == 1 && (d.fld w F.TBC_FILT_ID_IDE == 1) == fr.ide && x == 0

/-- The first filter that takes a frame. -/
def Dev.filterOf (d : Dev) (t : Nat) (fr : CanFrame) : Option Nat := (List.range 128).find? (fun f => d.filterTakes t f fr)

/-- Does a frame of another node carry a module code with this module's slot (R568)? -/
def Dev.dupNode (d : Dev) (fr : CanFrame) : Bool :=
  !fr.ide && !fr.rtr && !fr.fdf && moduleCodes.contains (fr.id.toNat / 64) && fr.id.toNat % 64 == d.slotN

/-- A frame received without error lowers the receive error counter (ISO 11898-1); a listen-only controller counts nothing. -/
def Dev.rxGood (d : Dev) (t : Nat) : Dev :=
  let e := Reg.TBC_ERR t
  let r := d.fld e F.TBC_ERR_REC
  if d.busNormal t ∧ 0 < r then d.setErr t (d.fld e F.TBC_ERR_TEC) (if 127 < r then 127 else r - 1) else d

/-- A receiver detects an error: an error flag, the last-error code and the receive error counter (R566, ISO 11898-1). A listen-only
controller does none of it (R569). -/
def Dev.rxError (d : Dev) (t lec n : Nat) : Dev :=
  let e := Reg.TBC_ERR t
  if d.busNormal t then ((d.errFlag t).setFld e F.TBC_ERR_LEC lec).setErr t (d.fld e F.TBC_ERR_TEC) (d.fld e F.TBC_ERR_REC + n) else d

/-- RX_POP (Table 12-5): the head frame of the FIFO is discarded. -/
def execRxPop (t : Tb) (s : State) : Host.Outcome State Fault Refusal := onDev s fun d =>
  if tbIx t = 1 ∧ d.isGated 18 then d else d.updCan (tbIx t) (fun c => { c with fifo := c.fifo.drop 1 })

/-! ### Network time (R574 to R577) -/

/-- NT32, sent as 0 while network time is not valid (R570). -/
def Dev.nt32 (d : Dev) : Nat := if d.time.valid then d.nt % 2 ^ 32 else 0

/-- The rate of two successive pairs, limited to 1 ± 500 × 10^−6; none when the marks do not rise (R575). -/
def rateOf (ta la tb lb : Nat) : Option (Nat × Nat) :=
  if lb ≤ la then none
  else
    let num := (tb - ta) * 80
    let den := lb - la
    if den * 2001 < num * 2000 then some (2001, 2000)
    else if num * 2000 < den * 1999 then some (1999, 2000)
    else some (num, den)

/-- A new pair (R575 to R577). -/
def Dev.timePair (d : Dev) (t l : Nat) : Dev :=
  let x := d.time
  let at_ := d.clock
  let d := { d with time := { x with pair := some (t, l), pairAt := some at_ } }
  match x.pair with
  | none => d
  | some (ta, la) =>
    match rateOf ta la t l with
    | none => d
    | some (num, den) =>
      let now := d.local80
      let y : TimeLine := { t := t, l := l, num := num, den := den, slew := 0, slewAt := now }
      let old := d.ntAt now
      let diff : Int := (old : Int) - (y.at now : Int)
      let set := fun (d : Dev) (y : TimeLine) => { d with time := { d.time with line := some y, valid := true } }
      match x.line with
      | none => set d y
      | some _ =>
        if diff.natAbs ≤ 100 then set d { y with slew := diff }
        else ((set d y).raise (Reg.TBC_TIME_EVT 1)).fire 54 1

/-- A TIME_REF arrives with its NT48 and CYCLE; the sync mark is this module's local count at its start of frame (R574 to R577). -/
def Dev.refIn (d : Dev) (t nt : Nat) (cycle : Byte) (ago : Nat) : Dev :=
  if d.timeMaster || t != d.timeSrc || !d.busHears t then d
  else
    let prev := d.time.last
    let mark := d.local80 - ago
    let d := { d with time := { d.time with last := some (cycle, mark) } }
    match prev with
    | some (c, l) => if c + 1 = cycle then d.timePair nt l else d
    | none => d

/-- TIME_REF (R574 to R577): received with its NT48 and CYCLE, and the counts since its start of frame. -/
def execTimeRef (t : Tb) (nt : BitVec 48) (cycle : BitVec 8) (ago : BitVec 32) (s : State) : Host.Outcome State Fault Refusal :=
  onDev s fun d => d.refIn (tbIx t) nt.toNat cycle ago.toNat

/-- TIMEOUT of R577 in µs; 0 is taken as 1. -/
def Dev.refTimeout (d : Dev) : Nat := 100000 * max 1 (d.fld Reg.TBC_TIME_CFG F.TBC_TIME_CFG_TIMEOUT)
/-- Network time becomes invalid when no pair has been formed for TIMEOUT; the line runs on at its last rate (R577). -/
def Dev.refLost (d : Dev) : Dev :=
  let late := match d.time.pairAt with | some t => decide (t + d.refTimeout ≤ d.clock) | none => true
  if d.time.valid && late then (({ d with time := { d.time with valid := false } }).raise (Reg.TBC_TIME_EVT 0)).fire 54 0 else d

/-- REF_LOST (R577). -/
def execRefLost (s : State) : Host.Outcome State Fault Refusal := onDev s Dev.refLost

/-- TIME_SET_LO (R574, Table 12-8): NT is loaded with TIME_SET_HI as latched. -/
def execTimeSetLo (v : Word32) (s : State) : Host.Outcome State Fault Refusal := onDev s fun d =>
  let nt := d.fld Reg.TBC_TIME_SET_HI F.TBC_TIME_SET_HI_NT * 2 ^ 32 + v.toNat
  let l := d.local80
  let line := d.time.line.map (fun (y : TimeLine) => { y with t := nt, l := l, slew := 0, slewAt := l })
  { d with time := { d.time with setNt := nt, setAt := l, line := line } }

/-- NT_LO_READ (Table 12-8): the read returns bits [31:0] and latches bits [47:32]. -/
def execNtLoRead (s : State) : Host.Outcome State Fault Refusal := onDev s fun d =>
  let nt := d.nt
  let d := { d with time := { d.time with ntHi := nt / 2 ^ 32 } }
  d.emit (.regData Reg.TBC_NT_LO 4 (BitVec.ofNat 64 (nt % 2 ^ 32)))

/-! ### Messages the module sends (R559, R565, R570, Table 12-3) -/

/-- Put a catalogue message into a mailbox of one controller: a waiting frame's content is replaced, and a frame on the bus is
followed by a new one (R559, R570). -/
def Dev.mbLoad (d : Dev) (t m id : Nat) (data : Bytes) : Dev :=
  if !d.busOn t then d
  else
    let d := d.setReg (Reg.TBC_MB_ID t m) (BitVec.ofNat 32 id)
    let d := d.setReg (Reg.TBC_MB_FLAGS t m) 8
    let d := d.mbData t m data
    if d.mbSt t m = mbOnBus then d.updCan t (fun c => { c with again := if m ∈ c.again then c.again else c.again ++ [m] })
    else d.setMbSt t m (d.waitSt t)

/-- Send a message of this module on both controllers (R565). -/
def Dev.post (d : Dev) (m code : Nat) (data : Bytes) : Dev :=
  let id := 64 * code + d.slotN
  (d.mbLoad 0 m id data).mbLoad 1 m id data

/-- A message of the active core; without one there is none (Table 12-2, R573). -/
def Dev.postCore (d : Dev) (m code : Nat) (data : Bytes) : Dev := if d.activeCore.isSome then d.post m code data else d

/-- LEAK_ALARM in mailbox 0. -/
def Dev.leakAlarm (d : Dev) : Dev :=
  let wet := d.leakBits .wet
  let flt := d.leakBits .fault
  let sev := if d.latched / 2 % 2 = 1 then 1 else if flt ≠ 0 then 2 else 0
  d.post 0 0x00 (leBytes 1 sev ++ leBytes 1 (wet + 16 * flt) ++ leBytes 1 (bit d.fullFlow) ++ leBytes 1 0 ++ leBytes 4 d.nt32)

/-- FLOW_STOP_ALARM in mailbox 1. -/
def Dev.flowStopAlarm (d : Dev) : Dev :=
  d.post 1 0x01 (leBytes 1 (d.latched % 2) ++ leBytes 2 d.flow ++ leBytes 1 (bit d.fullFlow) ++ leBytes 4 d.nt32)

/-- HAZARD_ALARM in mailbox 2. -/
def Dev.hazardAlarm (d : Dev) : Dev :=
  d.post 2 0x02 (leBytes 1 d.latched ++ leBytes 1 d.hazActive ++ leBytes 1 (bit d.fullFlow) ++ leBytes 1 0 ++ leBytes 4 d.nt32)

/-- FLOW_REQUEST in mailbox 4. -/
def Dev.flowRequest (d : Dev) : Dev :=
  let q := d.fld Reg.ORG_FLOW_REQ F.ORG_FLOW_REQ_REQ
  if d.activeCore.isSome then
    { d with org := { d.org with flowSent := q } }.post 4 0x05 (leBytes 2 q ++ leBytes 1 (bit d.fullFlow) ++ leBytes 1 0 ++ leBytes 4 d.nt32)
  else d

/-- CAP_REQUEST in mailbox 5: P_req, C and the sum of grants in W, and CEIL_TERM. -/
def Dev.capRequest (d : Dev) : Dev :=
  d.postCore 5 0x07 (leBytes 2 (min 0xFFFF (d.org.pReq / 16)) ++ leBytes 2 (d.fld Reg.ORG_CEIL F.ORG_CEIL_CEILING) ++
    leBytes 2 (d.grantSum / 16) ++ leBytes 1 (d.fld Reg.ORG_STATUS F.ORG_STATUS_CEIL_TERM) ++ leBytes 1 0)

/-- WARNING in mailbox 6: bits in force and bits raised since the previous WARNING. -/
def Dev.warningMsg (d : Dev) : Dev :=
  if d.activeCore.isSome then
    let d' := d.post 6 0x08 (leBytes 1 d.org.warn ++ leBytes 1 d.org.raised ++ leBytes 2 0 ++ leBytes 4 d.nt32)
    { d' with org := { d'.org with raised := 0 } }
  else d

/-- Is the loop isolated: by the pin or by an energised isolation valve? -/
def Dev.isolated (d : Dev) : Bool := d.isolateN || d.energised 12 || d.energised 13

/-- STATUS in mailbox 7. -/
def Dev.statusMsg (d : Dev) : Dev :=
  let k := Reg.KDV_STATE
  let flags := bit d.clamp + 2 * bit d.quiesced + 4 * bit d.hbLost + 8 * d.activeIx.getD 0 + 16 * bit d.isolated +
    32 * bit d.time.valid + 64 * d.fld Reg.ORG_CTRL F.ORG_CTRL_LEASE_EN
  d.postCore 7 0x09 (leBytes 1 (d.fld k F.KDV_STATE_MODE) ++ leBytes 1 (d.fld k F.KDV_STATE_REASON) ++
    leBytes 1 (d.fld k F.KDV_STATE_ATTEMPTS) ++ leBytes 1 flags ++ leBytes 2 (d.fld Reg.CKP_PIN F.CKP_PIN_WATTS) ++
    leBytes 2 (d.sensor 25).value)

/-- LEAK_ALARM (R570). -/
def execLeakAlarm (s : State) : Host.Outcome State Fault Refusal := onDev s Dev.leakAlarm
/-- FLOW_STOP_ALARM (R570). -/
def execFlowStopAlarm (s : State) : Host.Outcome State Fault Refusal := onDev s Dev.flowStopAlarm
/-- HAZARD_ALARM (R570). -/
def execHazardAlarm (s : State) : Host.Outcome State Fault Refusal := onDev s Dev.hazardAlarm
/-- CAP_REQUEST (R570, R573). -/
def execCapRequest (s : State) : Host.Outcome State Fault Refusal := onDev s Dev.capRequest
/-- WARNING (R570, R573). -/
def execWarning (s : State) : Host.Outcome State Fault Refusal := onDev s Dev.warningMsg
/-- STATUS (R570, R573). -/
def execStatus (s : State) : Host.Outcome State Fault Refusal := onDev s Dev.statusMsg

/-- TIME_REF_SEND (R574): mailbox 3 is loaded; CYCLE rises when the frame has been sent. NT at the sync mark of the previous TIME_REF; for the first one the manual states no value, and a free
value stands in its place. -/
def execTimeRefSend (s : State) : Host.Outcome State Fault Refusal := onDev s fun d =>
  if !d.timeMaster then d
  else
    let (d, nt) := match d.time.sentAt with
      | some l => (d, d.ntAt l)
      | none =>
        let (d, i) := d.takeFree
        let (d, j) := d.takeFree
        (d, (Config.freeWord i).toNat + 2 ^ 32 * ((Config.freeWord j).toNat % 2 ^ 16))
    d.mbLoad d.timeSrc 3 0x0C0 (refBytes nt d.time.cycle)

/-! ### Messages the Orangery acts on (R565, R571, R572) -/

/-- ISOLATE_ACK in mailbox 8. -/
def Dev.isolateAck (d : Dev) (result : Nat) (sq : Byte) : Dev :=
  d.postCore 8 0x0C (leBytes 1 result ++ [sq] ++ leBytes 6 0)

/-- ISOLATE (R471, R547, R572): from the tray manager for this module. -/
def Dev.isolateIn (d : Dev) (t : Nat) (op sq : Byte) : Dev :=
  if d.activeCore.isNone ∨ 1 < op.toNat ∨ !d.busHears t then d
  else
    let res := if op = 1 then 0 else 1
    if d.forced then d.isolateAck 2 sq
    else if d.org.isoSeq = some (op, sq) then d.isolateAck res sq
    else
      let d := { d with org := { d.org with isoSeq := some (op, sq) } }
      let go := fun (d : Dev) (c : Nat) =>
        let d := if op = 1 then d.chSend c (.start (d.fld (Reg.VDR_CH_CLOSE c) F.VDR_CH_CLOSE_ICLOSE)) else d.chSend c .stop
        let now := d.clock
        d.updChan c (fun x => { x with verify := some { closing := decide (op = 1), base := 0, spoiled := false, since := now } })
      let d := go (go d 12) 13
      (d.fire 36 (op.toNat + 65536 * sq.toNat)).isolateAck res sq

/-- ISOLATE (R572). -/
def execIsolate (t : Tb) (op sq : BitVec 8) (s : State) : Host.Outcome State Fault Refusal := onDev s fun d => d.isolateIn (tbIx t) op sq

/-- LOOP_CAPACITY (R571): CAP_BUS and ORG_BUS_CAP. -/
def Dev.capacityIn (d : Dev) (t watts : Nat) : Dev :=
  if !d.busHears t then d
  else (d.setFld Reg.ORG_BUS_CAP F.ORG_BUS_CAP_VALID 1).setFld Reg.ORG_BUS_CAP F.ORG_BUS_CAP_WATTS watts
/-- LOOP_CAPACITY (R571). -/
def execLoopCapacity (t : Tb) (watts : BitVec 16) (s : State) : Host.Outcome State Fault Refusal := onDev s fun d =>
  d.capacityIn (tbIx t) watts.toNat

/-- A heartbeat on a bus refreshes its arrival time only. -/
def Dev.peerSeen (d : Dev) (t k : Nat) : Dev :=
  let now := d.clock
  if !d.busHears t then d
  else { d with time := { d.time with peers := Tab.set none d.time.peers k (some now) } }

/-- CDU_HEARTBEAT (Table 12-3). -/
def execCduHeartbeat (t : Tb) (s : State) : Host.Outcome State Fault Refusal := onDev s fun d => d.peerSeen (tbIx t) 0
/-- TM_HEARTBEAT (Table 12-3). -/
def execTmHeartbeat (t : Tb) (s : State) : Host.Outcome State Fault Refusal := onDev s fun d => d.peerSeen (tbIx t) 1

/-! ### Frames received (R552, R563, R564, R568) -/

/-- The Orangery acts on a frame that a filter of the catalogue took: a classical data frame with DLC 8 (R563, R570). -/
def Dev.catalogue (d : Dev) (t f : Nat) (fr : CanFrame) (ago : Nat) : Dev :=
  if fr.rtr || fr.fdf || fr.dlc != 8 then d
  else
    let b := fun (i : Nat) => fr.data.getD i 0
    match f with
    | 0 => d.refIn t (leNat (fr.data.take 6)) (b 6) ago
    | 1 => d.isolateIn t (b 0) (b 1)
    | 2 => d.capacityIn t (leNat (fr.data.take 2))
    | 3 => d.peerSeen t 0
    | 4 => d.peerSeen t 1
    | _ => d

/-- A frame without error: it is acknowledged, unless the controller only listens, and filtered (R563, R564, R568, R569). -/
def Dev.canIn (d : Dev) (t : Nat) (fr : CanFrame) (ago : Nat) : Dev :=
  let d := d.rxGood t
  let d := if d.busNormal t then d.emit (.canAck t) else d
  let d := if d.dupNode fr then (d.raise (Reg.TBC_EVT t 5)).fire 53 t else d
  match d.filterOf t fr with
  | some f =>
    if f ≤ 31 then d.catalogue t f fr ago
    else if 64 ≤ (d.can t).fifo.length then d.raise (Reg.TBC_EVT t 2)
    else d.updCan t (fun c => { c with fifo := c.fifo ++ [(fr, f)] })
  | none => d

/-- CAN_FRAME_RECEIVE (R552, R563, R566): a frame, an error the receiver detects, or an overload condition. An FD frame while FD_EN is 0 is
answered with an error frame; a recessive res bit while it is 1 lets the controller wait for 11 recessive bits. -/
def execCanFrameReceive (t : Tb) (rx : CanRx) (s : State) : Host.Outcome State Fault Refusal := onDev s fun d =>
  let t := tbIx t
  let fd := d.fld (Reg.TBC_CTRL t) F.TBC_CTRL_FD_EN == 1
  if !d.busHears t then d
  else
    match rx with
    | .error lec primary => d.rxError t lec.toNat (if primary then 9 else 1)
    | .overload => if d.busNormal t then d.emit (.canOverload t) else d
    | .frame fr ago =>
      if fr.fdf && !fd then d.rxError t 2 1
      else if fr.res && fd then (d.raise (Reg.TBC_EVT t 3)).busWait t
      else d.canIn t fr ago.toNat

end Sys2Proof.Machine
end

