-- ==== Sys2Proof/Machine/Predictor.lean ====
section
/-! DEFINITION. The predictor (R506 to R510): the fields of a model blob, its checks, and one run in Osium-12 arithmetic. -/

namespace Sys2Proof.Machine

/-- `n` bytes of a blob from an offset, as a number. -/
def blobNat (b : Bytes) (off n : Nat) : Nat := leNat ((b.drop off).take n)

/-- A layer descriptor (Table 10-7). -/
structure Layer where
  rows : Nat
  cols : Nat
  wOff : Nat
  bOff : Nat
  tOff : Nat
  deriving DecidableEq, Repr

/-- Layer `n` of a blob. -/
def blobLayer (b : Bytes) (n : Nat) : Layer :=
  let o := 0x40 + 16 * n
  ⟨blobNat b o 2, blobNat b (o + 2) 2, blobNat b (o + 4) 4, blobNat b (o + 8) 4, blobNat b (o + 12) 4⟩

/-- The layers of a blob. -/
def blobLayers (b : Bytes) : List Layer := (List.range (blobNat b 6 1)).map (blobLayer b)

/-- Do the layer shapes chain from 40 inputs to 60 outputs (R507)? -/
def chainOk : Nat → List Layer → Bool
  | n, [] => n == 60
  | n, l :: r => l.cols == n && chainOk l.rows r

/-- Bytes of `n` packed Osium-12 weights. -/
def wBytes (n : Nat) : Nat := (12 * n + 7) / 8

/-- Do the offsets of a layer, with what they locate, lie within a blob of `len` bytes (R507)? -/
def layerIn (len : Nat) (l : Layer) : Bool :=
  decide (l.wOff + wBytes (l.rows * l.cols) ≤ len) && decide (l.bOff + 4 * l.rows ≤ len) && (l.tOff == 0 || decide (l.tOff + 528 ≤ len))

/-- The sum of ROWS × COLS. -/
def weightSum (ls : List Layer) : Nat := (ls.map (fun l => l.rows * l.cols)).sum

/-- Is the format right: MAGIC, NIN, NOUT, reserved bytes 0, shapes, offsets (R507)? -/
def blobFormatOk (b : Bytes) : Bool :=
  let ls := blobLayers b
  decide (0x40 + 16 * blobNat b 6 1 ≤ b.length) && blobNat b 0 4 == 0x4D47524F && blobNat b 0xA 2 == 40 && blobNat b 0xC 2 == 60 &&
    blobNat b 7 1 == 0 && blobNat b 0xE 2 == 0 && blobNat b 0x14 0x2C == 0 && chainOk 40 ls && blobNat b 0x10 4 == weightSum ls &&
    ls.all (layerIn b.length)

/-- Is the size right: at most 65,536 weights (R507)? -/
def blobSizeOk (b : Bytes) : Bool := decide (blobNat b 0x10 4 ≤ 65536)

/-- Osium-12 element `i` of a packed array at a byte offset (R60). -/
def osAt (b : Bytes) (off i : Nat) : Nat := bitsOf (blobNat b (off + 12 * i / 8) 3) (12 * i % 8) 12

/-- The kind of accumulator of Osium-12 × Osium-12, both unscaled (R83). -/
def osKind : AccKind := (pairKind .os12 false .os12 false).getD .wide

/-- One output of a layer in FP32 (R509): the sum, its readout in mode 0, the bias, the table. -/
def layerOut (b : Bytes) (l : Layer) (x : List Nat) (j : Nat) : Nat :=
  let ps := (List.range l.cols).map (fun k => ((⟨.os12, 0x7F, osAt b l.wOff (j * l.cols + k)⟩ : Opnd), (⟨.os12, 0x7F, x.getD k 0⟩ : Opnd)))
  let c := (Cell.addAll osKind Cell.zero ps).1
  let y := (fpAdd 0 (fpOf 0 (Cell.val osKind c)).1 (blobNat b (l.bOff + 4 * j) 4)).1
  if l.tOff = 0 then y else (tabEval (fun o => blobNat b (l.tOff + o) 4) y).1

/-- FP32 to Osium-12 in mode 0 (R106, R508). -/
def toOs12 (c : Nat) : Nat := (convTo .os12 0 0 (fpVal c).1).1

/-- The layers in turn: Osium-12 inputs, FP32 outputs (R509). -/
def runLayers (b : Bytes) : List Layer → List Nat → List Nat
  | [], _ => []
  | [l], x => (List.range l.rows).map (layerOut b l x)
  | l :: r, x => runLayers b r ((List.range l.rows).map (fun j => toOs12 (layerOut b l x j)))

/-- The FP32 code of n ÷ 2^k. -/
def fpFrac (n : Int) (k : Nat) : Nat := (fpOf 0 (.num (decide (n < 0)) (n.natAbs * 2 ^ (320 - k)))).1

/-- A finite FP32 value times 2^k as an integer, rounded to nearest even; 0 for NaN. -/
def fpToInt (k c : Nat) : Int :=
  match (fpVal c).1 with
  | .nan => 0
  | .num neg mag =>
    let u := 2 ^ (320 - k)
    let q := mag / u
    let r := 2 * (mag % u)
    let n := if u < r ∨ (r = u ∧ q % 2 = 1) then q + 1 else q
    if neg then -(n : Int) else n

/-- Is an FP32 code a NaN? -/
def fpNan (c : Nat) : Bool := (fpVal c).1 == .nan

/-- Does a hint of `h64` (in 1/64 W, times `k`) count: for 20 ms from its arrival, then while M_p, in 1/16 W, is at least half
of it (R500)? -/
def hintCounts (now since m h64 k : Nat) : Bool := decide (now < since + 20000) || decide (h64 ≤ 8 * m * k)

/-- The power of the descriptor hint of a Pavilion's share in 1/64 W (R500). -/
def descPower (now m : Nat) : Option DescHint → Nat
  | some h => if now < h.since + h.us ∧ hintCounts now h.since m (64000 * h.mJ) (h.us * h.nshare) then 64000 * h.mJ / (h.us * h.nshare) else 0
  | none => 0

/-- The hint power H_p of a Pavilion in 1/64 W, rounded down (R500). -/
def Dev.hintPower (d : Dev) (p : Nat) : Nat :=
  let x := d.pav p
  let m := (d.orgPav p).meter
  if x.share.isNone then 0
  else
    match x.phaseHint with
    | some h =>
      if d.clock < h.stop then (if hintCounts d.clock h.since m h.power 1 then h.power else 0) else descPower d.clock m x.descHint
    | none => descPower d.clock m x.descHint

/-- The inputs of a run as FP32 codes (Table 10-8). -/
def Dev.predInputs (d : Dev) : List Nat :=
  let zoneSum := fun (f : Nat → Nat) (z : Nat) => if z < 8 then ((List.range 20).map (fun k => f (20 * z + k))).sum else 0
  (List.range 12).map (fun z => fpFrac (sInt 32 (d.reg (Reg.ORG_ZONE_READ z)).toNat) 16) ++
  (List.range 12).map (fun z => fpFrac (zoneSum (fun p => (d.pav p).lease) z : Nat) 4) ++
  (List.range 12).map (fun z => fpFrac (zoneSum d.hintPower z : Nat) 6) ++
  [fpFrac (d.sensor 24).temp 7, fpFrac (d.sensor 25).temp 7, fpFrac (d.flow : Nat) 10, fpFrac (d.org.ceil : Nat) 10]

/-- The sixty final outputs of a run (R508, R509). -/
def Dev.predOutputs (d : Dev) (b : Bytes) : List Nat := runLayers b (blobLayers b) (d.predInputs.map toOs12)

/-- Does the predictor run: PRED_EN and a model (R510)? -/
def Dev.predRuns (d : Dev) : Bool := d.fld Reg.ORG_CTRL F.ORG_CTRL_PRED_EN == 1 && d.org.model.isSome && !d.isGated 19

/-- Output `i` in effect, as an FP32 code. -/
def Dev.predOut (d : Dev) (i : Nat) : Option Nat := if d.predRuns then d.org.out.map (fun o => o.getD i 0) else none

/-- The feedforward f of a zone in Q16.16, limited to −1.0 through 1.0; 0 without the predictor (R484, Table 10-8). -/
def Dev.feedforward (d : Dev) (z : Nat) : Int :=
  match d.predOut (48 + z) with
  | some c => min 65536 (max (-65536) (fpToInt 16 c))
  | none => 0

/-- A forecast of a zone in 1/128 °C: h = 0 to 3 for 1, 3, 10 and 30 s. -/
def Dev.forecast (d : Dev) (z h : Nat) : Option Int := (d.predOut (4 * z + h)).map (fpToInt 7)

/-- The 1 s forecast of a zone made 1 s earlier, in 1/128 °C (R479). -/
def Dev.pastForecast (d : Dev) (z : Nat) : Option Int :=
  if d.predRuns then
    ((d.org.past.filter (fun e => decide (e.1 + 1000000 ≤ d.clock))).getLast?).map (fun e => fpToInt 7 (e.2.getD (4 * z) 0))
  else none

end Sys2Proof.Machine
end

