-- ==== Sys2Proof/Machine/Orangery.lean ====
section
/-! DEFINITION. The Orangery (chapter 10): sensors, zone loops, ceiling, leases, flow requests, the predictor's runs and the
hazard path; the verification of valves (R546 to R548) and the heartbeat watchdog (R661, R662). -/

namespace Sys2Proof.Machine

/-! ### Warnings -/

/-- A warning is raised: its event, its bit in force and since the last WARNING, trigger 7 + w, and a WARNING message (Table 10-12,
Table 12-3, Table 15-6). -/
def Dev.raiseWarn (d : Dev) (w ctx : Nat) : Dev :=
  let d := { d with org := { d.org with warn := d.org.warn ||| 2 ^ w, raised := d.org.raised ||| 2 ^ w } }
  ((d.raise (Reg.ORG_WARN_EVT w)).fire (7 + w) ctx).warningMsg

/-- A warning's bit in force. -/
def Dev.warnOn (d : Dev) (w : Nat) : Bool := bitsOf d.org.warn w 1 == 1
/-- A warning is no longer in force. -/
def Dev.endWarn (d : Dev) (w : Nat) : Dev :=
  if d.warnOn w then { d with org := { d.org with warn := d.org.warn - 2 ^ w } } else d
/-- A warning's condition holds or not; it is raised at its onset. -/
def Dev.warnWhen (d : Dev) (w ctx : Nat) (on : Bool) : Dev :=
  if on then (if d.warnOn w then d else d.raiseWarn w ctx) else d.endWarn w

/-! ### Hazards (R511 to R515) -/

/-- Do the readings of a set of temperature sensors that take part satisfy a test: converted, not excluded, not open (R511)? -/
def Dev.anyTemp (d : Dev) (l : List Nat) (t : Int → Bool) : Bool :=
  l.any (fun n => let x := d.sensor n; x.seen && !x.excl && !x.isOpen && t x.temp)

/-- Pavilion and device sensors. -/
def dieSensors : List Nat := (List.range 344).map (· + 64)
/-- Zone coolant sensors. -/
def coolSensors : List Nat := List.range 24

/-- Hazards of Table 10-9 by number. -/
def hazIx (h : Hazard) : Nat :=
  match h with
  | .flowStop => 0 | .leak => 1 | .overtempDie => 2 | .overtempCoolant => 3 | .inletHot => 4 | .pressure => 5

/-- Has the flow pair a reading: of both meters, or of one where the other is excluded? -/
def Dev.flowSeen (d : Dev) : Bool :=
  ((d.sensor 28).seen || (d.sensor 28).excl) && ((d.sensor 29).seen || (d.sensor 29).excl)

/-- Is a trip condition present (Table 10-9)? -/
def Dev.tripNow (d : Dev) (h : Nat) : Bool :=
  match h with
  | 0 => decide (2 ≤ d.org.flowLow) || (match d.org.flowHist[0]?, d.org.flowHist[10]? with | some new, some old => decide (new + 1024 < old) | _, _ => false)
  | 1 => d.leakBits .wet != 0
  | 2 => d.anyTemp dieSensors (fun t => decide (14080 ≤ t))
  | 3 => d.anyTemp [25] (fun t => decide (8960 ≤ t)) || d.anyTemp coolSensors (fun t => decide (9600 ≤ t))
  | 4 => d.anyTemp [24] (fun t => decide (6400 ≤ t))
  | _ => let x := d.sensor 26; x.seen && (decide (4800 ≤ x.value) || decide (x.value ≤ 160))

/-- Has no loop been WET for 1 s? -/
def Dev.dryFor (d : Dev) : Bool :=
  d.leakBits .wet == 0 && (match d.org.lastWet with | some t => decide (t + 1000000 ≤ d.clock) | none => true)

/-- Is a hazard's release condition met (Table 10-9)? -/
def Dev.releaseOk (d : Dev) (h : Nat) : Bool :=
  match h with
  | 0 => decide (820 ≤ d.flow)
  | 1 => d.dryFor && d.org.leakAck
  | 2 => !d.anyTemp dieSensors (fun t => decide (13440 ≤ t))
  | 3 => !d.anyTemp [25] (fun t => decide (8320 ≤ t)) && !d.anyTemp coolSensors (fun t => decide (8960 ≤ t))
  | 4 => !d.anyTemp [24] (fun t => decide (6016 ≤ t))
  | _ => let x := d.sensor 26; decide (320 ≤ x.value ∧ x.value ≤ 4640)

/-- Full flow in the request (R493). -/
def Dev.askFullFlow (d : Dev) : Dev :=
  d.setFld Reg.ORG_FLOW_REQ F.ORG_FLOW_REQ_REQ (d.fld Reg.ORG_FLOW_REQ F.ORG_FLOW_REQ_QMAX * 32)

/-- The clamp line reaches every governor: floor frequency at once, and issue stops until the rail has settled (R49, R50). -/
def Dev.clampOn (d : Dev) : Dev :=
  let again := d.clamp
  let d := (List.range 160).foldl (fun d p => d.updPav p (fun x => { x with freq := 400, settling := x.settling || !again })) d
  { d with clamp := true, org := { d.org with higher := [] } }

/-- A trip (R512): latched, clamp, valves, alarms with full flow requested, trigger h. -/
def Dev.trip (d : Dev) (h : Nat) : Dev :=
  let d := d.raise (Reg.ORG_HAZ_EVT h)
  let d := d.setFld Reg.ORG_HAZ_STATUS F.ORG_HAZ_STATUS_LATCHED (d.latched ||| 2 ^ h)
  let d := d.setFld Reg.ORG_HAZ_STATUS F.ORG_HAZ_STATUS_ACTIVE (d.hazActive ||| 2 ^ h)
  let d := if h = 1 then { d with org := { d.org with leakAck := false, lastWet := some d.clock } } else d
  let d := d.clampOn.forceOff.askFullFlow
  let d := if h = 0 then d.flowStopAlarm else if h = 1 then d.leakAlarm else d.hazardAlarm
  d.fire h d.latched

/-- HAZARD_TRIP (R511 to R515, R544): the hazard path has detected the condition. -/
def execHazardTrip (h : Hazard) (s : State) : Host.Outcome State Fault Refusal := onDev s fun d => d.trip (hazIx h)

/-- HAZARD_QUIESCE (R52, R512): a hazard is still latched 2 s after its trip. -/
def execHazardQuiesce (s : State) : Host.Outcome State Fault Refusal := onDev s fun d =>
  if d.latched ≠ 0 then { d with org := { d.org with hazQuiesce := true } } else d

/-- LEAK_ACK (R511, Table 10-9): a write of LEAK to ORG_HAZ_ACK counts once every loop has not been WET for 1 s. -/
def execLeakAck (s : State) : Host.Outcome State Fault Refusal := onDev s fun d =>
  if d.dryFor then { d with org := { d.org with leakAck := true } } else d

/-- Trip conditions present, as ACTIVE bits. -/
def Dev.tripBits (d : Dev) : Nat := ((List.range 6).map (fun h => if d.tripNow h then 2 ^ h else 0)).sum

/-- Bring ACTIVE up to date and trip on each condition that begins. -/
def Dev.hazardPath (d : Dev) : Dev :=
  let now := d.tripBits
  let old := d.hazActive
  let d := d.setFld Reg.ORG_HAZ_STATUS F.ORG_HAZ_STATUS_ACTIVE now
  (List.range 6).foldl (fun d h => if bitsOf now h 1 = 1 ∧ bitsOf old h 1 = 0 then d.trip h else d) d

/-- The active core releases the clamp at a loop sample (R514): no hazard active, every latched one at its release condition. -/
def Dev.tryRelease (d : Dev) : Dev :=
  let lat := d.latched
  if d.clamp && lat != 0 && d.hazActive == 0 && (List.range 6).all (fun h => bitsOf lat h 1 == 0 || d.releaseOk h) then
    let d := d.setFld Reg.ORG_HAZ_STATUS F.ORG_HAZ_STATUS_LATCHED 0
    let d := { d with clamp := false, org := { d.org with hazQuiesce := false, leakAck := false, relAt := some d.clock } }
    let d : Dev := (List.range 160).foldl (fun (d : Dev) p => d.setLease p (d.pav p).lease) d
    let d := if bitsOf lat 0 1 = 1 then d.flowStopAlarm else d
    let d := if bitsOf lat 1 1 = 1 ∧ d.leakBits .fault = 0 then d.leakAlarm else d
    let d := if lat / 4 ≠ 0 then d.hazardAlarm else d
    d.fire 6 lat
  else d

/-! ### Conversions (R473 to R480, R516, R517) -/

/-- A pair is flagged because a member is excluded; its counts start again (R477, R478). -/
def Dev.flagPair (d : Dev) (lo : Nat) : Dev :=
  let was := (d.spair lo).flag
  let d := d.updSpair lo (fun x => { x with flag := true, dis := 0, agr := 0 })
  if was then d else (d.raiseWarn 2 lo).fire 55 lo

/-- The zone whose forecast a temperature sensor answers to (R479). -/
def sensorZone (n : Nat) : Option Nat :=
  if n < 24 then some (n / 2) else if n < 64 then none else if n < 384 then some ((n - 64) / 40)
  else if n < 388 then some 8 else if n < 392 then some 9 else if n < 398 then some 10 else some 11

/-- Count a sample as plausible or not; the counts of R479 mark and clear SUSPECT. -/
def Dev.plausible (d : Dev) (n limA limB : Nat) (badA badB : Bool) : Dev :=
  let x := d.sensor n
  let low := if badA then x.low + 1 else 0
  let below := if badB then x.below + 1 else 0
  let good := if badA || badB then 0 else min 10000 (x.good + 1)
  let mark := decide (limA ≤ low) || decide (limB ≤ below)
  let sus := if mark then true else if 10000 ≤ good then false else x.suspect
  let d := d.updSensor n (fun x => { x with low := min limA low, below := min limB below, good := good, suspect := sus })
  if sus && !x.suspect then (d.raiseWarn 3 n).fire 55 n else d

/-- Plausibility of a temperature sensor (R479). For the inlet, as for pressure, humidity and leak loops, no test makes a sample
implausible; a mark of the reference test ends by its count of samples. -/
def Dev.tempPlausible (d : Dev) (n : Nat) : Dev :=
  if n = 24 then d.plausible n 1000 1000 false false
  else
    let low := decide ((d.sensor n).temp + 384 < (d.sensor 24).temp) && (d.sensor 24).seen
    let far := fun (k : Nat) (f : Int) => decide ((d.sensor k).temp + 1280 < f)
    let below := match sensorZone n with
      | some z => match d.pastForecast z with
        | some f => far n f && !(hasPair n && far (partner n) f)
        | none => false
      | none => false
    d.plausible n 1000 1000 low below

/-- Plausibility of a flow meter, and its exclusion under AUTO_EXCLUDE (R479, R480). -/
def Dev.flowPlausible (d : Dev) (n : Nat) : Dev :=
  let near := (List.range 12).all (fun z => match d.coolTemp z with
    | some t => decide ((t - (d.sensor 24).temp).natAbs ≤ 1280)
    | none => true)
  let low := decide ((d.sensor n).value < 512) && decide (1536 ≤ (d.sensor (partner n)).value) && near
  let d := d.plausible n 200 200 low false
  if d.fld Reg.ORG_CTRL F.ORG_CTRL_AUTO_EXCLUDE = 1 ∧ (d.sensor n).suspect ∧ !(d.sensor n).excl ∧ !(d.sensor (partner n)).excl then
    ((d.updSensor n (fun x => { x with excl := true })).flagPair 28).fire 56 n
  else d

/-- The pair counts at a sample of both members (R477, R478). -/
def Dev.pairSample (d : Dev) (lo : Nat) : Dev :=
  let a := d.sensor lo
  let b := d.sensor (lo + 1)
  let p := d.spair lo
  let (differ, need) :=
    if lo = 28 then
      (decide (d.fld Reg.ORG_FLOW_CFG F.ORG_FLOW_CFG_FE_LIMIT * 1024 < 100 * (max a.value b.value - min a.value b.value)), 1000)
    else (decide (d.fld Reg.ORG_PAIR_CFG F.ORG_PAIR_CFG_DISAGREE * 16 < (a.temp - b.temp).natAbs), 10000)
  if a.excl || b.excl then d.flagPair lo
  else
    let dis := if differ then p.dis + 1 else 0
    let agr := if differ then 0 else min need (p.agr + 1)
    let lim := d.fld Reg.ORG_PAIR_CFG F.ORG_PAIR_CFG_SAMPLES
    let flag := if lim < dis then true else if need ≤ agr then false else p.flag
    let d := d.updSpair lo (fun x => { x with flag := flag, dis := min (lim + 1) dis, agr := agr })
    if flag && !p.flag then (d.raiseWarn 2 lo).fire 55 lo else d

/-- A value as Table 10-3 limits it: an open temperature front-end reads full-scale hot (R474). -/
def limitValue (k : SKind) (v : BitVec 16) (isOpen : Bool) : Nat :=
  match k with
  | .temp => if isOpen then 0x7FFF else if sInt 16 v.toNat < -5120 then 0x10000 - 5120 else v.toNat
  | .hum => min 25600 v.toNat
  | _ => v.toNat

/-- A sample of the flow, at the conversion of the pair's odd member: the count below 0.5 L/min and the last eleven values. -/
def Dev.flowSample (d : Dev) (n : Nat) : Dev :=
  if n % 2 = 1 ∧ d.flowSeen then
    let f := d.flow
    { d with org := { d.org with flowLow := if f < 512 then min 2 (d.org.flowLow + 1) else 0, flowHist := (f :: d.org.flowHist).take 11 } }
  else d

/-- One conversion (R473). -/
def Dev.convert (d : Dev) (n : Nat) (v : BitVec 16) (isOpen : Bool) : Dev :=
  match sensorKind n with
  | none => d
  | some k =>
    let was := d.sensor n
    let op := isOpen && k == .temp
    let d := d.updSensor n (fun x => { x with seen := true, value := limitValue k v isOpen, isOpen := op })
    let d := if hasPair n ∧ n % 2 = 1 then d.pairSample (pairLow n) else d
    match k with
    | .temp => d.tempPlausible n
    | .flow => (d.flowPlausible n).flowSample n
    | .press => d.plausible n 1000 1000 false false
    | .hum =>
      let d := d.plausible n 1000 1000 false false
      let h := (d.sensor n).value
      if 21760 ≤ h then d.warnWhen 6 n true else if h < 20480 then d.endWarn 6 else d
    | .leak =>
      let d := d.plausible n 1000 1000 false false
      let now := d.clock
      let st := (d.sensor n).leak
      let d := if st = .wet then { d with org := { d.org with lastWet := some now, leakAck := false } } else d
      if st = .fault ∧ was.leak ≠ .fault then (d.raiseWarn 4 n).leakAlarm
      else if st ≠ .fault ∧ was.leak = .fault ∧ d.leakBits .fault = 0 ∧ d.latched / 2 % 2 = 0 then d.leakAlarm
      else d

/-- Warnings in force that follow a lasting condition. -/
def Dev.warnEnds (d : Dev) : Dev :=
  let flagged := d.org.pairs.any (fun e => e.2.flag)
  let sus := d.org.sensors.any (fun e => e.2.suspect) || d.vdr.chans.any (fun e => e.2.suspect)
  let d := if flagged then d else d.endWarn 2
  let d := if sus then d else d.endWarn 3
  let d := if d.leakBits .fault ≠ 0 then d else d.endWarn 4
  let d := if d.org.zones.any (fun e => e.2.fe) then d else d.endWarn 1
  match d.org.predAt with
  | some t => if t + 1000000 ≤ d.clock then d.endWarn 7 else d
  | none => d

/-! ### Loop arithmetic (R483) -/

/-- The Q16.16 result of one operation, and 1 when it was limited, else 0. -/
abbrev Q := Int × Nat

/-- Limit to 32 bits. -/
def qLim (x : Int) : Q := if x < -2147483648 then (-2147483648, 1) else if 2147483647 < x then (2147483647, 1) else (x, 0)
def qAdd (a b : Int) : Q := qLim (a + b)
def qSub (a b : Int) : Q := qLim (a - b)
/-- floor((P + 2^15) ÷ 2^16). -/
def qMul (a b : Int) : Q := qLim ((a * b + 32768) / 65536)

/-- A register as Q16.16. -/
def Dev.qReg (d : Dev) (off : Nat) : Int := sInt 32 (d.reg off).toNat
/-- Store a Q16.16 value. -/
def Dev.setQ (d : Dev) (off : Nat) (x : Int) : Dev := d.setReg off (BitVec.ofNat 32 (toTwos 32 x))

/-- Is keep-warm active in a zone (R486)? -/
def Dev.keepWarm (d : Dev) (z : Nat) : Bool :=
  decide (z < 8) && (d.zonePairs z).any (fun t => decide (t < d.fld Reg.ORG_KW_CFG F.ORG_KW_CFG_LB * 128))

/-- umin_eff (R484, R486). -/
def Dev.uminEff (d : Dev) (z : Nat) : Int :=
  if d.keepWarm z then ((d.fld Reg.ORG_KW_CFG F.ORG_KW_CFG_UMIN * 256 : Nat) : Int) else d.qReg (Reg.ORG_ZONE_UMIN z)

/-- A value limited to umin_eff through umax. -/
def Dev.uLimit (d : Dev) (z : Nat) (v : Int) : Int := min (max v (d.uminEff z)) (d.qReg (Reg.ORG_ZONE_UMAX z))

/-- What a sample of an automatic loop gives: output, integrator, how many operations were limited, and the disagreement of a transfer. -/
structure LoopOut where
  u : Int
  i : Int
  sat : Nat
  diff : Option Int
  deriving DecidableEq, Repr

/-- An automatic sample (R484, R490, R492): `um` is the output to take over, `held` holds the integrator. -/
def Dev.autoLoop (d : Dev) (z : Nat) (e : Int) (um : Option Int) (held : Bool) : LoopOut :=
  let i := d.qReg (Reg.ORG_ZONE_INTEG z)
  let p := qMul (d.qReg (Reg.ORG_ZONE_KP z)) e
  let ff := qMul (d.qReg (Reg.ORG_ZONE_KFF z)) (d.feedforward z)
  let fp := qAdd ff.1 p.1
  let sat := p.2 + ff.2 + fp.2
  if held then
    let v := qAdd fp.1 i
    ⟨d.uLimit z v.1, i, sat + v.2, none⟩
  else
    match um with
    | some u =>
      let w := qAdd fp.1 i
      let x := qSub w.1 u
      let k := qSub u ff.1
      let j := qSub k.1 p.1
      ⟨u, j.1, sat + w.2 + x.2 + k.2 + j.2, some x.1⟩
    | none =>
      let di := qMul (d.qReg (Reg.ORG_ZONE_KI z)) e
      let j := qAdd i di.1
      let v := qAdd fp.1 j.1
      let sat := sat + di.2 + j.2 + v.2
      if (d.qReg (Reg.ORG_ZONE_UMAX z) < v.1 ∧ 0 < di.1) ∨ (v.1 < d.uminEff z ∧ di.1 < 0) then
        let w := qAdd fp.1 i
        ⟨d.uLimit z w.1, i, sat + w.2, none⟩
      else ⟨d.uLimit z v.1, j.1, sat, none⟩

/-! ### Valve commands (R524, R527, R546) -/

/-- The level of an opening (R524). -/
def Dev.levelOf (d : Dev) (z : Nat) (u : Int) : Nat :=
  let uu := (min 65536 (max 0 u)).toNat
  (65536 - uu) * d.fld (Reg.VDR_CH_CLOSE z) F.VDR_CH_CLOSE_ICLOSE / 65536

/-- A change of opening by 0.125 or more begins a check of the valve and spoils the checks that run for other zones; the change of another
zone at the same instant spoils it too (R546). -/
def Dev.beginVerify (d : Dev) (z : Nat) (old new : Nat) : Dev :=
  if 8192 ≤ max old new - min old new then
    let now := d.clock
    let other := (List.range 12).any (fun k => k != z && (match (d.chan k).verify with | some v => v.since == now | none => false))
    let d := (List.range 12).foldl (fun d k => d.updChan k (fun x => { x with verify := x.verify.map (fun (v : Verify) => { v with spoiled := true }) })) d
    let base := (d.coolTemp z).getD 0
    d.updChan z (fun x => { x with verify := some { closing := decide (new < old), base := base, spoiled := other, since := now } })
  else d

/-- Send the command of a sample to the channel of a zone (R527). -/
def Dev.applyZone (d : Dev) (z : Nat) (u : Int) : Dev :=
  let old := (d.zone z).opening
  let new := (min 65536 (max 0 u)).toNat
  let now := d.clock
  let lvl := d.levelOf z u
  let x := d.chan z
  let step := d.fld (Reg.VDR_CH_CLOSE z) F.VDR_CH_CLOSE_RESTART_STEP
  let ready : Bool := match x.lastStart with | some t => decide (t + 20000 ≤ now) | none => true
  let d :=
    if new = 65536 then d.chSend z .stop
    else if x.level + step < lvl ∧ ready = true then d.chSend z (.start lvl)
    else d.chSend z (.level lvl)
  (d.beginVerify z old new).updZone z (fun x => { x with opening := new })

/-- The opening of a zone becomes 1.0 by a STOP: its movement is checked (R546). -/
def Dev.opened (d : Dev) (z : Nat) : Dev := (d.beginVerify z (d.zone z).opening 65536).updZone z (fun x => { x with opening := 65536 })

/-- The command watchdog (R529): 50 ms after the latest command of the Orangery every channel of the Orangery receives STOP. -/
def Dev.watchdog (d : Dev) : Dev :=
  match d.vdr.lastCmd with
  | some t =>
    if t + 50000 ≤ d.clock then
      let d := (List.range 16).foldl (fun (d : Dev) c => if d.operatorOwned c then d else
        let d := d.chPut c .stop
        if c < 12 then d.opened c else d) d
      { d with vdr := { d.vdr with lastCmd := none } }
    else d
  | none => d

/-- COMMAND_WATCHDOG (R529). -/
def execCommandWatchdog (s : State) : Host.Outcome State Fault Refusal := onDev s Dev.watchdog

/-! ### The sample of a zone (R481 to R492) -/

/-- Do the valves stand unpowered by a clamp, the heartbeat watchdog or Lodge (R492)? -/
def Dev.loopsHeld (d : Dev) : Bool := d.clamp || d.hbLost || d.inLodge

/-- The sample of an enabled zone. -/
def Dev.zoneOn (d : Dev) (z : Nat) : Dev :=
  let zn := d.zone z
  let held := d.loopsHeld
  let auto := d.fld (Reg.ORG_ZONE_CFG z) F.ORG_ZONE_CFG_MODE == 1
  let y : Int := d.reading z * 512
  let e := qSub y (d.qReg (Reg.ORG_ZONE_SP z))
  let um : Option Int :=
    if !zn.on then some 65536
    else if zn.wasHeld then some 65536
    else if !zn.auto then some (d.qReg (Reg.ORG_ZONE_OUT z))
    else none
  let o := if auto then d.autoLoop z e.1 um held
    else ⟨min 65536 (max 0 (d.qReg (Reg.ORG_ZONE_MAN z))), d.qReg (Reg.ORG_ZONE_INTEG z), 0, none⟩
  let d := ((d.setQ (Reg.ORG_ZONE_READ z) y).setQ (Reg.ORG_ZONE_OUT z) o.u).setQ (Reg.ORG_ZONE_INTEG z) o.i
  let d := if auto then d.setQ (Reg.ORG_ZONE_MAN z) o.u else d
  let d := (List.range (e.2 + o.sat)).foldl (fun d _ => d.raise (Reg.ORG_ZONE_SAT_EVT z)) d
  let d := match o.diff with
    | some x => (d.setQ (Reg.ORG_ZONE_XFER z) x).fire 31 z
    | none => d
  let lim := ((d.fld (Reg.ORG_ZONE_FE z) F.ORG_ZONE_FE_LIMIT * 512 : Nat) : Int)
  let fe := zn.fe && decide (lim < 2 * e.1)
  let d := d.updZone z (fun x => { x with on := true, auto := auto, wasHeld := held, fe := fe })
  if held then d.updZone z (fun x => { x with opening := 65536 }) else d.applyZone z o.u

/-- The sample of a zone (R491). -/
def Dev.zoneSample (d : Dev) (z : Nat) : Dev :=
  if d.fld (Reg.ORG_ZONE_CFG z) F.ORG_ZONE_CFG_EN = 1 then d.zoneOn z
  else if (d.zone z).on then ((d.chSend z .stop).opened z).updZone z (fun _ => Zone.reset)
  else d

/-- Keep-warm loads stop at LB + 3 K (R487). -/
def Dev.stopWarm (d : Dev) : Dev :=
  let lim : Int := ((d.fld Reg.ORG_KW_CFG F.ORG_KW_CFG_LB + 3) * 128 : Nat)
  let keep := d.org.kwLoad.filter (fun p => match d.pavTemp p with | some t => decide (t < lim) | none => false)
  { d with org := { d.org with kwLoad := keep } }

/-- Predictor outputs that wait take effect (R510). -/
def Dev.takeReady (d : Dev) : Dev :=
  match d.org.ready with
  | none => d
  | some o =>
    let now := d.clock
    let past := d.org.past.filter (fun e => decide (now ≤ e.1 + 2000000)) ++ [(now, o)]
    { d with org := { d.org with ready := none, out := some o, past := past } }

/-- A core becomes ACTIVE, and ACTIVE_CORE shows it. -/
def Dev.setActive (d : Dev) (k : Nat) : Dev := (d.setCoreSt k 0).setFld Reg.ORG_STATUS F.ORG_STATUS_ACTIVE_CORE k

/-- The cores exchange roles; the former active core stays in step (R655). -/
def Dev.swapCores (d : Dev) (k : Nat) : Dev :=
  (((d.setCoreSt k 1).setActive (otherCore k)).raise (Reg.SUN_PAIR_EVT 0)).fire 27 (otherCore k)

/-- What the core pair does at a sample boundary: a requested swap, while the standby core is STANDBY_OK and the Gatehouse runs (R57,
R655), and the copy of
the active core's state to a SYNCING core (R656). -/
def Dev.pairSampleStart (d : Dev) : Dev :=
  let req := d.pair.swap
  let d := { d with pair := { d.pair with swap := false } }
  let d := d.setFld Reg.SUN_PAIR_CTRL F.SUN_PAIR_CTRL_SWAP 0
  match d.activeCore with
  | none => d
  | some k =>
    let st := d.coreSt (otherCore k)
    if req = true ∧ st = 1 ∧ d.gate.up = true then d.swapCores k
    else if st = 2 ∧ d.pair.copied = false then { d with pair := { d.pair with copied := true, matches_ := 0 } }
    else d

/-- The sample that the standby core computes in shadow while the active core has stopped (R647, R652): the loop registers of the
core pair follow, and nothing reaches the valves or the outside. -/
def Dev.shadowSample (d : Dev) : Dev :=
  let d' := (List.range 12).foldl Dev.zoneSample d.takeReady
  let zs := (List.range 12).foldl (fun t z =>
    let o := (d.zone z).opening
    Tab.upd Zone.reset t z (fun (x : Zone) => { x with opening := o })) d'.org.zones
  { d with regs := d'.regs, org := { d'.org with zones := zs } }

/-- LOOP_SAMPLE (R481): the conversions since the previous sample, the hazard path at each of them, then, with an active core, the release of
the clamp and the twelve loops in order. -/
def execLoopSample (conv : List Conversion) (s : State) : Host.Outcome State Fault Refusal := onDev s fun d =>
  let d := (conv.foldl (fun (d : Dev) c => (d.convert c.sensor.val c.value c.isOpen).hazardPath) d.pairSampleStart).hazardPath
  if d.activeCore.isNone then
    match d.activeIx with
    | some k => if d.coreSt (otherCore k) = 1 ∧ (d.coreRec (otherCore k)).halt = false then d.shadowSample else d
    | none => d
  else ((List.range 12).foldl Dev.zoneSample d.tryRelease.takeReady.stopWarm).warnEnds

/-- ZONE_FOLLOWING_ERROR (R488): e above LIMIT with the output at umax on every sample for TIME. -/
def execZoneFollowingError (z : Zx) (s : State) : Host.Outcome State Fault Refusal := onDev s fun d =>
  let z := z.val
  let e := d.qReg (Reg.ORG_ZONE_READ z) - d.qReg (Reg.ORG_ZONE_SP z)
  let lim := ((d.fld (Reg.ORG_ZONE_FE z) F.ORG_ZONE_FE_LIMIT * 512 : Nat) : Int)
  if (d.zone z).on ∧ !(d.zone z).fe ∧ lim < e ∧ d.qReg (Reg.ORG_ZONE_OUT z) = d.qReg (Reg.ORG_ZONE_UMAX z) then
    ((d.updZone z (fun x => { x with fe := true })).raise (Reg.ORG_ZONE_FE_EVT z)).raiseWarn 1 z
  else d

/-- KEEP_WARM_LOAD (R487): keep-warm active for 10 s with the output at umin_eff. -/
def execKeepWarmLoad (z : Zx) (s : State) : Host.Outcome State Fault Refusal := onDev s fun d =>
  let z := z.val
  if d.fld Reg.ORG_CTRL F.ORG_CTRL_KW_LOAD_EN = 1 ∧ d.keepWarm z ∧ (d.zone z).on ∧ d.qReg (Reg.ORG_ZONE_OUT z) = d.uminEff z then
    let lb : Int := (d.fld Reg.ORG_KW_CFG F.ORG_KW_CFG_LB * 128 : Nat)
    let cold := (List.range 20).filterMap (fun k =>
      let p := 20 * z + k
      match d.pavTemp p with
      | some t => if t < lb ∧ (d.pav p).share.isNone ∧ p ∉ d.org.kwLoad then some p else none
      | none => none)
    { d with org := { d.org with kwLoad := d.org.kwLoad ++ cold } }
  else d

/-! ### Ceiling, leases and flow (R493 to R505) -/

/-- Is the flow pair or a coolant pair of zones 8 to 11 flagged, or a loop in FAULT (Table 10-4)? -/
def Dev.capFault (d : Dev) : Bool :=
  d.leakBits .fault != 0 || d.pairFlagged 28 || [16, 18, 20, 22].any d.pairFlagged

/-- C_MIN in 1/1,024 W (R496). -/
def Dev.cMin (d : Dev) : Nat := 64 * (160 * d.floorCap + 16 * d.fld Reg.ORG_RESERVE F.ORG_RESERVE_WATTS)

/-- The active terms of the ceiling with their numbers, exactly, in 1/1,024 W (Table 10-4). -/
def Dev.capTerms (d : Dev) : List (Nat × Nat) :=
  let oper := 1024 * min 1600 (d.fld Reg.ORG_CAP_OPER F.ORG_CAP_OPER_WATTS)
  let bus := if d.fld Reg.ORG_BUS_CAP F.ORG_BUS_CAP_VALID = 1 then d.fld Reg.ORG_BUS_CAP F.ORG_BUS_CAP_WATTS
    else d.fld Reg.ORG_RESERVE F.ORG_RESERVE_CAP_NOBUS
  let hot := ((d.sensor 24).temp - 5120).toNat
  [(oper, 0), (1024 * bus, 1)] ++ (if d.org.flowFe then [(d.fld Reg.ORG_FLOW_CFG F.ORG_FLOW_CFG_K_FLOW * d.flow, 2)] else []) ++
    [(oper - 480 * hot, 3)] ++ (if d.capFault then [(oper / 2, 4)] else [])

/-- The smallest term, the first on a tie. -/
def minTerm (l : List (Nat × Nat)) : Nat × Nat := l.foldl (fun a b => if b.1 < a.1 then b else a) (l.headD (0, 0))

/-- The ceiling C in 1/1,024 W and the term that sets it (R496). -/
def Dev.ceiling (d : Dev) : Nat × Nat :=
  let m := minTerm d.capTerms
  if m.1 < d.cMin then (d.cMin, 5) else m

/-- The budget B in whole 1/16 W, the step of a grant (R497, R498). -/
def Dev.budget (d : Dev) : Nat := d.ceiling.1 / 64 - 16 * d.fld Reg.ORG_RESERVE F.ORG_RESERVE_WATTS

/-- The one Pavilion whose T_p falls: the hottest at or above LIMIT, the lowest index on a tie (R502). -/
def Dev.hottest (d : Dev) : Option Nat :=
  let lim : Int := (d.fld Reg.ORG_HOT_CFG F.ORG_HOT_CFG_LIMIT * 128 : Nat)
  ((List.range 160).foldl (fun (b : Option (Nat × Int)) p =>
    match d.pavTemp p with
    | some t =>
      if lim ≤ t then (match b with | some (q, u) => if u < t then some (p, t) else some (q, u) | none => some (p, t)) else b
    | none => b) none).map Prod.fst

/-- T_p at a period (R502). -/
def Dev.newTlim (d : Dev) (hot : Option Nat) (p : Nat) : Nat :=
  let step := d.fld Reg.ORG_HOT_CFG F.ORG_HOT_CFG_STEP
  let t := (d.orgPav p).tlim
  let low : Int := (d.fld Reg.ORG_HOT_CFG F.ORG_HOT_CFG_LIMIT * 128 : Nat) - (d.fld Reg.ORG_HOT_CFG F.ORG_HOT_CFG_HYST * 128 : Nat)
  if hot = some p then max d.floorCap ((d.pav p).lease - step)
  else match d.pavTemp p with
    | some v => if v < low then min (t + step) d.leaseMax else t
    | none => t

/-- Does the pair cap apply to a Pavilion (R477, R499)? -/
def Dev.pairCap (d : Dev) (p : Nat) : Bool := d.pairFlagged (64 + 2 * p) || d.pairFlagged (2 * (p / 20))

/-- L_p with a thermal limit T_p (R499). -/
def Dev.limitOf (d : Dev) (p t : Nat) : Nat :=
  let mx := d.leaseMax
  if (d.pavTemp p).isNone || (d.pav p).withdrawn then d.floorCap
  else
    let l := min mx t
    let l := if d.pairCap p then min l (mx / 2) else l
    let l := if (d.zone (p / 20)).fe then min l (mx * 3 / 4) else l
    max d.floorCap l

/-- D_p with a limit L_p (R500, R503). -/
def Dev.demandOf (d : Dev) (p l : Nat) : Nat :=
  if (d.pav p).share.isNone then d.floorCap + (if p ∈ d.org.kwLoad then d.fld Reg.ORG_KW_CFG F.ORG_KW_CFG_POWER else 0)
  else
    let grow := match d.forecast (p / 20) 1 with
      | some t => if ((d.fld Reg.ORG_HOT_CFG F.ORG_HOT_CFG_LIMIT * 128 : Nat) : Int) ≤ t then 0 else 8
      | none => 8
    min l (max d.floorCap (max (d.hintPower p / 4) ((d.orgPav p).meter + grow)))

/-- The largest λ not above a start value for which the sum of min(D_p, max(floor, λ)) is at most B (R501). -/
def findLambda (ds : List Nat) (floor b : Nat) : Nat → Nat
  | 0 => 0
  | n + 1 => if (ds.map (fun x => min x (max floor (n + 1)))).sum ≤ b then n + 1 else findLambda ds floor b n

/-- The grants for a list of demands (R501). -/
def grantsOf (ds : List Nat) (floor b : Nat) : List Nat :=
  if ds.sum ≤ b then ds
  else
    let l := max floor (findLambda ds floor b (ds.foldl max 0))
    ds.map (fun x => min x l)

/-- Send one grant (R498). -/
def Dev.sendGrant (d : Dev) (p g : Nat) : Dev :=
  let t := d.leaseDeadline
  (d.setLease p g).updPav p (fun x => { x with leaseEnd := t, newLease := false })

/-- Is every grant the floor cap: leases off, a clamp, ISOLATE_N, or the instant of a release (R498, R505, R514, R663)? -/
def Dev.grantsHeld (d : Dev) : Bool :=
  d.fld Reg.ORG_CTRL F.ORG_CTRL_LEASE_EN == 0 || d.clamp || d.isolateN || d.org.relAt == some d.clock

/-- The grants of all Pavilions for their demands, within a budget (R501). -/
def Dev.grants (d : Dev) (b : Nat) (ds : List Nat) : List Nat := if d.grantsHeld then List.replicate 160 d.floorCap else grantsOf ds d.floorCap b

/-- The most a governor may come to enforce in this period: its lease, or the higher grant that waits for it. -/
def Dev.enforced (d : Dev) (p : Nat) : Nat := ((d.org.higher.filter (fun e => e.1 == p)).map Prod.snd).foldl max (d.pav p).lease

/-- The first lease of a newly bound Pavilion with demand D_p: what the other 159 leave of the budget of the latest period, and never
less than it has already (R46, R497, R501, R504). -/
def Dev.firstGrant (d : Dev) (p dm : Nat) : Nat :=
  if d.grantsHeld then d.floorCap
  else
    let room := d.org.budget - (((List.range 160).filter (· != p)).map d.enforced).sum
    max (min dm room) (min d.floorCap (d.pav p).lease)

/-- Send a grant, or hold it where it is higher than the lease and a lower grant was sent less than 10 µs ago, or other higher ones
still wait (R504). -/
def Dev.grantTurn (d : Dev) (p g : Nat) : Dev :=
  let soon := match d.org.lowAt with | some t => decide (d.clock < t + 10) | none => false
  let others := d.org.higher.filter (fun e => e.1 != p)
  if (d.pav p).lease < g ∧ (soon = true ∨ d.org.higher ≠ []) then { d with org := { d.org with higher := others ++ [(p, g)] } }
  else ({ d with org := { d.org with higher := others } } : Dev).sendGrant p g

/-- NEW_PAVILION_LEASE (R404): the active core grants a newly bound Pavilion its first lease without waiting for the lease period, by
R499 and R500 from its demand now, within what the others leave of the period's budget. -/
def execNewPavilionLease (p : Pv) (s : State) : Host.Outcome State Fault Refusal := onDev s fun d =>
  if (d.pav p.val).newLease && d.activeCore.isSome then
    let l := d.limitOf p.val (d.orgPav p.val).tlim
    let dm := d.demandOf p.val l
    let d := d.updOrgPav p.val (fun x => { x with limit := l, demand := dm })
    d.grantTurn p.val (d.firstGrant p.val dm)
  else d

/-- The flow request of a period, and the messages that follow a change (R493, Table 12-3). -/
def Dev.flowStep (d : Dev) (preq : Nat) : Dev :=
  let k := d.fld Reg.ORG_FLOW_CFG F.ORG_FLOW_CFG_K_FLOW
  let hi := 32 * d.fld Reg.ORG_FLOW_REQ F.ORG_FLOW_REQ_QMAX
  let lo := 32 * d.fld Reg.ORG_FLOW_REQ F.ORG_FLOW_REQ_QMIN
  let q := if d.fullFlow || k == 0 then hi else min hi (max lo (preq * 64 / k))
  let d := d.setFld Reg.ORG_FLOW_REQ F.ORG_FLOW_REQ_REQ q
  let d := { d with org := { d.org with pReq := preq } }
  let now := d.clock
  let far := fun (a b : Nat) => max a b - min a b
  let d := if 1024 < 10 * far q d.org.flowSent ∨ d.org.flowSentAt + 100000 ≤ now then
      let d := d.flowRequest
      { d with org := { d.org with flowSentAt := now } }
    else d
  if 10 ≤ far (preq / 16) d.org.capSent then
    let d := d.capRequest
    { d with org := { d.org with capSent := preq / 16 } }
  else d

/-- One lease period of the active core. -/
def Dev.leasePeriod (d : Dev) (metered : List Meter) : Dev :=
  let d : Dev := (List.range 160).foldl (fun (d : Dev) p =>
    let m := (metered.find? (fun x => x.p.val == p)).map (fun x => x.power.toNat)
    d.updOrgPav p (fun x => { x with meter := m.getD 0 })) d
  let (c, term) := d.ceiling
  let b := d.budget
  let d := { d with org := { d.org with ceil := c, budget := b } }
  let d := d.setReg Reg.ORG_CEIL (BitVec.ofNat 32 (c / 1024 + 65536 * (b / 16)))
  let d := d.setFld Reg.ORG_STATUS F.ORG_STATUS_CEIL_TERM term
  let d := d.warnWhen 5 0 (term == 5)
  let hot := d.hottest
  let d : Dev := (List.range 160).foldl (fun (d : Dev) p =>
    let t := d.newTlim hot p
    let l := d.limitOf p t
    let dm := d.demandOf p l
    let pc := d.pairCap p
    d.updOrgPav p (fun x => { x with tlim := t, limit := l, demand := dm, pairCap := pc })) d
  let ds := (List.range 160).map (fun p => (d.orgPav p).demand)
  let gs := d.grants b ds
  let up := (List.range 160).filterMap (fun p => let g := gs.getD p 0; if (d.pav p).lease < g then some (p, g) else none)
  let lower := (List.range 160).any (fun p => decide (gs.getD p 0 < (d.pav p).lease))
  let now := d.clock
  let d : Dev := (List.range 160).foldl (fun (d : Dev) p => let g := gs.getD p 0; if g ≤ (d.pav p).lease then d.sendGrant p g else d) d
  let d := { d with org := { d.org with higher := up, lowAt := if lower then some now else d.org.lowAt } }
  let hints := ((List.range 160).map d.hintPower).sum
  d.flowStep (max gs.sum (max ds.sum (hints / 4)) + 16 * d.fld Reg.ORG_RESERVE F.ORG_RESERVE_WATTS)

/-- LEASE_PERIOD (R493 to R504, R514, R663). -/
def execLeasePeriod (metered : List Meter) (s : State) : Host.Outcome State Fault Refusal := onDev s fun d =>
  if d.activeCore.isSome then d.leasePeriod metered else d

/-- HIGHER_GRANTS (R504): the grants that are higher than those they replace, 10 µs after the last lower one. -/
def execHigherGrants (s : State) : Host.Outcome State Fault Refusal := onDev s fun d =>
  if d.activeCore.isSome then
    let d' := d.org.higher.foldl (fun d e => d.sendGrant e.1 e.2) d
    { d' with org := { d'.org with higher := [] } }
  else d

/-- FLOW_FOLLOWING_ERROR (R494): the shortfall has stood above FE_LIMIT for FE_TIME, or at or below half of it. -/
def execFlowFollowingError (s : State) : Host.Outcome State Fault Refusal := onDev s fun d =>
  let short := d.fld Reg.ORG_FLOW_REQ F.ORG_FLOW_REQ_REQ - d.flow
  let lim := d.fld Reg.ORG_FLOW_CFG F.ORG_FLOW_CFG_FE_LIMIT * 1024
  if !d.org.flowFe && decide (lim < 100 * short) then ({ d with org := { d.org with flowFe := true } }).raiseWarn 0 28
  else if d.org.flowFe && decide (200 * short ≤ lim) then ({ d with org := { d.org with flowFe := false } }).endWarn 0
  else d

/-- CAP_BUS_TIMEOUT (R495): no announcement within 5 s. -/
def execCapBusTimeout (s : State) : Host.Outcome State Fault Refusal := onDev s fun d =>
  d.setFld Reg.ORG_BUS_CAP F.ORG_BUS_CAP_VALID 0

/-! ### Predictor runs (R507 to R510) -/

/-- PREDICTOR_RUN: an accepted model replaces the loaded one at the run boundary; a NaN output is replaced by 0 and raises
PRED_FAULT. -/
def execPredictorRun (s : State) : Host.Outcome State Fault Refusal := onDev s fun d =>
  let d := match d.org.nextModel with
    | some m => { d with org := { d.org with model := some m, nextModel := none } }
    | none => d
  match d.org.model with
  | none => d
  | some m =>
    if d.predRuns then
      let o := d.predOutputs m
      let d := { d with org := { d.org with run := some (o.map (fun c => if fpNan c then 0 else c)) } }
      if o.any fpNan then
        let now := d.clock
        ({ d with org := { d.org with predAt := some now } }).raiseWarn 7 0
      else d
    else d

/-- PREDICTOR_RUN_COMPLETE (R510): the outputs take effect at the next loop sample. -/
def execPredictorRunComplete (s : State) : Host.Outcome State Fault Refusal := onDev s fun d =>
  match d.org.run with
  | some o => { d with org := { d.org with run := none, ready := some o } }
  | none => d

/-- MR4_TEMPERATURE_READ (R230): a package's reading is forwarded to the Orangery, which holds it. -/
def execMr4TemperatureRead (pkg : Fin 20) (temp : BitVec 16) (s : State) : Host.Outcome State Fault Refusal := onDev s fun d =>
  { d with org := { d.org with pkgTemp := Tab.set 0 d.org.pkgTemp pkg.val temp } }

/-! ### Verification of valves (R546 to R548) -/

/-- The result of one check. -/
def Dev.verifyResult (d : Dev) (c : Nat) (ok : Bool) : Dev :=
  let x := d.chan c
  if ok then d.setChan c { x with verify := none, fails := 0, oks := min 3 (x.oks + 1), suspect := x.suspect && decide (x.oks + 1 < 3) }
  else
    let f := min 3 (x.fails + 1)
    let d' := d.setChan c { x with verify := none, fails := f, oks := 0, suspect := x.suspect || decide (f = 3) }
    if f = 3 ∧ !x.suspect then ((d'.raise (Reg.VDR_CH_EVT c 4)).raiseWarn 3 c).fire 50 c else d'

/-- Is the heat of a zone at least 20 W? Zones 0 to 7 by their grants; for zones 8 to 11 the manual gives no measure, and the
answer is free. -/
def Dev.heatOk (d : Dev) (z : Nat) : Dev × Bool :=
  if z < 8 then (d, decide (320 ≤ ((List.range 20).map (fun k => (d.pav (20 * z + k)).lease)).sum))
  else
    let (d, i) := d.takeFree
    (d, Config.freeChoice i % 2 == 1)

/-- VALVE_VERIFY (R546 to R548): the window of a valve's check has passed. -/
def execValveVerify (c : Cx) (s : State) : Host.Outcome State Fault Refusal := onDev s fun d =>
  let c := c.val
  match (d.chan c).verify with
  | none => d
  | some v =>
    if c = 12 ∨ c = 13 then d.verifyResult c (if v.closing then decide (d.flow < 512) else decide (820 ≤ d.flow))
    else
      let (d, heat) := d.heatOk c
      if heat && d.latched == 0 && !d.forced && !v.spoiled then
        let delta : Int := (d.fld Reg.VDR_VERIFY F.VDR_VERIFY_DELTA * 16 : Nat)
        let now := (d.coolTemp c).getD 0
        d.verifyResult c (decide (delta ≤ if v.closing then now - v.base else v.base - now))
      else d.updChan c (fun x => { x with verify := none })

/-! ### Heartbeat and isolation pins (R661 to R664, R693) -/

/-- TIMEOUT_MS in µs, limited to its range. -/
def Dev.hbTimeout (d : Dev) : Nat := 1000 * min 10000 (max 100 (d.fld Reg.SUN_HB_CFG F.SUN_HB_CFG_TIMEOUT_MS))

/-- HB_IN_EDGE (R661, R662, R693): a qualified edge; the third of a run of edges, each within TIMEOUT_MS of the one before,
clears HB_LOST. -/
def execHbInEdge (s : State) : Host.Outcome State Fault Refusal := onDev s fun d =>
  let near := match d.hb.last with | some t => decide (d.clock ≤ t + d.hbTimeout) | none => false
  let run := if near then min 3 (d.hb.run + 1) else 1
  let now := d.clock
  let d := { d with hb := ⟨some now, run⟩ }
  if d.hbLost && decide (3 ≤ run) && d.fld Reg.SUN_HB_CFG F.SUN_HB_CFG_EN == 1 then
    (d.setFld Reg.SUN_HB_STATUS F.SUN_HB_STATUS_HB_LOST 0).fire 33 0
  else d

/-- HB_LOST (R56, R518, R544, R661): no edge for TIMEOUT_MS; every valve opens and full flow is requested. -/
def execHbLost (s : State) : Host.Outcome State Fault Refusal := onDev s fun d =>
  if d.fld Reg.SUN_HB_CFG F.SUN_HB_CFG_EN = 1 ∧ !d.hbLost then
    let d := (d.setFld Reg.SUN_HB_STATUS F.SUN_HB_STATUS_HB_LOST 1).raise (Reg.SUN_HB_EVT 0)
    let d := { d with hb := { d.hb with run := 0 } }
    (d.forceOff.askFullFlow).fire 32 0
  else d

/-- ISOLATE_N_ASSERT (R52, R663): low for 10 µs; compute quiesces. -/
def execIsolateNAssert (s : State) : Host.Outcome State Fault Refusal := onDev s fun d =>
  if d.isolateN then d
  else ((d.setFld Reg.SUN_HB_STATUS F.SUN_HB_STATUS_ISOLATE 1).raise (Reg.SUN_HB_EVT 1)).fire 34 0

/-- ISOLATE_N_RELEASE (R663, R664): high for 1 ms; compute resumes unless another cause remains. -/
def execIsolateNRelease (s : State) : Host.Outcome State Fault Refusal := onDev s fun d =>
  if d.isolateN then (d.setFld Reg.SUN_HB_STATUS F.SUN_HB_STATUS_ISOLATE 0).fire 35 0 else d

end Sys2Proof.Machine
end

