-- ==== Sys2Proof/Machine/Trellis.lean ====
section
/-! DEFINITION. The Trellis (chapter 9): training of ports, link flits, frames in transit, streams, and the decisions on
received messages. A received frame first passes its stream (SEQUENCED_FRAME) and waits in `trl.inbox`; its own row then
applies it. -/

namespace Sys2Proof.Machine

/-! ### Ports (R434 to R439) -/

/-- Is a port enabled, with an assigned module ID (R434), ungated (R624), powered (Table 1-5), on its reference (R618) and not
in Lodge (R642)? -/
def Dev.portOn (d : Dev) (p : Nat) : Bool :=
  d.fld (Reg.TRL_PORT_CFG p) F.TRL_PORT_CFG_EN == 1 && d.moduleId != 0 && d.moduleId != 0xFFFF && !d.isGated p &&
    d.sup.link && d.refOk (portDomain p) && !d.inLodge

/-- A port starts from Detect at a width. -/
def Port.detect (x : Port) (lanes : BitVec 4) : Port := { x with st := .detect, lanes := 0, tryLanes := lanes }

/-- The width a port starts at: ×4, or, when it has narrowed and may run at ×2, ×2 (R437, R438). -/
def Dev.firstLanes (d : Dev) (p : Nat) : BitVec 4 :=
  if (d.port p).narrowed && d.fld (Reg.TRL_PORT_CFG p) F.TRL_PORT_CFG_X4_ONLY == 0 then 0x3 else 0xF

/-- Training ends in FAILED (R437). -/
def Dev.portFails (d : Dev) (p : Nat) : Dev := (d.updPort p (fun x => { x with st := .failed, lanes := 0 })).trainingEnds p

/-- A lane failed Detect or Equalise: the next width is tried, or the port is FAILED (R437). -/
def Dev.narrow (d : Dev) (p : Nat) : Dev :=
  let x := d.port p
  if d.fld (Reg.TRL_PORT_CFG p) F.TRL_PORT_CFG_X4_ONLY = 1 then d.portFails p
  else if x.tryLanes = 0xF then d.setPort p (x.detect 0x3)
  else if x.tryLanes = 0x3 then d.setPort p (x.detect 0xC)
  else d.portFails p

/-- A message of a post has its outcome: the block counts it no more, and events that waited behind its event go (R171, R216). -/
def Dev.postCounted (d : Dev) (b tgt : Nat) (ev : Bool) : Dev :=
  let d := d.updBlk b (fun x => { x with sendOut := Tab.upd 0 x.sendOut tgt (· - 1), evOut := if ev then x.evOut.filter (· != tgt) else x.evOut })
  if ev then d.sendPostEvs (b / 64) else d

/-- Does a message carry the event of a post? -/
def Origin.isPostEv : Origin → Bool
  | .postEv _ _ _ => true
  | _ => false

/-- What a message's sender suffers when its message ends as REMOTE (R216, R218, R435, R466). -/
def Dev.failOrigin (d : Dev) (o : Origin) : Dev :=
  match o with
  | .xfer q sq p id | .packet q sq p id _ => if (d.pav p).ownOf = some (q, sq) then d.deferFault p id .remote else d
  | .post b tgt g | .postEv b tgt g =>
    if (d.blk b).group = g then
      let d := d.updBlk b (fun x => { x with evLeft := x.evLeft.filter (fun e => e.1 != tgt) })
      let d := (d.postCounted b tgt o.isPostEv).postFails b 0x40
      if (d.blk b).st = .posting then d.postDone b tgt else d
    else d
  | .send q seq => d.finish q seq 0x40
  | .control | .reply => d

/-- The origins of the messages to a module that have no outcome: those of its stream, of streams closed while idle, and those that wait to
go again. -/
def Dev.originsTo (d : Dev) (m : BitVec 16) : List Origin :=
  (d.trl.orphans.filter (fun e => e.1 == m)).map (fun e => e.2.2.1) ++
  (match d.sendStream m with | some s => s.rewind.map Prod.snd | none => []) ++
  (d.trl.resend.filter (fun w => w.1 == m)).map (fun w => w.2.2.1)

/-- Close a send stream; every message to the module without an outcome ends as REMOTE, but CONTROL messages never do (R466, R467). -/
def Dev.closeRemote (d : Dev) (m : BitVec 16) : Dev :=
  let os := d.originsTo m
  let d := d.setSend m none
  os.foldl Dev.failOrigin { d with trl := { d.trl with
    orphans := d.trl.orphans.filter (fun e => e.1 != m), retried := d.trl.retried.filter (fun w => w.1 != m),
    resend := d.trl.resend.filter (fun w => w.1 != m) } }

/-- A destination is declared unreachable because its stream makes no progress (R466). -/
def Dev.unreach (d : Dev) (m : BitVec 16) : Dev := (d.unreachEvent m).closeRemote m

/-- The modules toward which a stream is open or a message has no outcome. -/
def Dev.toward (d : Dev) : List (BitVec 16) :=
  (d.trl.send.map (fun e => BitVec.ofNat 16 e.1) ++ d.trl.orphans.map Prod.fst ++ d.trl.resend.map Prod.fst).eraseDups

/-- Close what goes toward a module that no route reaches: it is declared unreachable, and where it has been, what was sent since ends as
REMOTE; the stream that CONTROL messages opened since stays (R466, R467). -/
def Dev.routeLost (d : Dev) (m : BitVec 16) : Dev :=
  if !d.trl.dead.contains m.toNat then ((d.declareDead m).closeRemote m).serveWaiting
  else if (d.originsTo m).any (fun o => o != .control && o != .reply) then (d.closeRemote m).serveWaiting
  else d

/-- Hold the routes against the ACTIVE ports (R466): a destination that a route reaches again is unreachable no more; one that none reaches
loses its stream. The streams that this closes make room for what waits for one (R447). -/
def Dev.checkRoutes (d : Dev) : Dev :=
  let d := { d with trl := { d.trl with dead := d.trl.dead.filter (fun m => d.routeDead (BitVec.ofNat 16 m)) } }
  (d.toward.filter d.routeDead).foldl Dev.routeLost d

/-- A port leaves ACTIVE (Table 9-17). -/
def Dev.leaveActive (d : Dev) (p : Nat) : Dev := if (d.port p).st = .active then (d.raise (Reg.TRL_PORT_DOWN_EVT p)).fire 43 p else d

/-- PORT_ENABLE (R434): EN written, but for a gated port, whose registers drop writes (R623); 1 starts training, 0 drives electrical idle. -/
def execPortEnable (port : Px) (en : Bool) (s : State) : Host.Outcome State Fault Refusal := onDev s fun d =>
  let p := port.val
  if d.isGated p then d else
  let d := d.setFld (Reg.TRL_PORT_CFG p) F.TRL_PORT_CFG_EN (bit en)
  let x := d.port p
  if en then (if x.st = .disabled ∧ d.portOn p then d.setPort p (x.detect 0xF) else d)
  else
    let d := (d.leaveActive p).setPort p { Port.reset with queue := x.queue }
    (d.setFld (Reg.TRL_PORT_CFG p) F.TRL_PORT_CFG_RETRAIN 0).checkRoutes

/-- A port leaves ACTIVE to retrain on some lanes, or loses lanes while it retrains: what it holds stays, its 5 ms begin (R438, R439), and a
destination may lose its last ACTIVE port (R466). -/
def Dev.toRetrain (d : Dev) (p : Nat) (lanes : BitVec 4) (narrowed : Bool) : Dev :=
  ((d.leaveActive p).updPort p (fun x => { x with st := .retrain, away := true, lanes := lanes, narrowed := narrowed })).checkRoutes

/-- RETRAIN (R438, Table 9-15): an ACTIVE port retrains at ×4 first; any other enabled port starts again from Detect. -/
def execRetrain (port : Px) (s : State) : Host.Outcome State Fault Refusal := onDev s fun d =>
  let p := port.val
  if !d.portOn p then d
  else
    let d := d.setFld (Reg.TRL_PORT_CFG p) F.TRL_PORT_CFG_RETRAIN 1
    let x := d.port p
    if x.st = .active ∨ x.st = .retrain then d.toRetrain p 0xF false
    else d.setPort p ({ x with narrowed := false }.detect 0xF)

/-- Are all lanes that are tried among the lanes given? -/
def lanesIn (tried got : BitVec 4) : Bool := tried &&& got == tried

/-- DETECT (Table 9-3): signal on every lane of the width being tried. -/
def execDetect (port : Px) (lanes : BitVec 4) (s : State) : Host.Outcome State Fault Refusal := onDev s fun d =>
  let x := d.port port.val
  if x.st = .detect ∧ lanesIn x.tryLanes lanes then d.setPort port.val { x with st := .equalise } else d

/-- DETECT_TIMEOUT (R437): a lane of the width tried had no signal within 10 ms. -/
def execDetectTimeout (port : Px) (lane : Fin 4) (s : State) : Host.Outcome State Fault Refusal := onDev s fun d =>
  let x := d.port port.val
  if x.st = .detect ∧ x.tryLanes.toNat.testBit lane.val then d.narrow port.val else d

/-- EQUALISE (Table 9-3, R437): the lanes that adapted; a lane of the width tried that did not makes the port narrow. -/
def execEqualise (port : Px) (lanes : BitVec 4) (s : State) : Host.Outcome State Fault Refusal := onDev s fun d =>
  let x := d.port port.val
  if x.st ≠ .equalise then d
  else if lanesIn x.tryLanes lanes then d.setPort port.val { x with st := .fecLock }
  else d.narrow port.val

/-- FEC_LOCK (Table 9-3, R433). -/
def execFecLock (port : Px) (s : State) : Host.Outcome State Fault Refusal := onDev s fun d =>
  let x := d.port port.val
  if x.st = .fecLock then d.setPort port.val { x with st := .exchange } else d

/-- The state an Exchange leads to: the first failing check, else ACTIVE (R436). -/
def Dev.exchangeState (d : Dev) (p : Nat) (peer : PeerInfo) : PortSt :=
  let reach := d.fld (Reg.TRL_PORT_CFG p) F.TRL_PORT_CFG_REACH
  if 2 ≤ reach ∨ peer.reach.toNat ≠ reach then .mismatch
  else if peer.id = 0 ∨ peer.id = 0xFFFF then .noId
  else if peer.id = d.moduleId then .conflict
  else .active

/-- Send link flits of the replay buffer again (R441), counted in TRL_PORT_REPLAY. -/
def Dev.resendFlits (d : Dev) (p : Nat) (fs : List Flit) : Dev :=
  (fs.foldl (fun d f => d.emit (.flit p f)) d).bump (Reg.TRL_PORT_REPLAY p) F.TRL_PORT_REPLAY_FLITS fs.length

/-- A port that left ACTIVE less than 5 ms ago is ACTIVE again: nothing was lost, and its replay buffer is replayed (R439). -/
def Dev.resume (d : Dev) (p : Nat) : Dev :=
  let x := d.port p
  ((d.setPort p { x with st := .active, away := false, replayTries := 0 }).trainingEnds p).resendFlits p x.replay

/-- Apply an Exchange; training ends with it. A port that becomes ACTIVE starts its link sequence and its credits afresh, but for one that
left ACTIVE less than 5 ms ago (R436, R439, R441, R442). -/
def Dev.exchange (d : Dev) (p : Nat) (peer : PeerInfo) : Dev :=
  let st := d.exchangeState p peer
  let x := { d.port p with peerId := peer.id, peerPort := peer.port }
  if st = .active then
    let y := { x with lanes := x.tryLanes, narrowed := x.tryLanes != 0xF }
    if x.away then (d.setPort p y).resume p
    else
      let c := Config.linkCredits + 1
      (d.setPort p { y with
        st := .active, rxSeq := 0, txSeq := 0, ackSent := 0, replay := [], replayTries := 0, nakAt := none, tail := [], rx := [], debt := [],
        cred0 := c, cred1 := c, owed0 := 0, owed1 := 0 }).trainingEnds p
  else (d.setPort p { x with st := st }).trainingEnds p

/-- EXCHANGE (R436). -/
def execExchange (port : Px) (peer : PeerInfo) (s : State) : Host.Outcome State Fault Refusal := onDev s fun d =>
  if (d.port port.val).st = .exchange then d.exchange port.val peer else d

/-- EXCHANGE_RETRY (R436). -/
def execExchangeRetry (port : Px) (peer : PeerInfo) (s : State) : Host.Outcome State Fault Refusal := onDev s fun d =>
  let st := (d.port port.val).st
  if (st = .mismatch ∨ st = .noId ∨ st = .conflict) ∧ d.portOn port.val then d.exchange port.val peer else d

/-- FAILED_RETRY (R437). -/
def execFailedRetry (port : Px) (s : State) : Host.Outcome State Fault Refusal := onDev s fun d =>
  let x := d.port port.val
  if x.st = .failed ∧ d.portOn port.val then d.setPort port.val (x.detect (d.firstLanes port.val)) else d

/-- DOWN_RETRY (R439): a port that has narrowed does not widen (R438). -/
def execDownRetry (port : Px) (s : State) : Host.Outcome State Fault Refusal := onDev s fun d =>
  let x := d.port port.val
  if x.st = .down ∧ d.portOn port.val then d.setPort port.val (x.detect (d.firstLanes port.val)) else d

/-- The lane pair of a lane. -/
def lanePair (lane : Nat) : BitVec 4 := if lane < 2 then 0x3 else 0xC

/-- A retrain because of a failing lane, whose pair is removed; a port that must run at ×4 has none left (R438). -/
def Dev.retrainLane (d : Dev) (p lane : Nat) : Dev :=
  let x := d.port p
  if x.st = .active ∨ x.st = .retrain then
    let only4 := d.fld (Reg.TRL_PORT_CFG p) F.TRL_PORT_CFG_X4_ONLY = 1
    d.toRetrain p (if only4 then 0 else x.lanes &&& ~~~ lanePair lane) (x.narrowed || !only4)
  else d

/-- LANE_LOCK_LOSS (R438). -/
def execLaneLockLoss (port : Px) (lane : Fin 4) (s : State) : Host.Outcome State Fault Refusal := onDev s fun d =>
  if (d.port port.val).lanes.toNat.testBit lane.val then d.retrainLane port.val lane.val else d

/-- LANE_ERROR_WINDOW (R438): a lane's corrected symbols in a 1 ms window. -/
def execLaneErrorWindow (port : Px) (lane : Fin 4) (symbols : Nat) (s : State) : Host.Outcome State Fault Refusal := onDev s fun d =>
  let d := d.bump (Reg.TRL_PORT_LANE_CE port.val lane.val) F.TRL_PORT_LANE_CE_SYMBOLS symbols
  if (d.reg (Reg.TRL_PORT_LANE_THRESH port.val)).toNat < symbols ∧ (d.port port.val).st = .active ∧
      (d.port port.val).lanes.toNat.testBit lane.val then
    d.retrainLane port.val lane.val
  else d

/-- RETRAIN_END (R438, R439): the port is ACTIVE again on the lanes that are left. -/
def execRetrainEnd (port : Px) (s : State) : Host.Outcome State Fault Refusal := onDev s fun d =>
  let x := d.port port.val
  if x.st = .retrain ∧ x.lanes ≠ 0 then d.resume port.val else d

/-- PORT_DOWN (R439, R466): a port has not returned to ACTIVE within 5 ms of leaving it. -/
def execPortDown (port : Px) (s : State) : Host.Outcome State Fault Refusal := onDev s fun d =>
  if (d.port port.val).away then (d.enterDown port.val).checkRoutes else d

/-! ### Link flits (R440, R441) -/

/-- LINK_NAK (R438, R441): the flits before the expected one are released, the rest are sent again; a flit that 8 replays have not brought
over makes the port retrain. -/
def execLinkNak (port : Px) (expect : BitVec 16) (s : State) : Host.Outcome State Fault Refusal := onDev s fun d =>
  let x := d.port port.val
  let rest := x.replay.dropWhile (fun f => f.seq != expect)
  if x.st ≠ .active ∨ rest = [] then d
  else
    let tries := if rest.length = x.replay.length then x.replayTries else 0
    if tries = 8 then d.toRetrain port.val x.lanes x.narrowed
    else (d.setPort port.val { x with replay := rest, replayTries := tries + 1 }).resendFlits port.val rest

/-! ### Frames in transit (R442, R443, R445, R456, R462 to R465) -/

/-- Do two ports stand in one routing group? -/
def Dev.sameGroup (d : Dev) (p q : Nat) : Bool :=
  (List.range 18).any (fun g => (d.reg (Reg.TRL_GROUP g)).toNat.testBit p && (d.reg (Reg.TRL_GROUP g)).toNat.testBit q)

/-- A frame for another module arrived on an ACTIVE port, on TV1 or TV0: it goes on, or is discarded and counted (R436, R442, R445, R456,
R462 to R465). -/
def Dev.forward (d : Dev) (port : Nat) (fr : Frame) (tv : Bool) : Dev :=
  if !d.portActive port ∨ fr.dst = d.moduleId ∧ fr.dst ≠ 0 then d
  else if fr.typ.toNat = 0 ∨ 8 < fr.typ.toNat ∨ fr.hops = 0 ∨ fr.dst = 0 ∨ fr.dst = 0xFFFF then d.raise Reg.TRL_DROP_EVT
  else
    match d.routePort fr with
    | none => d.raise Reg.TRL_DROP_EVT
    | some p => d.enqueue p { fr with hops := fr.hops - 1 } (d.dateline p || (tv && d.sameGroup port p))

/-- FRAME_FORWARD (R442, R445, R462 to R465). -/
def execFrameForward (port : Px) (fr : Frame) (tv : Bool) (s : State) : Host.Outcome State Fault Refusal := onDev s fun d => d.forward port.val fr tv

/-- FRAME_HOLD_TIMEOUT (R443): the queued frame of number k has waited 1 ms. -/
def execFrameHoldTimeout (port : Px) (k : Nat) (s : State) : Host.Outcome State Fault Refusal := onDev s fun d =>
  let x := d.port port.val
  if x.queue.any (fun e => e.1 == k) then
    (d.setPort port.val { x with queue := x.queue.filter (fun e => e.1 != k) }).raise Reg.TRL_DROP_EVT
  else d

/-- The ports send one period of link flits each (R459 to R461): part of the tick. -/
def Dev.portsSend (d : Dev) : Dev := (List.range 18).foldl Dev.portPeriod d

/-! ### Streams (R446 to R453) -/

/-- Is a frame a STREAM frame for this module with an operation? -/
def Dev.isStream (d : Dev) (fr : Frame) (op : Nat) : Bool := fr.typ == ftStream && fr.dst == d.moduleId && Frame.arg fr 0 8 == op

/-- A new receive stream at EXPECT 0, or FULL (R449). -/
def Dev.streamOpen (d : Dev) (fr : Frame) : Dev :=
  if !d.isStream fr 1 then d
  else if (d.recvStream fr.src).isNone ∧ 8192 ≤ d.trl.recv.length then d.inject (d.streamFrame fr.src 6 0 fr.nonce)
  else (d.setRecv fr.src (some ⟨fr.nonce, 0, 0, [], [], none⟩)).inject (d.streamFrame fr.src 2 0 fr.nonce)

/-- STREAM_OPEN (R449). -/
def execStreamOpen (fr : Frame) (s : State) : Host.Outcome State Fault Refusal := onDev s fun d => d.streamOpen fr

/-- The stream is open and sends (R449). -/
def Dev.streamOpenAck (d : Dev) (fr : Frame) : Dev :=
  match d.sendStream fr.src with
  | none => d
  | some t =>
    if d.isStream fr 2 ∧ t.nonce = fr.nonce ∧ !t.isOpen then
      (d.setSend fr.src (some { t with isOpen := true, full := false, lastSent := d.clock })).pump fr.src
    else d

/-- STREAM_OPEN_ACK (R449). -/
def execStreamOpenAck (fr : Frame) (s : State) : Host.Outcome State Fault Refusal := onDev s fun d => d.streamOpenAck fr

/-- The receiver has no free stream: the OPEN waits to be tried again (R449). -/
def Dev.streamFull (d : Dev) (fr : Frame) : Dev :=
  match d.sendStream fr.src with
  | none => d
  | some t => if d.isStream fr 6 ∧ t.nonce = fr.nonce ∧ !t.isOpen then d.setSend fr.src (some { t with full := true }) else d

/-- STREAM_FULL (R449). -/
def execStreamFull (fr : Frame) (s : State) : Host.Outcome State Fault Refusal := onDev s fun d => d.streamFull fr

/-- STREAM_OPEN_RETRY (R449): 100 µs after FULL the stream is opened again. -/
def execStreamOpenRetry (m : BitVec 16) (s : State) : Host.Outcome State Fault Refusal := onDev s fun d =>
  match d.sendStream m with
  | none => d
  | some t => if t.full ∧ !t.isOpen then d.openStream m t.rewind else d

/-- Release the frames below a cursor; CONTROL and MSG_ACK messages end with their frames (R451, R452). -/
def SendStream.ack (t : SendStream) (expect : Word32) : SendStream :=
  match t.unack with
  | [] => t
  | f :: _ =>
    let n := (expect - f.seq).toNat
    if t.unack.length < n then t
    else
      let un := t.unack.drop n
      let live := fun (m : Word32 × Origin × List Frame) =>
        (m.2.1 != .control && m.2.1 != .reply) || un.any (fun f => f.msg == m.1) || t.left.any (fun f => f.msg == m.1)
      { t with unack := un, msgs := t.msgs.filter live }

/-- An acknowledgement up to EXPECT: frames are released, more are sent, and a stream that becomes quiet may make room (R447, R451, R452). -/
def Dev.streamAck (d : Dev) (fr : Frame) : Dev :=
  match d.sendStream fr.src with
  | none => d
  | some t =>
    if d.isStream fr 3 ∧ t.nonce = fr.nonce ∧ t.isOpen then
      ((d.setSend fr.src (some (t.ack (BitVec.ofNat 32 (Frame.arg fr 32 32))))).pump fr.src).serveWaiting
    else d

/-- STREAM_ACK (R447, R451, R452). -/
def execStreamAck (fr : Frame) (s : State) : Host.Outcome State Fault Refusal := onDev s fun d => d.streamAck fr

/-- Send every unacknowledged frame again, in order, each on a route picked afresh; or the OPEN of a stream that is not
open yet (R452). -/
def Dev.resendAll (d : Dev) (m : BitVec 16) : Dev :=
  match d.sendStream m with
  | none => d
  | some t =>
    if t.isOpen then t.unack.foldl Dev.inject d
    else if t.full then d
    else d.inject (d.streamFrame m 1 0 t.nonce)

/-- A NAK releases the frames before EXPECT, and the others go again (R452). -/
def Dev.streamNak (d : Dev) (fr : Frame) : Dev :=
  match d.sendStream fr.src with
  | none => d
  | some t =>
    if d.isStream fr 4 ∧ t.nonce = fr.nonce ∧ t.isOpen then
      ((d.setSend fr.src (some (t.ack (BitVec.ofNat 32 (Frame.arg fr 32 32))))).resendAll fr.src).pump fr.src
    else d

/-- STREAM_NAK (R452). -/
def execStreamNak (fr : Frame) (s : State) : Host.Outcome State Fault Refusal := onDev s fun d => d.streamNak fr

/-- A RESET: a newly opened stream, with new STREAM_SEQ and MSG values, on which every message without an outcome goes again (R452, log 79). -/
def Dev.streamReset (d : Dev) (fr : Frame) : Dev :=
  match d.sendStream fr.src with
  | none => d
  | some t => if d.isStream fr 5 ∧ t.nonce = fr.nonce ∧ t.isOpen then d.openStream fr.src t.rewind else d

/-- STREAM_RESET (R452). -/
def execStreamReset (fr : Frame) (s : State) : Host.Outcome State Fault Refusal := onDev s fun d => d.streamReset fr

/-- STREAM_RETRANSMIT (R452): RETX_US without an ACK that advances. -/
def execStreamRetransmit (m : BitVec 16) (s : State) : Host.Outcome State Fault Refusal := onDev s fun d => d.resendAll m

/-- STREAM_IDLE_CLOSE (R446, R447): a stream to or from a module with no unacknowledged frame, idle for 10 ms, is closed. -/
def execStreamIdleClose (m : StreamEnd) (s : State) : Host.Outcome State Fault Refusal := onDev s fun d =>
  if m.recv then
    match d.recvStream m.module with
    | some t => if t.sinceAck = 0 then d.setRecv m.module none else d
    | none => d
  else (d.closeQuiet m.module).serveWaiting

/-- UNREACH_TIMEOUT (R466): no progress for UNREACH_MS while frames were resent. -/
def execUnreachTimeout (m : BitVec 16) (s : State) : Host.Outcome State Fault Refusal := onDev s fun d =>
  match d.sendStream m with
  | some t => if t.quiet then d else (d.unreach m).serveWaiting
  | none => d

/-- A sequenced frame arrives at its stream; a frame for module 0 or 0xFFFF is discarded and counted (R445, R450, R451, R456, R465). -/
def Dev.sequenced (d : Dev) (fr : Frame) : Dev :=
  if fr.dst = 0 ∨ fr.dst = 0xFFFF then d.raise Reg.TRL_DROP_EVT
  else if fr.dst ≠ d.moduleId ∨ fr.typ = ftStream then d
  else if fr.typ.toNat = 0 ∨ 8 < fr.typ.toNat then d.raise Reg.TRL_DROP_EVT
  else
    match d.recvStream fr.src with
    | none => d.inject (d.streamFrame fr.src 5 0 fr.nonce)
    | some r =>
      if r.nonce ≠ fr.nonce then d.inject (d.streamFrame fr.src 5 0 fr.nonce)
      else if fr.seq = r.expect then
        let n := r.sinceAck + 1
        let r := { r with expect := r.expect + 1, sinceAck := n % 64 }
        let d := d.setRecv fr.src (some r)
        let d := { d with trl := { d.trl with inbox := d.trl.inbox ++ [fr] } }
        if n = 64 then d.inject (d.streamFrame fr.src 3 r.expect r.nonce) else d
      else if 1 ≤ (r.expect - fr.seq).toNat ∧ (r.expect - fr.seq).toNat ≤ 2 ^ 31 then
        d.inject (d.streamFrame fr.src 3 r.expect r.nonce)
      else if r.nakAt = some d.clock then d
      else (d.setRecv fr.src (some { r with nakAt := some d.clock })).inject (d.streamFrame fr.src 4 r.expect r.nonce)

/-- SEQUENCED_FRAME (R445, R450, R451, R456). -/
def execSequencedFrame (fr : Frame) (s : State) : Host.Outcome State Fault Refusal := onDev s fun d => d.sequenced fr

/-- A frame that a port has received whole: for this module to its stream, else on its way (R445, R449 to R452). -/
def Dev.frameIn (d : Dev) (port : Nat) (e : Frame × Bool) : Dev :=
  let fr := e.1
  if fr.dst ≠ d.moduleId ∨ fr.dst = 0 then d.forward port fr e.2
  else if fr.typ = ftStream then
    match Frame.arg fr 0 8 with
    | 1 => d.streamOpen fr
    | 2 => d.streamOpenAck fr
    | 3 => d.streamAck fr
    | 4 => d.streamNak fr
    | 5 => d.streamReset fr
    | 6 => d.streamFull fr
    | _ => d
  else d.sequenced fr

/-- LINK_FLIT (R440 to R442): in sequence and with a correct CRC it is accepted: its header releases link flits and returns credits, and
its frames are taken out, which owes the peer their credits. Any other is discarded and answered with NAK, but for those that follow the one
so answered in sequence; a flit whose CRC fails holds codewords that the FEC could not correct, and how many the manual does not say (log 90). -/
def execLinkFlit (port : Px) (flit : Flit) (s : State) : Host.Outcome State Fault Refusal := onDev s fun d =>
  let x := d.port port.val
  if x.st ≠ .active then d
  else if Flit.crcOk flit ∧ flit.seq = x.rxSeq then
    let (fs, rest, tv) := unpack 16 (Flit.tvs flit) (if x.rx.isEmpty then none else some x.rxTv) (x.rx ++ flit.data)
    let n1 := (fs.filter Prod.snd).length
    let x := x.takeHeader flit
    let x := { x with
      rxSeq := x.rxSeq + 1, nakAt := none, rx := rest, rxTv := tv, owed0 := x.owed0 + (fs.length - n1), owed1 := x.owed1 + n1 }
    fs.foldl (fun d e => d.frameIn port.val e) (d.setPort port.val x)
  else
    let next := x.nakAt.map (· + 1)
    if !Flit.crcOk flit then
      let (d, k) := d.takeFree
      ((d.bump (Reg.TRL_PORT_FEC_UE port.val) F.TRL_PORT_FEC_UE_CODEWORDS (Config.freeChoice k % 16)).setPort port.val
        { x with nakAt := some (next.getD x.rxSeq) }).emit (.nak port.val x.rxSeq)
    else if next = some flit.seq then d.setPort port.val { x with nakAt := next }
    else (d.setPort port.val { x with nakAt := some flit.seq }).emit (.nak port.val x.rxSeq)

/-- Acknowledge what arrived since the last ACK (R451): part of the tick, once a microsecond. -/
def Dev.ackStreams (d : Dev) : Dev :=
  d.trl.recv.foldl (fun d e =>
    match e.2 with
    | some r =>
      if r.sinceAck = 0 then d
      else
        let m := BitVec.ofNat 16 e.1
        (d.setRecv m (some { r with sinceAck := 0 })).inject (d.streamFrame m 3 r.expect r.nonce)
    | none => d) d

/-! ### Received messages (R453, R454, Table 9-7) -/

/-- What a frame addresses, for the order of R453: a Pavilion, a plot, or its message. -/
def frameKey (fr : Frame) : Nat × Nat :=
  match fr.typ.toNat with
  | 1 | 2 => (0, Frame.arg fr 0 8)
  | 3 => (1, 0)
  | 4 | 5 => (2, Frame.arg fr 30 11)
  | n => (3 + n, 0)

/-- Take an accepted frame out of the inbox when it is the next of its stream for its destination. -/
def Dev.takeFrame (d : Dev) (fr : Frame) (typ : Byte) : Option Dev :=
  let mine := d.trl.inbox.filter (fun f => f.src == fr.src && frameKey f == frameKey fr)
  if fr.typ = typ ∧ mine.head? = some fr ∧ !d.stalled then some { d with trl := { d.trl with inbox := d.trl.inbox.erase fr } } else none

/-- Rows 1 to 3 of Table 9-7; none when they pass. -/
def Dev.refusal (d : Dev) (a : Nat) (fr : Frame) : Option Outcome8 :=
  let al := d.allot a
  if a = 0 then some .access
  else if !al.modules.contains fr.src then some .access
  else if al.st = .clearing then some .retry
  else none

/-- The code of an outcome (Table 9-7). -/
def outcomeNum : Outcome8 → Nat
  | .landed => 0 | .discarded => 1 | .retry => 2 | .access => 3 | .range => 4 | .format => 5 | .memory => 6 | .noRoute => 3

/-- The outcome of a code. -/
def outcomeOf (n : Nat) : Outcome8 :=
  match n with
  | 0 => .landed | 1 => .discarded | 2 => .retry | 3 => .access | 4 => .range | 5 => .format | 6 => .memory | _ => .discarded

/-- The decision recorded for a message of which a frame has come before. -/
def Dev.recorded (d : Dev) (fr : Frame) : Option Outcome8 :=
  match d.recvStream fr.src with
  | some r => (r.decided.find? (fun e => e.1 == fr.msg)).map Prod.snd
  | none => none

/-- The decision recorded for a message, or a fresh one at OFFSET 0. -/
def Dev.decided (d : Dev) (fr : Frame) (fresh : Outcome8) : Outcome8 := (d.recorded fr).getD fresh

/-- Keep the decision of a message for its later frames, or return MSG_ACK with it at LAST (R454). -/
def Dev.concludeMsg (d : Dev) (fr : Frame) (o : Outcome8) : Dev :=
  let d := match d.recvStream fr.src with
    | some r =>
      let rest := r.decided.filter (fun e => e.1 != fr.msg)
      d.setRecv fr.src (some { r with decided := if fr.last then rest else rest ++ [(fr.msg, o)] })
    | none => d
  if fr.last then
    d.trlSend fr.src [d.mkFrame ftMsgAck fr.src fr.token (fr.msg.toNat + outcomeNum o * 2 ^ 32) []] .reply
  else d

/-- The landing range of a BED_DATA frame: does it leave the bed, or touch the code image of a running share (R168)? -/
def Dev.bedRefused (d : Dev) (fr : Frame) (p : Nat) : Bool :=
  let addr := Frame.arg fr 32 22 + fr.off.toNat
  bedOut addr (addr + fr.payload.length : Nat) || ((d.pav p).runs && (d.pav p).hitsCode addr (addr + fr.payload.length : Nat))

/-- May the data of an RSEND land: the group of the running share, and a landing ordinal above the highest landed (R360)? A post has no
landing ordinal. -/
def Dev.bedFresh (d : Dev) (fr : Frame) (p : Nat) : Bool :=
  let x := d.pav p
  let src := Frame.arg fr 8 8
  decide (0xC0 ≤ src) ||
  (match x.share with
  | some s => BitVec.ofNat 32 (Frame.arg fr 64 32) == s.group && decide ((x.srcMark fr.src src).landOrd < Frame.arg fr 96 32)
  | none => false)

/-- Table 9-7 for a BED_DATA message, at its frame of OFFSET 0. -/
def Dev.bedRow (d : Dev) (a : Nat) (fr : Frame) : Outcome8 :=
  match d.refusal a fr, d.pavOf a (Frame.arg fr 0 8) with
  | some o, _ => o
  | none, none => .access
  | none, some p => if d.bedRefused fr p then .range else if d.bedFresh fr p then .landed else .discarded

/-- The bytes of a BED_DATA frame land; the ordinal of an RSEND counts as landed with the last of them (R360). Bytes of a later frame go
nowhere where the bed does not take them, or where the share has changed since the decision (log 90). -/
def Dev.landBed (d : Dev) (fr : Frame) (p : Nat) : Dev :=
  let x := d.pav p
  let src := Frame.arg fr 8 8
  if !d.bedFresh fr p then d
  else
    let y := if d.bedRefused fr p then x else x.bedWrite (Frame.arg fr 32 22 + fr.off.toNat) fr.payload
    let y := if src < 0xC0 ∧ fr.last then y.setSrc { y.srcMark fr.src src with landOrd := Frame.arg fr 96 32 } else y
    d.setPav p (y.noteRx none)

/-- The event of a BED_DATA or EVENT frame (Table 3-17). -/
def Dev.landEvent (d : Dev) (fr : Frame) (p : Nat) : Dev × Outcome8 :=
  let bed := fr.typ = ftBedData
  let src := Frame.arg fr 8 8
  d.recvEvent p ⟨BitVec.ofNat 32 (Frame.arg fr 64 32), fr.src, src, Frame.arg fr 96 32, bed && decide (src < 0xC0),
    BitVec.ofNat 6 (Frame.arg fr 17 6), if bed then 1 else BitVec.ofNat 32 (Frame.arg fr 32 32), none⟩

/-- BED_DATA (R168, R360, R454): decided at OFFSET 0; its event is handled once the last frame has taken effect. -/
def execBedData (fr : Frame) (s : State) : Host.Outcome State Fault Refusal := onDev s fun d =>
  match d.takeFrame fr ftBedData with
  | none => d
  | some d =>
    let a := d.allotOfToken fr.token
    let o := d.decided fr (d.bedRow a fr)
    match d.pavOf a (Frame.arg fr 0 8) with
    | none => d.concludeMsg fr o
    | some p =>
      let d := if o = .landed then d.landBed fr p else d
      if (o = .landed ∨ o = .discarded) ∧ fr.last ∧ Frame.arg fr 16 1 = 1 then
        let (d, e) := d.landEvent fr p
        d.concludeMsg fr e
      else d.concludeMsg fr o

/-- EVENT (R170 to R176, R454). -/
def execEvent (fr : Frame) (s : State) : Host.Outcome State Fault Refusal := onDev s fun d =>
  match d.takeFrame fr ftEvent with
  | none => d
  | some d =>
    let a := d.allotOfToken fr.token
    match d.recorded fr, d.refusal a fr, d.pavOf a (Frame.arg fr 0 8) with
    | some o, _, _ => d.concludeMsg fr o
    | none, some o, _ => d.concludeMsg fr o
    | none, none, none => d.concludeMsg fr .access
    | none, none, some p =>
      let (d, o) := d.landEvent fr p
      d.concludeMsg fr o

/-- The bytes of a message so far, its latest frame included. -/
def Dev.partOf (d : Dev) (fr : Frame) : Bytes :=
  match d.recvStream fr.src with
  | some r => ((r.parts.filter (fun e => e.1 == fr.msg)).flatMap Prod.snd) ++ fr.payload
  | none => fr.payload

/-- Keep the bytes of an unfinished message, or drop them at LAST. -/
def Dev.keepPart (d : Dev) (fr : Frame) : Dev :=
  match d.recvStream fr.src with
  | some r =>
    d.setRecv fr.src (some { r with parts := if fr.last then r.parts.filter (fun e => e.1 != fr.msg) else r.parts ++ [(fr.msg, fr.payload)] })
  | none => d

/-- Table 9-7 for a CONTRIB message, at its frame of OFFSET 0, which holds the packet's header. While the allotment is CLEARING, a packet to a
block that clears or is not bound is refused under row 1 of Table 4-6, as Table 8-8 says; to any other block row 3 of Table 9-7 applies. -/
def Dev.contribFirst (d : Dev) (a : Nat) (fr : Frame) (k : Packet) : Dev × Outcome8 :=
  match d.refusal a fr with
  | some .retry => (d, if d.blkRefused a k.blk then .access else .retry)
  | some o => (d, o)
  | none =>
    match d.blkOf a k.blk with
    | none => (d, .access)
    | some b => d.packetFirst a b { k with blk := b }

/-- CONTRIB (R206 to R212, R454): the packet is decided at OFFSET 0, and an accepted one is counted when it is whole. -/
def execContrib (fr : Frame) (s : State) : Host.Outcome State Fault Refusal := onDev s fun d =>
  match d.takeFrame fr ftContrib with
  | none => d
  | some d =>
    let k := Packet.ofBytes (d.partOf fr)
    let d := d.keepPart fr
    let a := d.allotOfToken fr.token
    let (d, o) := match d.recorded fr with
      | some o => (d, o)
      | none => d.contribFirst a fr k
    let d := match d.blkOf a k.blk with
      | some b => if o = Outcome8.landed ∧ fr.last then d.packetLast a b { k with blk := b } else d
      | none => d
    d.concludeMsg fr o

/-- Plot bytes of one frame: none while the write waits; MEMORY when it is dropped (R454). Bytes of a later frame that lie outside the plot
go nowhere (log 90). -/
def Dev.landPlot (d : Dev) (a : Nat) (fr : Frame) : Dev × Option Outcome8 :=
  match d.plotMA a (BitVec.ofNat 64 (Frame.arg fr 0 41 + fr.off.toNat)) fr.payload.length with
  | none => (d, some .landed)
  | some ma =>
    match d.memWrite (.frame fr.src.toNat fr.msg.toNat fr.off.toNat) ma fr.payload with
    | (d, .wait) => (d, none)
    | (d, .bad) => (d, some .memory)
    | (d, .ok _) => (d, some .landed)

/-- Plot bytes of a frame land, and the message goes on with its outcome; bytes of a later frame after a dropped write may land, and the
outcome stays MEMORY. A frame whose write waits stays in the inbox. -/
def Dev.landMore (d : Dev) (a : Nat) (fr : Frame) (o : Outcome8) (after : Dev → Outcome8 → Dev) : Dev :=
  match d.landPlot a fr with
  | (e, none) => { e with trl := { e.trl with inbox := fr :: e.trl.inbox } }
  | (e, some o') => after e (if o = .memory then .memory else o')

/-- PLOT_DATA (R454). -/
def execPlotData (fr : Frame) (s : State) : Host.Outcome State Fault Refusal := onDev s fun d =>
  match d.takeFrame fr ftPlotData with
  | none => d
  | some d =>
    let a := d.allotOfToken fr.token
    let first := match d.refusal a fr with
      | some o => o
      | none => if (d.plotMA a (BitVec.ofNat 64 (Frame.arg fr 0 41)) fr.payload.length).isNone then .access else .landed
    match d.decided fr first with
    | .landed => d.landMore a fr .landed (fun d o => d.concludeMsg fr o)
    | .memory => d.landMore a fr .memory (fun d o => d.concludeMsg fr o)
    | o => d.concludeMsg fr o

/-- SEND_DATA (R361, R454): applied by the dedup window, which takes the sequence once every byte has landed. -/
def execSendData (fr : Frame) (s : State) : Host.Outcome State Fault Refusal := onDev s fun d =>
  match d.takeFrame fr ftSendData with
  | none => d
  | some d =>
    let a := d.allotOfToken fr.token
    let q := Frame.arg fr 41 12
    let seq := Frame.arg fr 64 64
    let first := match d.refusal a fr with
      | some o => o
      | none =>
        if (d.plotMA a (BitVec.ofNat 64 (Frame.arg fr 0 41)) fr.payload.length).isNone then .access
        else if (d.allot a).sendFresh fr.src q seq then .landed else .discarded
    let finish := fun (d : Dev) (o : Outcome8) =>
      let d := if fr.last ∧ o = .landed then d.updAllot a (fun t => t.sendApplied fr.src q seq) else d
      d.concludeMsg fr o
    match d.decided fr first with
    | .landed => d.landMore a fr .landed finish
    | .memory => d.landMore a fr .memory finish
    | o => d.concludeMsg fr o

/-! ### Outcomes at the sender (Table 9-7, R208, R218, R454, R455) -/

/-- The fault an outcome brings to a share. -/
def outcomeFault : Outcome8 → Option FaultCode
  | .access | .noRoute => some .access
  | .range => some .bedRange
  | .format => some .format
  | .memory => some .memory
  | .landed | .discarded | .retry => none

/-- A message of an origin is acknowledged with an outcome. -/
def Dev.msgDone (d : Dev) (m : BitVec 16) (o : Outcome8) (fs : List Frame) (og : Origin) : Dev :=
  let d := { d with trl := { d.trl with retried := d.trl.retried.filter (fun w => w != (m, fs, og)) } }
  let again := d.refused m fs og
  match og with
  | .xfer q sq p id =>
    if (d.pav p).ownOf ≠ some (q, sq) then d
    else match outcomeFault o with
    | some c => d.deferFault p id c
    | none =>
      if o = .retry then d.updPav p (fun x => x.updXfer id (fun t => { t with sent := false, retried := true }))
      else d.updPav p (fun x => x.dropXfer id)
  | .packet q sq p id k =>
    let d := if o = .landed ∨ o = .discarded then
        d.contributed ((d.allot (d.qAllot q)).modules.idxOf m) (Packet.ofBytes (fs.flatMap (·.payload))) else d
    if (d.pav p).ownOf ≠ some (q, sq) then d
    else match outcomeFault o with
    | some c => d.deferFault p id c
    | none =>
      d.updPav p (fun x => x.updXfer id (fun t =>
        { t with pkSent := t.pkSent.filter (· != k), pkts := if o = .retry then t.pkts else t.pkts.filter (fun e => e.1 != k) }))
  | .post b tgt g | .postEv b tgt g =>
    if (d.blk b).group ≠ g then d
    else if o = .retry then again
    else
      let d := d.postCounted b tgt og.isPostEv
      match postStatus o with
      | some st =>
        let d := d.postFails b st
        if (d.blk b).st = .posting then d.postDone b tgt else d
      | none => d
  | .send q seq =>
    match o with
    | .landed | .discarded => d.finish q seq 0
    | .retry => again
    | .memory => d.finish q seq 0x50
    | _ => d.finish q seq 0x31
  | .control | .reply => d

/-- Take the message of a number that a module acknowledges out of the messages that wait for an outcome: those of a stream that was closed
came first (R446, R454). -/
def Dev.takeMsg (d : Dev) (m : BitVec 16) (n : Nat) : Option (Dev × Origin × List Frame) :=
  match d.trl.orphans.find? (fun e => e.1 == m && e.2.1.toNat == n) with
  | some e => some ({ d with trl := { d.trl with orphans := d.trl.orphans.erase e } }, e.2.2.1, e.2.2.2)
  | none =>
    match d.sendStream m with
    | none => none
    | some t =>
      match t.msgs.find? (fun k => k.1.toNat == n) with
      | none => none
      | some k => some (d.setSend m (some { t with msgs := t.msgs.filter (fun e => e.1 != k.1) }), k.2.1, k.2.2)

/-- MSG_ACK (R454). -/
def execMsgAck (fr : Frame) (s : State) : Host.Outcome State Fault Refusal := onDev s fun d =>
  match d.takeFrame fr ftMsgAck with
  | none => d
  | some d =>
    match d.takeMsg fr.src (Frame.arg fr 0 32) with
    | none => d
    | some (d, og, fs) => d.msgDone fr.src (outcomeOf (Frame.arg fr 32 8)) fs og

/-! ### CONTROL messages (R221, R224, R364 to R368, R412, R413) -/

/-- Take a CONTROL frame of a subtype. -/
def Dev.takeControl (d : Dev) (fr : Frame) (sub : Nat) : Option Dev :=
  if Frame.arg fr 0 8 = sub then d.takeFrame fr ftControl else none

/-- The fields of a CONTROL frame: block, queue, group, sequence. -/
def ctlBlk (fr : Frame) : Nat := Frame.arg fr 16 10
def ctlQueue (fr : Frame) : Nat := Frame.arg fr 26 12
def ctlGroup (fr : Frame) : Word32 := BitVec.ofNat 32 (Frame.arg fr 64 32)
def ctlSeq (fr : Frame) : Nat := leNat (fr.payload.take 8)

/-- Answer a CONTROL frame with its fields. -/
def Dev.ctlReply (d : Dev) (fr : Frame) (sub result : Nat) : Dev :=
  d.control fr.src fr.token sub result (ctlBlk fr) (ctlQueue fr) (ctlGroup fr) (ctlSeq fr)

/-- PROBE (R221, R413): COMMITTED when the block is COMMITTED or carries a newer group, else PENDING. DESIGN CHOICE (log 66): a block not
bound in a bound allotment answers COMMITTED; the manual speaks only of an allotment that is not bound. -/
def execProbe (fr : Frame) (s : State) : Host.Outcome State Fault Refusal := onDev s fun d =>
  match d.takeControl fr 1 with
  | none => d
  | some d =>
    let a := d.allotOfToken fr.token
    let ok := match d.blkOf a (ctlBlk fr) with
      | none => true
      | some b => d.blkCommitted b (ctlGroup fr)
    d.ctlReply fr 2 (if ok then 1 else 2)

/-- PROBE_REPLY (R220, R221). -/
def execProbeReply (fr : Frame) (s : State) : Host.Outcome State Fault Refusal := onDev s fun d =>
  match d.takeControl fr 2 with
  | none => d
  | some d =>
    if Frame.arg fr 8 8 ≠ 1 then d
    else
      let al := d.allot (d.allotOfToken fr.token)
      d.updExec (ctlQueue fr) (ctlSeq fr) (fun e =>
        { e with contribs := e.contribs.map (fun (k : ContribMark) =>
          if al.modules[k.module]? = some fr.src ∧ k.blk = ctlBlk fr ∧ k.group = ctlGroup fr then { k with done := true } else k) })

/-- DONE (R365, R412, R413): the home counts and answers. -/
def execDone (fr : Frame) (s : State) : Host.Outcome State Fault Refusal := onDev s fun d =>
  match d.takeControl fr 3 with
  | none => d
  | some d =>
    let a := d.allotOfToken fr.token
    if a = 0 then d.ctlReply fr 4 1
    else
      let (d, ok) := d.homeDone a (ctlGroup fr) (fr.src, ctlQueue fr, ctlSeq fr)
      d.ctlReply fr 4 (if ok then 1 else 2)

/-- DONE_REPLY (R366). -/
def execDoneReply (fr : Frame) (s : State) : Host.Outcome State Fault Refusal := onDev s fun d =>
  match d.takeControl fr 4 with
  | none => d
  | some d => if Frame.arg fr 8 8 = 1 then d.updExec (ctlQueue fr) (ctlSeq fr) (fun e => { e with gangDone := true }) else d

/-- REPLAY (R367, R368). -/
def execReplay (fr : Frame) (s : State) : Host.Outcome State Fault Refusal := onDev s fun d =>
  match d.takeControl fr 5 with
  | none => d
  | some d =>
    let a := d.allotOfToken fr.token
    if a = 0 then d else d.beginReplay a (ctlGroup fr)

/-- READY (R367). -/
def execReady (fr : Frame) (s : State) : Host.Outcome State Fault Refusal := onDev s fun d =>
  match d.takeControl fr 6 with
  | none => d
  | some d =>
    let a := d.allotOfToken fr.token
    if a = 0 then d else d.homeReady a (ctlGroup fr) (fr.src, ctlQueue fr, ctlSeq fr)

/-- RESTART (R367). -/
def execRestart (fr : Frame) (s : State) : Host.Outcome State Fault Refusal := onDev s fun d =>
  match d.takeControl fr 7 with
  | none => d
  | some d =>
    let a := d.allotOfToken fr.token
    if a = 0 then d else d.gangRestart a (ctlGroup fr)

/-- REARM (R188, R224, R413): contributors to the block are replayed once all their shares have ended, but not one that was revoked or that a
program or environment fault stopped; where no allotment carries the token
it is answered COMPLETE, by a DONE_REPLY, the only subtype with that result (log 80). -/
def execRearm (fr : Frame) (s : State) : Host.Outcome State Fault Refusal := onDev s fun d =>
  match d.takeControl fr 8 with
  | none => d
  | some d =>
    let a := d.allotOfToken fr.token
    let al := d.allot a
    if a = 0 then d.ctlReply fr 4 1
    else
      ((d.execsOf a).filter (fun e => !e.2.issued && !e.2.revoked && e.2.faultRank.isNone && e.2.contribs.any (fun k =>
          al.modules[k.module]? == some fr.src && k.blk == ctlBlk fr && k.group == ctlGroup fr))).foldl (fun d e =>
        if e.2.complete then d.replayAll e.1 e.2.seq else d.updExec e.1 e.2.seq (fun x => { x with rearm := true })) d

/-! ### The module ID (R435, R467) -/

/-- TRL_MODULE_ID (R435, Table 9-10): a write that would change the ID while a port is enabled, or to 0xFFFF, is dropped whole; a change
closes every stream, and the messages without an outcome end as REMOTE. -/
def execTrlModuleId (v : Word32) (s : State) : Host.Outcome State Fault Refusal := onDev s fun d =>
  let lock := d.fld Reg.TRL_MODULE_ID F.TRL_MODULE_ID_LOCK = 1
  let busy := (List.range 18).any (fun p => d.fld (Reg.TRL_PORT_CFG p) F.TRL_PORT_CFG_EN == 1)
  let new := F.TRL_MODULE_ID_ID.get v
  let change := !lock && new != d.fld Reg.TRL_MODULE_ID F.TRL_MODULE_ID_ID
  if change && (busy || new == 0xFFFF) then d
  else
    let d := if F.TRL_MODULE_ID_LOCK.get v = 1 then d.setFld Reg.TRL_MODULE_ID F.TRL_MODULE_ID_LOCK 1 else d
    if change then
      let d := d.setFld Reg.TRL_MODULE_ID F.TRL_MODULE_ID_ID new
      let d := d.toward.foldl Dev.closeRemote d
      ({ d with trl := { d.trl with recv := [] } }).serveWaiting
    else d

end Sys2Proof.Machine
end

