-- ==== Sys2Proof/Machine/Regs.lean ====
section
/-! DEFINITION. What a read of a setup register returns (chapter 16): stored registers, registers that mirror other state,
closed gates (R623), the health report (R660) and a Sundial record's bytes (Table 15-7). -/

namespace Sys2Proof.Machine

/-- A register word from fields, each a lowest bit and a value. -/
def pack (l : List (Nat × Nat)) : Word32 := BitVec.ofNat 32 ((l.map (fun e => e.2 * 2 ^ e.1)).sum)
/-- A word of a 64-bit value: its low half or its high half. -/
def half (x k : Nat) : Word32 := BitVec.ofNat 32 (x / 2 ^ (32 * k))
/-- How many of a list satisfy a test. -/
def count {α : Type} (t : α → Bool) (l : List α) : Nat := (l.filter t).length
/-- A Nat of an optional one, with 0 for none. -/
def orZero (x : Option Nat) : Nat := x.getD 0

/-! ### Pavilions, Cisterns, memory -/

/-- STATE of PAV_STATUS (Table 3-20). DESIGN CHOICE (log 62): the table gives no priority among codes that apply together; the order here
is withdrawn, clearing, faulted, then the share's state (quiesced, stalled by a clamp, a debug halt or a missing clock, running),
then the binding. -/
def Dev.pavState (d : Dev) (p : Nat) : Nat :=
  let x := d.pav p
  if x.withdrawn then 7 else if x.clearing then 6 else if x.faulted then 5
  else if x.share.isSome then (if d.quiesced then 4 else if x.settling || x.halted || !d.computeOn then 3 else 2)
  else if x.allot = 0 then 0 else 1

/-- PAV_STATUS (Table 3-20). -/
def Dev.pavStatus (d : Dev) (p : Nat) : Word32 :=
  let x := d.pav p
  pack [(16, x.allot), (8, x.logical.getD 0xFF), (4, bit x.spare), (0, d.pavState p)]

/-- The code of a block state (Table 4-3). -/
def blkCode (s : BlkSt) : Nat :=
  match s with
  | .idle => 0 | .arming => 1 | .armed => 2 | .posting => 3 | .posted => 4 | .committed => 5 | .faulted => 6 | .clearing => 7

/-- CIS_STATUS (Table 4-7). -/
def Dev.cisStatus (d : Dev) (c : Nat) : Word32 :=
  let st := (List.range 64).map (fun b => blkCode (d.blk (64 * c + b)).st)
  pack [(7, bit (st.contains 6)), (0, count (fun s => decide (1 ≤ s ∧ s ≤ 4)) st)]

/-- The code of a package state (Table 5-3). -/
def pkgCode (s : PkgSt) : Nat := match s with | .good => 0 | .failed => 1 | .retired => 2 | .rebuilding => 3

/-- Owed granules (Table 5-9). -/
def Dev.owedCount (d : Dev) : Nat := d.nplots * 16384 - d.mem.clean.length

/-- MEM_STATUS (Table 5-8). DESIGN CHOICE (log 71): CLEARING shows owed granules once the start's training is complete, so that it reads
0 after reset as the table says, where every granule is owed. -/
def Dev.memStatus (d : Dev) : Word32 :=
  pack [(5, bit (d.mem.trained && d.owedCount != 0)), (4, bit ((List.range 20).any (fun k => (d.mem.pkg k).st == .rebuilding))), (3, bit d.mem.trained),
    (0, d.mem.health)]

/-! ### Queues and allotments -/

/-- The code of a queue state (Table 7-16). -/
def qCode (s : Qst) : Nat :=
  match s with
  | .disabled => 0 | .arming => 1 | .running => 2 | .paused => 3 | .held => 4 | .clearing => 5 | .error => 6

/-- The code of an allotment state (Table 8-2). -/
def altCode (s : AltSt) : Nat := match s with | .unbound => 0 | .bound => 1 | .clearing => 2

/-- ALT_STATE (Table 8-16). -/
def Dev.altState (d : Dev) (a : Nat) : Word32 :=
  let x := d.allot a
  let ep := fun (k : Option KeySlot) => match k with | some s => s.epoch.toNat | none => 0
  pack [(12, ep x.slot1), (11, bit x.slot1.isSome), (9, ep x.slot0), (8, bit x.slot0.isSome), (4, x.wepoch.toNat), (0, altCode x.st)]

/-- Who owns a vector, and which of its table entries it backs (Table 8-20). -/
def Dev.altVec (d : Dev) (v : Nat) : Word32 :=
  if v < 64 then pack [(0, v)]
  else match d.allots.find? (fun e => e.2.vecs.contains v) with
    | some e => pack [(24, e.1), (0, e.2.vecs.idxOf v)]
    | none => 0

/-- Half a word of ALT_PLOTMAP (Table 8-21). -/
def plotHalf (x : Option (Nat × Bool)) : Nat :=
  match x with
  | some (p, h) => 2 ^ 15 + bit h * 2 ^ 14 + p
  | none => 0

/-- Half a word of ALT_BLKMAP (Table 8-22). -/
def blkHalf (x : Option Nat) : Nat := match x with | some b => 2 ^ 15 + b | none => 0

/-! ### Trellis, Orangery, valve drive, thermal bus -/

/-- The code of a port state (Table 9-16). -/
def portCode (s : PortSt) : Nat :=
  match s with
  | .disabled => 0 | .detect => 1 | .equalise => 2 | .fecLock => 3 | .exchange => 4 | .active => 5 | .retrain => 6 | .failed => 7
  | .mismatch => 8 | .noId => 9 | .conflict => 10 | .down => 11

/-- WIDTH of a port from its lanes. -/
def portWidth (lanes : BitVec 4) : Nat := if lanes = 0xF then 2 else if lanes = 0 then 0 else 1

/-- TRL_PORT_STATUS (Table 9-16). -/
def Dev.portStatus (d : Dev) (p : Nat) : Word32 :=
  let x := d.port p
  pack [(16, x.peerId.toNat), (11, x.peerPort.toNat), (7, x.lanes.toNat), (5, portWidth x.lanes), (0, portCode x.st)]

/-- ORG_STATUS (Table 10-11). HB_LOST mirrors SUN_HB_STATUS, whose reset value is 1 (R661), so that it reads 1 at reset, where Table 10-11 gives
0 (log 39). -/
def Dev.orgStatus (d : Dev) : Word32 :=
  let standby := match d.activeIx with | some k => d.coreSt (otherCore k) == 1 | none => d.coreSt 0 == 1 || d.coreSt 1 == 1
  pack [(31, d.fld Reg.ORG_STATUS F.ORG_STATUS_ACTIVE_CORE), (30, bit standby), (7, bit d.clamp), (6, bit d.quiesced), (5, bit d.predRuns), (4, bit d.hbLost),
    (0, d.fld Reg.ORG_STATUS F.ORG_STATUS_CEIL_TERM)]

/-- ORG_PRED_STATUS (Table 10-12); 0 while the predictor is gated (R624). -/
def Dev.predStatus (d : Dev) : Word32 :=
  let ver := match d.org.model with | some b => blobNat b 4 2 | none => 0
  pack [(31, bit d.org.model.isSome), (16, d.fld Reg.ORG_PRED_STATUS F.ORG_PRED_STATUS_RESULT), (0, ver)]

/-- A forecast as 16 bits, two's complement; 0 without one. -/
def fcBits (x : Option Int) : Nat := match x with | some v => toTwos 16 v | none => 0

/-- ORG_SENSOR (Table 10-14). -/
def Dev.sensorReg (d : Dev) (n : Nat) : Word32 :=
  let x := d.sensor n
  let leak := if 31 ≤ n ∧ n ≤ 34 then (match x.leak with | .dry => 0 | .wet => 1 | .fault => 2) else 0
  pack [(31, bit x.excl), (30, bit x.suspect), (29, bit (hasPair n && (d.spair (pairLow n)).flag)), (28, bit x.isOpen), (26, leak), (0, x.value)]

/-- ORG_PAV (Table 10-15). -/
def Dev.orgPavReg (d : Dev) (p : Nat) : Word32 :=
  let x := d.orgPav p
  pack [(16, x.limit), (15, bit (decide (x.tlim < d.leaseMax))), (14, bit (d.org.kwLoad.contains p)), (13, bit x.pairCap), (0, x.demand)]

/-- The code of a channel state (Table 11-8). -/
def chCode (s : ChSt) : Nat :=
  match s with
  | .idle => 0 | .run => 1 | .defer => 2 | .tripped => 3 | .lockout => 4 | .openLoad => 5 | .fault => 6
/-- The code of a phase (Table 11-4). -/
def phCode (s : ChPhase) : Nat := match s with | .none => 0 | .boost => 1 | .hold => 2 | .release => 3

/-- VDR_CH_STATUS (Table 11-8). -/
def Dev.chStatus (d : Dev) (c : Nat) : Word32 :=
  let x := d.chan c
  pack [(28, chCode x.st), (26, phCode x.phase), (25, bit x.suspect), (16, x.pc), (0, x.target)]

/-- Bytes of a received frame as a word. -/
def wordAt (bs : Bytes) (i : Nat) : Word32 := BitVec.ofNat 32 (leNat ((bs.drop (4 * i)).take 4))

/-- TBC_RX_HDR (Table 12-5). -/
def Can.rxHdr (x : Can) : Word32 :=
  match x.fifo with
  | (f, _) :: _ => pack [(31, bit f.ide), (30, bit f.fdf), (29, bit f.brs), (0, f.id.toNat)]
  | [] => 0
/-- TBC_RX_INFO (Table 12-5). -/
def Can.rxInfo (x : Can) : Word32 :=
  match x.fifo with
  | (f, n) :: _ => pack [(31, bit f.rtr), (30, bit f.esi), (8, n), (0, f.dlc.toNat)]
  | [] => 0
/-- TBC_RX_DATA (Table 12-5). -/
def Can.rxData (x : Can) (i : Nat) : Word32 := match x.fifo with | (f, _) :: _ => wordAt f.data i | [] => 0

/-- r − 1 in units of 1/64 × 10^−6, rounded down. -/
def TimeLine.rate (x : TimeLine) : Int := ((x.num : Int) - (x.den : Int)) * 64000000 / (x.den : Int)

/-- TBC_TIME_STATUS (Table 12-8). -/
def Dev.timeStatus (d : Dev) : Word32 :=
  let rate := match d.time.line with | some y => toTwos 16 y.rate | none => 0
  let cyc :=
    if d.timeMaster then (if d.time.sentAt.isSome then (d.time.cycle - 1).toNat else 0)
    else match d.time.last with | some (c, _) => c.toNat | none => 0
  pack [(31, bit d.time.valid), (30, bit (d.timeMaster && d.busTx d.timeSrc)), (8, rate), (0, cyc)]

/-- TBC_PEER (Table 12-8). -/
def Dev.peerAge (d : Dev) (k : Nat) : Word32 :=
  match Tab.get none d.time.peers k with
  | some t => BitVec.ofNat 32 (min 0xFFFFFFFF ((d.clock - t) / 1000))
  | none => 0xFFFFFFFF

/-! ### Gatehouse and clocks -/

/-- The CHECK of a journal record: the first 16 bytes of SHAKE256 over bytes 0x00 to 0x2F (Table 13-6). -/
def journalCheck (r : JRec) : BitVec 128 :=
  (Config.shake256 (leBytes 4 r.seq ++ leBytes 1 r.key ++ leBytes 1 r.kind ++ leBytes 2 0 ++ leBytes 8 r.value ++ leBytes 32 r.keyHash.toNat)).setWidth 128

/-- Is a record valid: does its CHECK hold (R591)? -/
def JRec.ok (r : JRec) : Bool := r.check == journalCheck r

/-- The value of the valid record with the highest SEQ that satisfies a test (R591); 0 without one. -/
def Gate.latest (g : Gate) (t : JRec → Bool) : Nat :=
  let best := (g.journal.filter (fun r => t r && r.ok)).foldl (fun (b : Option JRec) r =>
    match b with
    | some x => if x.seq ≤ r.seq then some r else some x
    | none => some r) none
  match best with | some r => r.value | none => 0

/-- The bound B of a stateful key, by its number and the digest of its public key (R591). -/
def Gate.bound (g : Gate) (key : Nat) (pub : Bytes) : Nat :=
  g.latest (fun r => r.key == key && (r.kind == 1 || r.kind == 2) && r.keyHash == Config.shake256 pub)

/-- The bound of the identity key by its number alone, as it stands in flash before the device secret is known. -/
def Gate.identBound (g : Gate) : Nat := g.latest (fun r => r.key == 1 && (r.kind == 1 || r.kind == 2))
/-- The device identity public key; before the device secret is reconstructed that of the secret 0. -/
def Gate.identityKey (g : Gate) : Bytes := Config.identityKey (g.ds.getD 0)

/-- The SVN floor (R582). -/
def Gate.floor (g : Gate) : Nat := g.latest (fun r => r.kind == 3)

/-- Indices left to the identity key and to the attestation key (Table 13-13). -/
def Gate.remain (g : Gate) (k : Nat) : Nat :=
  if k = 0 then 65536 - g.ident else match g.attest with | some a => 1024 - a.next | none => 0

/-- GHM_STATUS (Table 13-13). -/
def Dev.ghmStatus (d : Dev) : Word32 :=
  let g := d.gate
  pack [(7, bit (decide (g.remain 0 < 512))), (6, bit g.attest.isSome), (5, bit g.owner.isSome), (0, g.phase)]

/-- BUSY of a mailbox: the Gatehouse holds a request from another one (R603, Tables 6-7, 13-13), or restarts (Table 14-5). -/
def Dev.mbxBusy (d : Dev) (mb : Mbx) : Bool := d.gate.wait.any (· != mb) || (d.boot.running && d.boot.kind == 3 && !d.gate.up)

/-- SVN of an image header (Table 13-3). -/
def imageSvn (b : Bytes) : Nat := blobNat b 8 4

/-- The nominal frequency in kHz of a clock that CKP_CLKOBS.SEL names; one the manual does not give is free; none when SEL is
reserved (R627). -/
def Dev.obsKHz (d : Dev) (sel : Nat) : Option Nat :=
  if sel = 0 then some 100000 else if sel = 1 ∨ sel = 2 then some 156250 else if sel = 3 then some 25000
  else if sel = 4 then some 40000
  else if 0x20 ≤ sel ∧ sel < 0x30 then some 1600000
  else if 0x100 ≤ sel ∧ sel < 0x1A0 then some ((d.pav (sel - 0x100)).freq * 1000)
  else if (5 ≤ sel ∧ sel ≤ 7) ∨ (0x10 ≤ sel ∧ sel < 0x14) then some (Config.clockKHz sel)
  else none

/-- A register whose field reads 0 while it holds a reserved code (R14). The codes themselves act as their tables say: a reserved REACH fails
training, a reserved group of a route is group 31, a reserved SEL holds CLKOBS low (log 67). -/
def Dev.codeRead (d : Dev) (off : Nat) (f : Fld) (good : Nat → Bool) : Word32 :=
  let w := d.reg off
  if good (f.get w) then w else f.put w 0

/-- Does the output of CKP_CLKOBS exceed 100 MHz (R627)? -/
def Dev.tooFast (d : Dev) (w : Word32) : Bool :=
  F.CKP_CLKOBS_EN.get w == 1 &&
  (match d.obsKHz (F.CKP_CLKOBS_SEL.get w) with
   | some k => decide (100000 * (F.CKP_CLKOBS_DIV.get w + 1) < k)
   | none => false)

/-! ### Sundial and health -/

/-- The 256 bytes of a record without its CHECK: what CHECK covers. -/
def SunRec.head (r : SunRec) : Bytes :=
  leBytes 4 r.seq ++ leBytes 4 r.pcycle ++ leBytes 5 r.opsec ++ leBytes 1 r.trigger ++ leBytes 1 (64 * r.list + r.nreg) ++ leBytes 1 r.flags ++
    leBytes 6 r.nt48 ++ leBytes 2 r.gen ++ leBytes 4 r.ctx ++ leBytes 2 r.supp ++ leBytes 2 r.lost ++ leBytes 4 r.usec ++ List.replicate 24 0
/-- The 48 values of a record. -/
def SunRec.tail (r : SunRec) : Bytes := (List.range 48).flatMap (fun k => leBytes 4 (r.vals.getD k 0).toNat)
/-- A record as Table 15-7 lays it out. -/
def SunRec.bytes (r : SunRec) : Bytes :=
  r.head ++ leBytes 4 (Config.shake256 (r.head ++ r.tail)).toNat ++ r.tail

/-- FAILS of a core: its declarations in the last 24 hours. -/
def Dev.failsOf (d : Dev) (k : Nat) : Nat := count (fun t => decide (d.clock < t + 86400000000)) (d.coreRec k).fails

/-- SUN_HB_STATUS.AGE_MS. -/
def Dev.hbAge (d : Dev) : Nat := match d.hb.last with | some t => min 0xFFFF ((d.clock - t) / 1000) | none => 0xFFFF

/-- Is a channel in a state that the health report counts? -/
def Chan.unwell (x : Chan) : Bool := x.st == .tripped || x.st == .lockout || x.st == .openLoad || x.st == .fault || x.suspect

/-- Bytes 1 to 13 of the health report (Table 15-5). -/
def Dev.healthParts (d : Dev) : List Nat :=
  let ports := (List.range 18).filter (fun p => d.fld (Reg.TRL_PORT_CFG p) F.TRL_PORT_CFG_EN == 1)
  [d.coreSt 0, d.coreSt 1, d.mem.health, d.spares.length, count (fun p => (d.pav p).withdrawn) (List.range 160),
   count (fun p => !d.portActive p) ports, count (fun p => d.portActive p && portWidth (d.port p).lanes == 1) (List.range 18),
   count (fun e => e.2.excl) d.org.sensors, count (fun e => e.2.suspect) d.org.sensors, count (fun c => (d.chan c).unwell) (List.range 16),
   d.latched, d.org.warn, d.fld Reg.SUN_SELFTEST F.SUN_SELFTEST_FAIL]

/-- Bytes 14 and 15 of the health report. -/
def Dev.healthFlags (d : Dev) : Nat :=
  bit d.hbLost + 2 * bit d.isolated + 4 * bit d.quiesced + 8 * bit d.time.valid + 16 * bit (decide (d.gate.remain 0 < 512)) +
    32 * bit d.sun.frozenAt.isSome + 64 * bit (d.busOff 0) + 128 * bit (d.busOff 1) + 256 * bit d.vdr.railUv +
    512 * bit (d.fld Reg.CKP_CLK_STATUS F.CKP_CLK_STATUS_ON_FALLBACK != 0)

/-- The parts of a whole, healthy module: one core ACTIVE, the other in step, two spares held, nothing else to report (R660). -/
def Dev.whole (d : Dev) : Bool :=
  let l := d.healthParts
  (l.take 2 == [0, 1] || l.take 2 == [1, 0]) && l.drop 2 == [0, 2, 0, 0, 0, 0, 0, 0, 0, 0, 0] && (d.healthFlags == 0 || d.healthFlags == 8)

/-- Is health CRITICAL (R660)? -/
def Dev.critical (d : Dev) : Bool :=
  d.latched != 0 || d.mem.health == 3 || d.hbLost || (d.fld Reg.SUN_SELFTEST F.SUN_SELFTEST_FAIL).testBit 5 ||
    (d.coreSt 0 != 1 && d.coreSt 1 != 1 && d.pair.actFail)

/-- OVERALL (R660). -/
def Dev.overall (d : Dev) : Nat := if d.inLodge then 3 else if d.critical then 2 else if d.whole then 0 else 1

/-- The health report (Table 15-5). -/
def Dev.health (d : Dev) : Bytes := ((d.overall :: d.healthParts).map (BitVec.ofNat 8)) ++ leBytes 2 d.healthFlags

/-! ### The mirrored registers -/

/-- A register or a family of registers whose value is computed from other state: its base, the strides and counts of its
indices, and the value at indices i and j. -/
structure Mirror where
  base : Nat
  dims : List (Nat × Nat)
  val : Dev → Nat → Nat → Word32

/-- Mirrors of chapters 3 to 8. -/
def mirrors1 : List Mirror := [
  ⟨Reg.PAV_STATUS 0, [(65536, 160)], fun d p _ => d.pavStatus p⟩,
  ⟨Reg.PAV_OPPOINT 0, [(65536, 160)], fun d p _ => pack [(16, (d.pav p).lease), (0, (d.pav p).freq)]⟩,
  ⟨Reg.CIS_STATUS 0, [(65536, 16)], fun d c _ => d.cisStatus c⟩,
  ⟨Reg.CIS_BLOCK_STATE 0 0, [(65536, 16), (4, 64)], fun d c b =>
    let x := d.blk (64 * c + b)
    pack [(29, blkCode x.st), (16, x.count), (8, x.allot)]⟩,
  ⟨Reg.CIS_BLOCK_GROUP 0 0, [(65536, 16), (4, 64)], fun d c b => (d.blk (64 * c + b)).group⟩,
  ⟨Reg.MEM_IDENT, [], fun d _ _ => pack [(16, d.nplots), (0, if d.m1024 then 0x40 else 0x80)]⟩,
  ⟨Reg.MEM_STATUS, [], fun d _ _ => d.memStatus⟩,
  ⟨Reg.MEM_OWED, [], fun d _ _ => pack [(0, d.owedCount)]⟩,
  ⟨Reg.MEM_POISON, [], fun d _ _ => pack [(31, bit (decide (4096 ≤ d.mem.poison.length))), (0, d.mem.poison.length)]⟩,
  ⟨Reg.MEM_PKG_STATE 0, [(4, 20)], fun d k _ => pack [(30, pkgCode (d.mem.pkg k).st), (0, (d.mem.pkg k).reason)]⟩,
  ⟨Reg.MEM_LOST 0, [(4, 64)], fun d k _ => pack ((List.range 32).map (fun i => (i, bit (d.mem.isLost (32 * k + i)))))⟩,
  ⟨Reg.GLB_IDENT, [], fun d _ _ => pack [(16, if d.inLodge then 0x0A9F else 0x0A90), (8, if d.m1024 then 2 else 1)]⟩,
  ⟨Reg.GLB_STATUS, [], fun d _ _ =>
    pack [(16, d.overall), (7, bit d.hp.memActive), (6, bit d.hbLost), (5, bit d.quiesced), (4, bit d.clamp),
      (0, d.fld Reg.KDV_STATE F.KDV_STATE_MODE)]⟩,
  ⟨Reg.QCT_CFG 0, [(256, 4096)], fun d q _ => F.QCT_CFG_ALLOT.put (d.reg (Reg.QCT_CFG q)) (d.queue q).allot⟩,
  ⟨Reg.QCT_CTRL 0, [(256, 4096)], fun d q _ => pack [(31, bit ((d.queue q).arm.isSome || (d.queue q).armHeld)), (30, bit (d.queue q).disableReq)]⟩,
  ⟨Reg.QCT_STATE 0, [(256, 4096)], fun d q _ => let x := d.queue q; pack [(16, x.lqueue), (8, x.reason), (0, qCode x.st)]⟩,
  ⟨Reg.QCT_BUFFERED 0, [(256, 4096)], fun d q _ => pack [(0, (d.queue q).held.length)]⟩,
  ⟨Reg.QCT_ACCEPT_LO 0, [(256, 4096), (4, 2)], fun d q k => half (d.queue q).accept k⟩,
  ⟨Reg.QCT_COMMIT_LO 0, [(256, 4096), (4, 2)], fun d q k => half (d.queue q).c k⟩]

/-- Allotment 0 reads as all zeros (R431). -/
def ofAllot (a : Nat) (v : Word32) : Word32 := if a = 0 then 0 else v

/-- Mirrors of the ALT block (Tables 8-13 to 8-22). -/
def mirrors2 : List Mirror := [
  ⟨Reg.ALT_SUMMARY, [], fun d _ _ =>
    pack [(16, count (fun e => e.2.st == .clearing) d.allots), (0, count (fun e => e.2.st != .unbound) d.allots)]⟩,
  ⟨Reg.ALT_PORT_SHARE 0, [(4, 18)], fun d p _ => pack [(0, d.shareSum p)]⟩,
  ⟨Reg.ALT_STATE 0, [(64, 256)], fun d a _ => ofAllot a (d.altState a)⟩,
  ⟨Reg.ALT_SERIAL 0, [(64, 256)], fun d a _ => (d.allot a).serial⟩,
  ⟨Reg.ALT_TOKEN_LO 0, [(64, 256), (4, 2)], fun d a k => half (d.allot a).token.toNat k⟩,
  ⟨Reg.ALT_COUNT0 0, [(64, 256)], fun d a _ => pack [(16, (d.allot a).plots.length), (0, (d.allot a).pavs.length)]⟩,
  ⟨Reg.ALT_COUNT1 0, [(64, 256)], fun d a _ => pack [(16, (d.allot a).vecs.length), (0, (d.allot a).blocks.length)]⟩,
  ⟨Reg.ALT_COUNT2 0, [(64, 256)], fun d a _ => pack [(0, (d.allot a).queues.length)]⟩,
  ⟨Reg.ALT_MODULES 0, [(64, 256)], fun d a _ => 
    pack [(16, d.lmod (d.allot a)), (0, if (d.allot a).st == .unbound then 0 else (d.allot a).nmod)]⟩,
  ⟨Reg.ALT_PROT_BASE_LO 0, [(64, 256), (4, 2)], fun d a k => half (d.allot a).protBase.toNat k⟩,
  ⟨Reg.ALT_PROT_PAGES 0, [(64, 256)], fun d a _ => (d.allot a).protPages⟩,
  ⟨Reg.ALT_TAG_BASE_LO 0, [(64, 256), (4, 2)], fun d a k => half (d.allot a).tagBase.toNat k⟩,
  ⟨Reg.ALT_PAVMAP 0 0, [(256, 256), (4, 36)], fun d a w =>
    ofAllot a (pack ((List.range 4).map (fun k => (8 * k, (Tab.get none (d.allot a).pavs (4 * w + k)).getD 0xFF))))⟩,
  ⟨Reg.ALT_SHAREMAP 0 0, [(32, 256), (4, 5)], fun d a w =>
    pack ((List.range 4).map (fun k => (8 * k, if 4 * w + k < 18 then Tab.get 0 (d.allot a).shares (4 * w + k) else 0)))⟩,
  ⟨Reg.ALT_VEC 0, [(4, 4096)], fun d v _ => d.altVec v⟩,
  ⟨Reg.ALT_PLOTMAP 0 0, [(4096, 256), (4, 1024)], fun d a w =>
    ofAllot a (pack [(16, plotHalf (Tab.get none (d.allot a).plots (2 * w + 1))), (0, plotHalf (Tab.get none (d.allot a).plots (2 * w)))])⟩,
  ⟨Reg.ALT_BLKMAP 0 0, [(2048, 256), (4, 512)], fun d a w =>
    ofAllot a (pack [(16, blkHalf (Tab.get none (d.allot a).blocks (2 * w + 1))), (0, blkHalf (Tab.get none (d.allot a).blocks (2 * w)))])⟩]

/-- Mirrors of chapters 9 to 12. -/
def mirrors3 : List Mirror := [
  ⟨Reg.TRL_STATUS, [], fun d _ _ =>
    pack [(16, count (fun e => match e.2 with | some s => s.isOpen | none => false) d.trl.send), (0, d.trl.recv.length)]⟩,
  ⟨Reg.TRL_PORT_STATUS 0, [(64, 18)], fun d p _ => d.portStatus p⟩,
  ⟨Reg.TRL_PORT_CFG 0, [(64, 18)], fun d p _ => d.codeRead (Reg.TRL_PORT_CFG p) F.TRL_PORT_CFG_REACH (fun c => c != 3)⟩,
  ⟨Reg.TRL_ROUTE 0, [(4, 65536)], fun d g _ =>
    [F.TRL_ROUTE_G0, F.TRL_ROUTE_G1, F.TRL_ROUTE_G2, F.TRL_ROUTE_G3].foldl (fun (w : Word32) f =>
      let c := f.get w
      if 18 ≤ c ∧ c < 31 then f.put w 0 else w) (d.reg (Reg.TRL_ROUTE g))⟩,
  ⟨Reg.ORG_STATUS, [], fun d _ _ => d.orgStatus⟩,
  ⟨Reg.ORG_PRED_STATUS, [], fun d _ _ => d.predStatus⟩,
  ⟨Reg.ORG_PRED_FORECAST 0, [(4, 12)], fun d z _ => pack [(16, fcBits (d.forecast z 2)), (0, fcBits (d.forecast z 1))]⟩,
  ⟨Reg.ORG_SENSOR 0, [(4, 408)], fun d n _ => d.sensorReg n⟩,
  ⟨Reg.ORG_PAV 0, [(4, 160)], fun d p _ => d.orgPavReg p⟩,
  ⟨Reg.VDR_STATUS, [], fun d _ _ => pack [(5, bit d.forced), (4, bit d.vdr.railUv), (0, d.boostCount)]⟩,
  ⟨Reg.VDR_RAIL, [], fun d _ _ => pack [(0, d.vdr.railMv)]⟩,
  ⟨Reg.VDR_CH_STATUS 0, [(64, 16)], fun d c _ => d.chStatus c⟩,
  ⟨Reg.VDR_CH_MEAS 0, [(64, 16)], fun d c _ => pack [(16, (d.chan c).level), (0, min 0xFFF (d.measured c))]⟩,
  ⟨Reg.VDR_CH_CYCLES 0, [(64, 16)], fun d c _ => pack [(0, (d.chan c).cycles)]⟩,
  ⟨Reg.TBC_ERR 0, [(32768, 2)], fun d t _ => F.TBC_ERR_CFG_ERR.put (d.reg (Reg.TBC_ERR t)) (bit (d.cfgErr t))⟩,
  ⟨Reg.TBC_RX_STATUS 0, [(32768, 2)], fun d t _ => pack [(0, (d.can t).fifo.length)]⟩,
  ⟨Reg.TBC_RX_HDR 0, [(32768, 2)], fun d t _ => (d.can t).rxHdr⟩,
  ⟨Reg.TBC_RX_INFO 0, [(32768, 2)], fun d t _ => (d.can t).rxInfo⟩,
  ⟨Reg.TBC_RX_DATA 0 0, [(32768, 2), (4, 16)], fun d t i => (d.can t).rxData i⟩,
  ⟨Reg.TBC_FILT_ID 0 0, [(32768, 2), (8, 32)], fun d _ f =>
    match d.catFilters[f]? with | some id => pack [(31, 1), (0, id)] | none => 0⟩,
  ⟨Reg.TBC_FILT_MASK 0 0, [(32768, 2), (8, 32)], fun d _ f =>
    match d.catFilters[f]? with | some _ => 0x1FFFFFFF | none => 0⟩,
  ⟨Reg.TBC_NT_LO, [], fun d _ _ => half d.nt 0⟩,
  ⟨Reg.TBC_NT_HI, [], fun d _ _ => BitVec.ofNat 32 d.time.ntHi⟩,
  ⟨Reg.TBC_TIME_STATUS, [], fun d _ _ => d.timeStatus⟩,
  ⟨Reg.TBC_PEER 0, [(4, 2)], fun d k _ => d.peerAge k⟩]

/-- Mirrors of chapters 13 to 15. -/
def mirrors4 : List Mirror := [
  ⟨Reg.GHM_STATUS, [], fun d _ _ => d.ghmStatus⟩,
  ⟨Reg.GHM_SVN, [], fun d _ _ => match d.gate.run with | some b => BitVec.ofNat 32 (imageSvn b) | none => 0⟩,
  ⟨Reg.GHM_SVN_FLOOR, [], fun d _ _ => BitVec.ofNat 32 d.gate.floor⟩,
  ⟨Reg.GHM_XMSS_REMAIN 0, [(4, 2)], fun d k _ => pack [(0, d.gate.remain k)]⟩,
  ⟨Reg.GHM_MBX_CTRL, [], fun d _ _ => F.GHM_MBX_CTRL_BUSY.put (d.reg Reg.GHM_MBX_CTRL) (bit (d.mbxBusy .ghm))⟩,
  ⟨Reg.KDV_MBX_CTRL, [], fun d _ _ => F.KDV_MBX_CTRL_BUSY.put (d.reg Reg.KDV_MBX_CTRL) (bit (d.mbxBusy .kdv))⟩,
  ⟨Reg.CKP_CLKOBS, [], fun d _ _ => F.CKP_CLKOBS_TOO_FAST.put (d.codeRead Reg.CKP_CLKOBS F.CKP_CLKOBS_SEL (fun c => (d.obsKHz c).isSome)) (bit (d.tooFast d.clk.obs))⟩,
  ⟨Reg.CKP_START, [], fun d _ _ => d.reg Reg.KDV_STATE⟩,
  ⟨Reg.SUN_STATUS, [], fun d _ _ =>
    pack [(31, bit d.sun.frozenAt.isSome), (30, bit (decide (1024 ≤ d.sun.perm.length))), (16, d.sun.unflushed), (0, d.sun.ram.length)]⟩,
  ⟨Reg.SUN_SEQ, [], fun d _ _ => BitVec.ofNat 32 d.sun.next⟩,
  ⟨Reg.SUN_OPSEC_LO, [], fun d _ _ => half d.opsec 0⟩,
  ⟨Reg.SUN_OPSEC_HI, [], fun d _ _ => pack [(0, d.sun.opsecHi % 256)]⟩,
  ⟨Reg.SUN_PCYCLE, [], fun d _ _ => BitVec.ofNat 32 d.sun.pcycle⟩,
  ⟨Reg.SUN_PAIR_STATUS, [], fun d _ _ =>
    pack [(24, min 255 (d.failsOf 1)), (16, min 255 (d.failsOf 0)), (4, d.coreSt 1), (0, d.coreSt 0)]⟩,
  ⟨Reg.SUN_HB_STATUS, [], fun d _ _ => F.SUN_HB_STATUS_AGE_MS.put (d.reg Reg.SUN_HB_STATUS) d.hbAge⟩,
  ⟨Reg.SUN_HEALTH 0, [(4, 4)], fun d i _ => wordAt d.health i⟩,
  ⟨Reg.SUN_RD_STATUS, [], fun d _ _ => pack [(31, bit d.sun.busy), (0, d.sun.place)]⟩,
  ⟨Reg.SUN_RD_DATA 0, [(4, 64)], fun d i _ => match d.sun.found with | some r => wordAt r.bytes i | none => 0⟩]

/-- Every mirrored register. -/
def mirrors : List Mirror := mirrors1 ++ mirrors2 ++ mirrors3 ++ mirrors4

/-- The indices of an offset within strides. -/
def dimsIx : List (Nat × Nat) → Nat → Nat × Nat
  | [], _ => (0, 0)
  | [(s, _)], r => (r / s, 0)
  | (s, _) :: (t, _) :: _, r => (r / s, r % s / t)

/-- Does a closed gate hide the register at an offset (R623, R624)? -/
def Dev.hidden (d : Dev) (off : Nat) : Bool :=
  (List.range 18).any (fun p => d.isGated p && decide (Reg.TRL_PORT_CFG p ≤ off) && decide (off < Reg.TRL_PORT_CFG (p + 1))) ||
  (d.isGated 18 && decide (0xE8000 ≤ off) && decide (off < 0xF0000)) ||
  (d.isGated 19 && decide (Reg.ORG_PRED_STATUS ≤ off) && decide (off < Reg.ORG_PRED_FORECAST 12))


/-- What a read of the register at an aligned offset returns (R9, R14, R16, R623). -/
def Dev.readReg (d : Dev) (off : Nat) : Word32 :=
  if d.hidden off then 0
  else
    match mirrors.find? (fun m => decide (m.base ≤ off) && dimsMatch m.dims (off - m.base)) with
    | some m => let (i, j) := dimsIx m.dims (off - m.base); m.val d i j
    | none => match regRowAt off with
      | some r => d.reg off &&& ~~~ (BitVec.ofNat 32 r.wo)
      | none => 0

/-- Is the lock bit of a register's block set (R10)? Every lock bit is bit 31 of its register (Table 16-1). -/
def Dev.isLocked (d : Dev) (r : RegRow) : Bool := match r.lock with | some l => (d.reg l).toNat.testBit 31 | none => false

/-- A write to a register by its access codes (R9, R10, R14, R16, R683): RW bits, RWL bits while unlocked, RW1S bits that
are 1, RW1C bits that are 1. -/
def Dev.writeCodes (d : Dev) (off : Nat) (v : Word32) : Dev :=
  match regRowAt off with
  | none => d
  | some r =>
    let old := d.reg off
    let m : Word32 := BitVec.ofNat 32 (r.rw ||| if d.isLocked r then 0 else r.rwl)
    let w := (old &&& ~~~ m) ||| (v &&& m)
    d.setReg off ((w ||| (v &&& BitVec.ofNat 32 r.rw1s)) &&& ~~~ (v &&& BitVec.ofNat 32 r.rw1c))

end Sys2Proof.Machine
end

