-- ==== Sys2Proof/Machine/Sundial.lean ====
section
/-! DEFINITION. The Sundial (R665 to R673): triggers, records, flash areas, freeze and lookups. -/

namespace Sys2Proof.Machine

/-- Is a trigger enabled (R666)? -/
def Dev.trigOn (d : Dev) (t : Nat) : Bool :=
  (d.reg (if t < 32 then Reg.SUN_TRIG_EN_LO else Reg.SUN_TRIG_EN_HI)).toNat.testBit (t % 32)

/-- The entries of a snapshot list up to the first invalid one (Table 15-11). -/
def Dev.sunList (d : Dev) (l : Nat) : List Word32 :=
  ((List.range 48).map (fun i => d.reg (Reg.SUN_LIST l i))).takeWhile (fun w => F.SUN_LIST_VALID.get w == 1)

/-- The BAR0 offset that a list entry names. -/
def entryOff (w : Word32) : Nat := 4 * F.SUN_LIST_OFFSET.get w

/-- Count records that are lost (R671, R672). -/
def Dev.sunLose (d : Dev) (n : Nat) : Dev :=
  let d := d.bump Reg.SUN_LOST F.SUN_LOST_RECORDS n
  { d with sun := { d.sun with lost := min 0xFFFF (d.sun.lost + n) } }

/-- Write one record to flash: the first 1,024 of the module's life to the permanent area, later ones to the circulating area,
whose oldest sector of 16 slots is erased when it is full (R670). -/
def Sun.store (x : Sun) (r : SunRec) : Sun :=
  if x.perm.length < 1024 then { x with perm := x.perm ++ [r] }
  else { x with circ := (if 8208 ≤ x.circ.length then x.circ.drop 16 else x.circ) ++ [r] }

/-- Write every unflushed record to flash in SEQ order (R669). -/
def Sun.flush (x : Sun) : Sun :=
  { (x.ram.drop (x.ram.length - x.unflushed)).foldl Sun.store x with unflushed := 0 }

/-- Add a record to the RAM buffer, which holds the 512 most recent (R669). -/
def Sun.push (x : Sun) (r : SunRec) : Sun :=
  let ram := x.ram ++ [r]
  { x with ram := ram.drop (ram.length - 512), unflushed := x.unflushed + 1, next := (x.next + 1) % 2 ^ 32 }

/-- The record of a trigger with given values (Table 15-7). -/
def Dev.sunRecord (d : Dev) (t : Nat) (ctx : Word32) (l : Nat) (vals : List Word32) (part : Bool) : SunRec :=
  { seq := d.sun.next, pcycle := d.sun.pcycle, opsec := d.opsec, trigger := t, list := l, nreg := vals.length,
    flags := bit d.time.valid + 2 * d.fld Reg.ORG_STATUS F.ORG_STATUS_ACTIVE_CORE + 4 * bit part, nt48 := if d.time.valid then d.nt else 0,
    gen := d.fld (Reg.SUN_LIST_GEN l) F.SUN_LIST_GEN_GEN, ctx := ctx.toNat, supp := Tab.get 0 d.sun.supp t, lost := d.sun.lost,
    usec := (d.clock - d.sun.since) % 1000000, vals := vals }

/-- Is a firing of a trigger within the holdoff of its latest record? Trigger 21 has none (R666). -/
def Dev.heldOff (d : Dev) (t : Nat) : Bool :=
  t != 21 && (match Tab.get none d.sun.last t with
    | some c => decide (d.clock < c + 1000 * d.fld (Reg.SUN_TRIG_CFG t) F.SUN_TRIG_CFG_HOLDOFF)
    | none => false)

/-- Make a record and flush as R669 says; what the hold-up flushes, R671 says. -/
def Dev.sunMake (d : Dev) (t : Nat) (r : SunRec) : Dev :=
  let now := d.clock
  let x : Sun := { d.sun.push r with last := Tab.set none d.sun.last t (some now), supp := Tab.set 0 d.sun.supp t 0, lost := 0 }
  let go := t != 21 && (d.fld (Reg.SUN_TRIG_CFG t) F.SUN_TRIG_CFG_FLUSH == 1 || decide (64 ≤ x.unflushed))
  { d with sun := if go then x.flush else x }

/-- A trigger fires: nothing while it is disabled, a count while records are frozen or held off or the buffer is full of
unflushed records, and otherwise a record of its values (R666, R671, R672). -/
def Dev.sunFire (d : Dev) (t : Nat) (ctx : Word32) (l : Nat) (vals : List Word32) (part : Bool) : Dev :=
  if !d.trigOn t then d
  else if d.sun.frozenAt.isSome ∧ t ≠ 21 then d.sunLose 1
  else if d.heldOff t then { d with sun := { d.sun with supp := Tab.upd 0 d.sun.supp t (fun n => min 0xFFFF (n + 1)) } }
  else if 512 ≤ d.sun.unflushed then
    let d := d.sunLose 1
    { d with sun := { d.sun with next := (d.sun.next + 1) % 2 ^ 32 } }
  else d.sunMake t (d.sunRecord t ctx l vals part)

/-- A trigger's firing with the snapshot list it names (R667): a register of a gated block reads 0 and sets PARTIAL. -/
def Dev.sunTrigger (d : Dev) (t : Nat) (ctx : Word32) : Dev :=
  let l := d.fld (Reg.SUN_TRIG_CFG t) F.SUN_TRIG_CFG_LIST
  let es := d.sunList l
  d.sunFire t ctx l (es.map (fun w => d.readReg (entryOff w))) (es.any (fun w => d.hidden (entryOff w)))

/-- Insert a fired trigger in increasing trigger order, after those of the same number. -/
def insFired (f : Fired) : List Fired → List Fired
  | [] => [f]
  | g :: r => if f.1 < g.1 then f :: g :: r else g :: insFired f r

/-- Make the records of every trigger that has fired, in increasing trigger order (R667): part of the tick. -/
def Dev.sunAll (d : Dev) : Dev :=
  (d.fired.foldl (fun l f => insFired f l) []).foldl (fun d f => d.sunTrigger f.1 f.2) { d with fired := [] }

/-- SUNDIAL_TRIGGER (R665 to R667): a trigger's event makes its record. -/
def execSundialTrigger (t : Fin 64) (ctx : Word32) (s : State) : Host.Outcome State Fault Refusal := onDev s fun d =>
  ({ d with fired := d.fired.erase (t.val, ctx) }).sunTrigger t.val ctx

/-- SUNDIAL_WRITE (R669, R670): the unflushed records go to flash. -/
def execSundialWrite (s : State) : Host.Outcome State Fault Refusal := onDev s fun d => { d with sun := d.sun.flush }

/-- LIST_CHANGE_RECORD (R668): 10 ms after the latest write to a list, trigger 61 records its entries. -/
def execListChangeRecord (l : Fin 4) (s : State) : Host.Outcome State Fault Refusal := onDev s fun d =>
  if (Tab.get none d.sun.changed l.val).isSome then
    let d := { d with sun := { d.sun with changed := Tab.set none d.sun.changed l.val none } }
    d.sunFire 61 (BitVec.ofNat 32 l.val) l.val (d.sunList l.val) false
  else d

/-- Begin or end a freeze (R672). -/
def Dev.setFreeze (d : Dev) (on : Bool) : Dev :=
  let now := d.clock
  let at_ := if on then (if d.sun.frozenAt.isSome then d.sun.frozenAt else some now) else none
  ({ d with sun := { d.sun with frozenAt := at_ } }).setFld Reg.SUN_CTRL F.SUN_CTRL_FREEZE (bit on)

/-- A write of SUN_CTRL (R672, Table 15-10). -/
def Dev.writeSunCtrl (d : Dev) (v : Word32) : Dev := (d.writeCodes Reg.SUN_CTRL v).setFreeze (F.SUN_CTRL_FREEZE.get v == 1)

/-- FREEZE: a write of SUN_CTRL (R672). -/
def execFreeze (v : Word32) (s : State) : Host.Outcome State Fault Refusal := onDev s fun d => d.writeSunCtrl v

/-- FREEZE_EXPIRY (R672): FREEZE_S seconds have passed. -/
def execFreezeExpiry (s : State) : Host.Outcome State Fault Refusal := onDev s fun d => if d.sun.frozenAt.isSome then d.setFreeze false else d

/-- A write of SUN_SOFT fires triggers 62 and 63 (R666, Table 15-10). -/
def Dev.sunSoft (d : Dev) (v : Word32) : Dev :=
  let c := F.SUN_SOFT_CONTEXT.get v
  let d := if v.toNat.testBit 0 then d.fire 62 c else d
  if v.toNat.testBit 1 then d.fire 63 c else d

/-- SUN_SOFT (R666). -/
def execSunSoft (v : Word32) (s : State) : Host.Outcome State Fault Refusal := onDev s fun d => d.sunSoft v

/-- A write of SUN_RD_SEQ starts a lookup (R673). -/
def Dev.sunLookup (d : Dev) (v : Word32) : Dev :=
  let d := d.setReg Reg.SUN_RD_SEQ v
  { d with sun := { d.sun with busy := true } }

/-- SUN_RD_SEQ (R673). -/
def execSunRdSeq (v : Word32) (s : State) : Host.Outcome State Fault Refusal := onDev s fun d => d.sunLookup v

/-- Where a record is found: RAM, permanent area, circulating area, or nowhere (Table 15-11). -/
def Sun.find (x : Sun) (seq : Nat) : Nat × Option SunRec :=
  match x.ram.find? (·.seq == seq), x.perm.find? (·.seq == seq), x.circ.find? (·.seq == seq) with
  | some r, _, _ => (1, some r)
  | none, some r, _ => (2, some r)
  | none, none, some r => (3, some r)
  | none, none, none => (0, none)

/-- SUNDIAL_LOOKUP_END (R673). -/
def execSundialLookupEnd (s : State) : Host.Outcome State Fault Refusal := onDev s fun d =>
  if d.sun.busy then
    let (w, r) := d.sun.find (d.reg Reg.SUN_RD_SEQ).toNat
    { d with sun := { d.sun with busy := false, place := w, found := r } }
  else d

/-- The hold-up's flush (R671): the trigger 21 record, the 40 most recent unflushed records to flash, OPSEC written; older
unflushed records are lost. -/
def Dev.sunHoldup (d : Dev) : Dev :=
  let d := d.sunAll.sunTrigger 21 (d.reg Reg.CKP_VIN &&& 0xFFFF)
  let x : Sun := d.sun
  let gone := x.unflushed - 40
  let y : Sun := { x with unflushed := min 40 x.unflushed }
  let d := d.sunLose gone
  { d with sun := { y.flush with lost := d.sun.lost, base := d.opsec, since := d.clock } }

end Sys2Proof.Machine
end

