-- ==== Sys2Proof/Machine/Pair.lean ====
section
/-! DEFINITION. The Orangery's core pair and its judge (R646 to R657), and the self-tests that run after the start (R658). -/

namespace Sys2Proof.Machine

/-- A core's number: 0 for A, 1 for B. -/
def coreIx (c : Core) : Nat := match c with | .a => 0 | .b => 1

/-- Change what the Gatehouse keeps of a core. -/
def Dev.updCore (d : Dev) (k : Nat) (f : CoreRec → CoreRec) : Dev :=
  if k = 0 then { d with pair := { d.pair with a := f d.pair.a } } else { d with pair := { d.pair with b := f d.pair.b } }

/-- The latest run of a self-test passed or failed (R658): its bit, and at a failure SUN_SELFTEST_EVT and trigger 60. -/
def Dev.selfTest (d : Dev) (b : Nat) (ok : Bool) : Dev :=
  let old := d.fld Reg.SUN_SELFTEST F.SUN_SELFTEST_FAIL
  let new := if ok then old &&& (127 - 2 ^ b) else old ||| 2 ^ b
  let d := d.setFld Reg.SUN_SELFTEST F.SUN_SELFTEST_FAIL new
  if ok then d else (d.raise Reg.SUN_SELFTEST_EVT).fire 60 new

/-- The number of consecutive reads that HB_MISS and MISMATCH_N give; 0 is taken as 1. -/
def Dev.hbMiss (d : Dev) : Nat := max 1 (d.fld Reg.SUN_PAIR_CFG F.SUN_PAIR_CFG_HB_MISS)
def Dev.mismatchN (d : Dev) : Nat := max 1 (d.fld Reg.SUN_PAIR_CFG F.SUN_PAIR_CFG_MISMATCH_N)

/-- A core is declared FAILED, or OUT at the third declaration within 24 hours (R649, R657). When it was active and the other
is STANDBY_OK, the swap's Isolate phase begins: no core's output reaches the outside until take-over (R651, R654). -/
def Dev.declareFailed (d : Dev) (k : Nat) : Dev :=
  let was := d.coreSt k
  let now := d.clock
  let d := d.updCore k (fun x => { x with miss := 0, fails := now :: x.fails.filter (fun t => decide (now < t + 86400000000)) })
  let d := d.setCoreSt k (if 3 ≤ (d.coreRec k).fails.length then 4 else 3)
  let take := if was = 0 ∧ d.coreSt (otherCore k) = 1 then some (otherCore k) else d.pair.takeOver.filter (· != k)
  let d : Dev := { d with pair := { d.pair with mism := 0, testDue := false, restarts := 0, matches_ := 0, takeOver := take } }
  (d.raise (Reg.SUN_PAIR_EVT 2)).fire 29 k

/-- Does a core compute: ACTIVE, STANDBY_OK or SYNCING (Table 15-2)? -/
def Dev.coreLive (d : Dev) (k : Nat) : Bool := decide (d.coreSt k ≤ 2)

/-- The two records of a pair in step differ, or agree (R650). The zone of the first difference is free. -/
def Dev.comparePair (d : Dev) (equal : Bool) : Dev :=
  let d := d.selfTest 0 equal
  if equal then { d with pair := { d.pair with mism := 0 } }
  else if d.mismatchN ≤ d.pair.mism + 1 then
    let d := { d with pair := { d.pair with mism := 0, testDue := true } }
    let (d, i) := d.takeFree
    let z := Config.freeChoice i % 13
    (d.raise (Reg.SUN_PAIR_EVT 1)).fire 28 (if z = 12 then 0xFF else z)
  else { d with pair := { d.pair with mism := d.pair.mism + 1 } }

/-- The records of the active core and of a SYNCING core, copied before this sample, agree or differ (R656). -/
def Dev.compareSync (d : Dev) (j : Nat) (equal : Bool) : Dev :=
  if equal then
    let d := { d with pair := { d.pair with matches_ := d.pair.matches_ + 1 } }
    if 1000 ≤ d.pair.matches_ then
      let d := { d with pair := { d.pair with matches_ := 0, restarts := 0, mism := 0 } }
      ((d.setCoreSt j 1).raise (Reg.SUN_PAIR_EVT 3)).fire 30 j
    else d
  else
    let d := { d with pair := { d.pair with matches_ := 0, copied := false, restarts := d.pair.restarts + 1 } }
    if 3 ≤ d.pair.restarts then d.declareFailed j else d

/-- CORE_RECORD_READ (R648 to R650, R654, R656): whether each core's heartbeat has risen and whether the records are equal. A
core that debug halts posts none. While the Gatehouse does not run it reads nothing (R57). -/
def execCoreRecordRead (hbA hbB equal : Bool) (s : State) : Host.Outcome State Fault Refusal := onDev s fun d =>
  if !d.gate.up then d
  else match d.activeIx with
    | none => d
    | some k =>
      let j := otherCore k
      let rose := (if k = 0 then hbA else hbB) && !(d.coreRec k).halt
      if rose then
        let d := d.updCore k (fun x => { x with miss := 0 })
        let same := equal && !(d.coreRec j).halt
        if d.coreSt j = 1 then d.comparePair same
        else if d.coreSt j = 2 ∧ d.pair.copied = true then d.compareSync j same
        else d
      else
        let d := d.updCore k (fun x => { x with miss := x.miss + 1 })
        if d.hbMiss ≤ (d.coreRec k).miss then d.declareFailed k else d

/-- Declare a core that failed a test FAILED, when it computes and the Gatehouse runs (R57, R649). -/
def Dev.failTested (d : Dev) (k : Nat) : Dev := if d.gate.up && d.coreLive k then d.declareFailed k else d

/-- A test's result concerns a core that computes. -/
def Dev.tested (d : Dev) (k : Nat) (r : Option Bool) : Option Bool := if d.coreLive k then r else none

/-- The active core has passed or failed a test (R660). -/
def Dev.noteActive (d : Dev) (r : Option Bool) : Dev :=
  match r with
  | some ok => { d with pair := { d.pair with actFail := !ok } }
  | none => d

/-- KNOWN_ANSWER_TEST (R649, R650): the result of each core that ran it. When a mismatch asked for it, both results decide. -/
def execKnownAnswerTest (passA passB : Option Bool) (s : State) : Host.Outcome State Fault Refusal := onDev s fun d =>
  let k := orZero d.activeIx
  let j := otherCore k
  let ra := d.tested k (if k = 0 then passA else passB)
  let rs := d.tested j (if k = 0 then passB else passA)
  let d := if ra.isSome || rs.isSome then d.selfTest 1 (ra != some false && rs != some false) else d
  let d := d.noteActive ra
  if d.pair.testDue && ra.isSome && rs.isSome then
    let d := { d with pair := { d.pair with testDue := false } }
    if ra = some false ∧ rs = some true then d.failTested k else d.failTested j
  else
    let d := if rs = some false then d.failTested j else d
    if ra = some false then d.failTested k else d

/-- The new active core applies the twelve outputs of the latest sample it computed (R651, R652). -/
def Dev.applyOutputs (d : Dev) : Dev :=
  if d.loopsHeld then d
  else (List.range 12).foldl (fun (d : Dev) z => if (d.zone z).on then d.applyZone z (d.qReg (Reg.ORG_ZONE_OUT z)) else d) d

/-- SWAP_TAKE_OVER (R651, R652). While the Gatehouse does not run, none takes place (R57). -/
def execSwapTakeOver (s : State) : Host.Outcome State Fault Refusal := onDev s fun d =>
  match d.pair.takeOver.filter (fun _ => d.gate.up) with
  | none => d
  | some k =>
    let d := { d with pair := { d.pair with takeOver := none, actFail := false } }
    (((d.setActive k).applyOutputs).raise (Reg.SUN_PAIR_EVT 0)).fire 27 k

/-- Is the core that is not active STANDBY_OK? -/
def Dev.standbyOk (d : Dev) : Bool := match d.activeIx with | some k => d.coreSt (otherCore k) == 1 | none => false

/-- A request to swap the cores at the next sample; ignored while the standby core is not STANDBY_OK (R655) or the Gatehouse does not
run (R57). -/
def Dev.reqSwap (d : Dev) : Dev :=
  if d.standbyOk && d.gate.up then { d with pair := { d.pair with swap := true } }.setFld Reg.SUN_PAIR_CTRL F.SUN_PAIR_CTRL_SWAP 1 else d

/-- SWAP (R655). -/
def execSwap (s : State) : Host.Outcome State Fault Refusal := onDev s fun d => d.reqSwap

/-- READMIT returns an OUT core to FAILED (R657). -/
def Dev.readmit (d : Dev) (k : Nat) : Dev := if d.coreSt k = 4 then d.setCoreSt k 3 else d

/-- READMIT (R657). -/
def execReadmit (core : Core) (s : State) : Host.Outcome State Fault Refusal := onDev s fun d => d.readmit (coreIx core)

/-- A write of SUN_PAIR_CTRL (R655, R657). -/
def Dev.writePairCtrl (d : Dev) (v : Word32) : Dev :=
  let d := if F.SUN_PAIR_CTRL_SWAP.get v = 1 then d.reqSwap else d
  let d := if F.SUN_PAIR_CTRL_READMIT_A.get v = 1 then d.readmit 0 else d
  if F.SUN_PAIR_CTRL_READMIT_B.get v = 1 then d.readmit 1 else d

/-- CORE_SELF_TEST_END (R654, R656): a FAILED core that passes becomes SYNCING, or, with no core active and none taking over,
ACTIVE; its loops then take over with u_m = 1.0. -/
def execCoreSelfTestEnd (core : Core) (passed : Bool) (s : State) : Host.Outcome State Fault Refusal := onDev s fun d =>
  let k := coreIx core
  if d.coreSt k ≠ 3 then d
  else if !passed then d.selfTest 1 false
  else
    let d := (d.selfTest 1 true).selfTest 2 true
    let d := d.updCore k (fun x => { x with miss := 0 })
    if d.activeIx.isNone && d.pair.takeOver.isNone then
      let d := { d with pair := { d.pair with actFail := false, copied := false, matches_ := 0 } }
      let zs := Tab.mapV (fun _ => Zone.reset) (fun _ (x : Zone) => if x.on then { x with wasHeld := true } else x) d.org.zones
      ({ d with org := { d.org with zones := zs } }).setActive k
    else ({ d with pair := { d.pair with copied := false, matches_ := 0, restarts := 0 } }).setCoreSt k 2

/-- CORE_MEMORY_PATROL (R649, test 2): an uncorrectable error in a core's memory. -/
def execCoreMemoryPatrol (core : Core) (s : State) : Host.Outcome State Fault Refusal := onDev s fun d =>
  let k := coreIx core
  if d.coreLive k then
    let d := d.selfTest 2 false
    let d := if d.activeIx = some k then d.noteActive (some false) else d
    d.failTested k
  else d

/-- SENSOR_REFERENCE_TEST (test 4): the sensors whose converter failed are marked SUSPECT; which sensors share a converter is
not stated, so the command names them. -/
def execSensorReferenceTest (failed : List Nat) (s : State) : Host.Outcome State Fault Refusal := onDev s fun d =>
  let ss := failed.filter (fun n => (sensorKind n).isSome)
  let d := d.selfTest 4 ss.isEmpty
  ss.foldl (fun (d : Dev) n =>
    let was := (d.sensor n).suspect
    let d := d.updSensor n (fun x => { x with suspect := true, good := 0 })
    if was then d else (d.raiseWarn 3 n).fire 55 n) d

/-- HAZARD_COMPARATOR_TEST (test 5). -/
def execHazardComparatorTest (passed : Bool) (s : State) : Host.Outcome State Fault Refusal := onDev s fun d => d.selfTest 5 passed

end Sys2Proof.Machine
end

