-- ==== Sys2Proof/Machine/Journal.lean ====
section
/-! DEFINITION. The Gatehouse's stateful keys and its flash journal (R588 to R591), the SVN floor (R582) and the keys that sign
objects (R581, R592, R593). -/

namespace Sys2Proof.Machine

/-- Change the Gatehouse. -/
def Dev.updGate (d : Dev) (f : Gate → Gate) : Dev := { d with gate := f d.gate }

/-- A write to flash: whether it succeeds is free; one that fails sets FLASH_ERR (Table 13-13). -/
def Dev.flash (d : Dev) : Dev × Bool :=
  let (d, i) := d.takeFree
  if Config.flashOk i then (d, true) else (d.raise (Reg.GHM_EVT 3), false)

/-- Records in a flash sector of the journal (DESIGN CHOICE, log 85: 4 KiB of 64-byte records). -/
def sectorRecords : Nat := 64

/-- The latest valid record of each key and kind: what is copied to the other sector before the full one is erased (R591). -/
def Gate.copies (g : Gate) : List JRec :=
  g.journal.filter (fun r => r.ok && !g.journal.any (fun x => x.ok && x.key == r.key && x.kind == r.kind && decide (r.seq < x.seq)))

/-- Append a journal record (Table 13-6): SEQ rises by 1 per record; a full sector gives way to the other one. A torn record's CHECK fails. -/
def Gate.append (g : Gate) (key kind value : Nat) (hash : BitVec 256) (sound : Bool) : Gate :=
  let n := match g.journal.getLast? with | some r => r.seq + 1 | none => 0
  let r : JRec := { seq := n, key := key, kind := kind, value := value, keyHash := hash, check := 0 }
  let old := if g.journal.length < sectorRecords then g.journal else g.copies
  { g with journal := old ++ [{ r with check := if sound then journalCheck r else ~~~ journalCheck r }] }

/-- Write a journal record, read it back and check it. -/
def Dev.record (d : Dev) (key kind value : Nat) (hash : BitVec 256) : Dev × Bool :=
  let (d, ok) := d.flash
  (d.updGate (fun g => g.append key kind value hash ok), ok)

/-- Before a signature at index i, a RESERVE record with B = i + 256 unless i is below B; may the signature be computed (R589)? -/
def Dev.reserve (d : Dev) (key : Nat) (pub : Bytes) (i : Nat) : Dev × Bool :=
  if i < d.gate.bound key pub then (d, true) else d.record key 1 (i + 256) (Config.shake256 pub)

/-- A TRIM record with B equal to the next unused index (R590). -/
def Dev.trim (d : Dev) (key : Nat) (pub : Bytes) (i : Nat) : Dev := (d.record key 2 i (Config.shake256 pub)).1

/-- The next index of the identity key at a start: its bound (R591). -/
def Gate.readBound (g : Gate) : Gate := { g with ident := g.bound 1 g.identityKey }

/-- An orderly stop of signing (R590): requests are refused, and the next index of each key is written down. -/
def Dev.signingStop (d : Dev) : Dev :=
  if d.gate.signing then
    let d := d.trim 1 d.gate.identityKey d.gate.ident
    let d := match d.gate.attest with
      | some a => d.trim 2 (Config.attestKey a.draw) a.next
      | none => d
    d.updGate fun g => { g with signing := false }
  else d

/-- Generate an attestation key and certify it with the identity key; none when the identity key has no index left, or none may be used
because the RESERVE record could not be written (R588, R589). -/
def Dev.newAttest (d : Dev) : Dev :=
  let (d, k) := d.takeFree
  if d.gate.ident < 65536 then
    match d.reserve 1 d.gate.identityKey d.gate.ident with
    | (d, true) => d.updGate fun g => { g with attest := some ⟨k, 0, g.ident⟩, ident := g.ident + 1 }
    | (d, false) => d.updGate fun g => { g with attest := none }
  else d.updGate fun g => { g with attest := none }

/-- A signature with the attestation key, at its next index; nothing when no attestation key can be certified, or the RESERVE record could
not be written (R588, R589). -/
def Dev.attestSign (d : Dev) (msg : Bytes) : Dev × Option Bytes :=
  let used := match d.gate.attest with | some a => decide (1024 ≤ a.next) | none => true
  let d := if used then d.newAttest else d
  match d.gate.attest with
  | none => (d, none)
  | some a =>
    let pub := Config.attestKey a.draw
    match d.reserve 2 pub a.next with
    | (d, true) => (d.updGate fun g => { g with attest := some { a with next := a.next + 1 } }, some (Config.xmssSign pub a.next msg))
    | (d, false) => (d, none)

/-- The certificate of the attestation key: its public key and the identity key's signature over it. -/
def Gate.attestCert (g : Gate) : Bytes :=
  match g.attest with
  | some a =>
    let pub := Config.attestKey a.draw
    Config.attestCert pub (Config.xmssSign g.identityKey a.cert pub)
  | none => []

/-! ### Signed objects -/

/-- Is a public key one that an owner may hold: 68 bytes, XMSS-SHAKE256_20_256 or _16_256 (R586, Table 13-5)? -/
def ownerKeyOk (pub : Bytes) : Bool :=
  pub.length == 68 && (pub.take 4 == [0, 0, 0, Config.oid20] || pub.take 4 == [0, 0, 0, Config.oid16])

/-- The public key that an object's KEY_HASH or SIGNER_HASH names: the vendor firmware key or the enrolled owner key (R581). -/
def Gate.signer (g : Gate) (hash : BitVec 256) : Option Bytes :=
  if hash = Config.shake256 Config.vendorKey then some Config.vendorKey
  else match g.owner with
    | some o => if hash = Config.shake256 o then some o else none
    | none => none

/-- Does a signature over a message verify under the key that a hash names? -/
def Gate.verifies (g : Gate) (hash : BitVec 256) (msg sig : Bytes) : Bool :=
  match g.signer hash with
  | some k => Config.xmssVerify k msg sig
  | none => false

/-- A number from bytes as a 256-bit digest. -/
def digestAt (b : Bytes) (off : Nat) : BitVec 256 := BitVec.ofNat 256 (blobNat b off 32)

/-- The layout of an image (Table 13-3): MAGIC, VERSION, BODY_LEN and the body's digest. -/
def imageLayout (b : Bytes) : Bool :=
  let n := blobNat b 0x0C 4
  blobNat b 0 4 == 0x3149475A && blobNat b 4 2 == 1 && decide (1 ≤ n ∧ n ≤ 2 ^ 24 - 2 ^ 12) && decide (0x1000 + n ≤ b.length) &&
    digestAt b 0x38 == Config.shake256 ((b.drop 0x1000).take n)

/-- The signature of an image over bytes 0x00 to 0xFF (R581). -/
def Gate.imageSigned (g : Gate) (b : Bytes) : Bool :=
  match g.signer (digestAt b 0x18) with
  | some k => Config.xmssVerify k (b.take 0x100) ((b.drop 0x100).take (Config.sigLen k))
  | none => false

/-- Is an image accepted (R581, R582)? -/
def Gate.imageOk (g : Gate) (b : Bytes) : Bool := imageLayout b && g.imageSigned b && decide (g.floor ≤ imageSvn b)

/-- Is a configuration accepted (R581)? -/
def Gate.configOk (g : Gate) (b : Bytes) : Bool :=
  match Config.signedParts 4 b with
  | some (h, m, sig) => g.verifies h m sig
  | none => false

/-- After a start that completes with an image whose RAISE_FLOOR flag is 1, the floor becomes its SVN; it never decreases
(R582). The record's KEY for KIND 3 is open and free. -/
def Dev.raiseFloor (d : Dev) : Dev :=
  match d.gate.run with
  | some b =>
    if blobNat b 6 2 % 2 = 1 ∧ d.gate.floor < imageSvn b then (d.record Config.floorKey.toNat 3 (imageSvn b) 0).1 else d
  | none => d

end Sys2Proof.Machine
end

