-- ==== Sys2Proof/Machine/Reset.lean ====
section
/-! DEFINITION. Reset kinds, hold-up and the phases of a start that need no mailbox (R631 to R643, Tables 14-4 to 14-6, R686). -/

namespace Sys2Proof.Machine

/-! ### The start record (R639, R640) -/

def Dev.attempts (d : Dev) : Nat := d.fld Reg.KDV_STATE F.KDV_STATE_ATTEMPTS
def Dev.reason (d : Dev) : Nat := d.fld Reg.KDV_STATE F.KDV_STATE_REASON
def Dev.setAttempts (d : Dev) (n : Nat) : Dev := d.setFld Reg.KDV_STATE F.KDV_STATE_ATTEMPTS n
def Dev.setReason (d : Dev) (n : Nat) : Dev := d.setFld Reg.KDV_STATE F.KDV_STATE_REASON n
def Dev.setMode (d : Dev) (n : Nat) : Dev := d.setFld Reg.KDV_STATE F.KDV_STATE_MODE n
/-- ATTEMPTS and REASON as a trigger's CONTEXT (Table 15-6). -/
def Dev.startCtx (d : Dev) : Nat := d.attempts + 65536 * d.reason
/-- Change the start. -/
def Dev.updBoot (d : Dev) (f : Start → Start) : Dev := { d with boot := f d.boot }

/-- CKP_RESET_CAUSE and trigger 22 (Table 14-12, Table 15-6). -/
def Dev.resetCause (d : Dev) (kind trigger : Nat) : Dev :=
  let v := kind + 16 * trigger
  (d.setReg Reg.CKP_RESET_CAUSE (BitVec.ofNat 32 v)).fire 22 v

/-! ### POWER and FULL -/

/-- What a reset keeps of the memory packages: the retirements, which nothing undoes (R254); over a power cycle, those that are
written to flash. -/
def Mem.keepRetired (m : Mem) (power : Bool) : Tab Pkg :=
  Tab.mapV (fun _ => Pkg.reset) (fun _ x => if x.st == .retired && (x.recorded || !power) then x else Pkg.reset) m.pkgs

/-- The Gatehouse restarts from flash (R591, R598). -/
def Gate.fromFlash (g : Gate) : Gate :=
  { Gate.reset with image := g.image, config := g.config, owner := g.owner, journal := g.journal, ident := g.identBound, nextSess := g.nextSess }

/-- The Sundial after a reset of the always-on island: flash areas and counts kept; records that were not flushed are lost and
counted (R670, R671). -/
def Dev.sunFromFlash (d : Dev) (power : Bool) : Sun :=
  { Sun.reset with perm := d.sun.perm, circ := d.sun.circ, next := d.sun.next, pcycle := d.sun.pcycle + bit power,
                   base := if power then d.sun.base else d.opsec, since := d.clock, lost := min 0xFFFF (d.sun.lost + d.sun.unflushed) }

/-- Registers after a reset of the always-on island: reset values, but for the start record, ATTACHED, and GLB_INCARNATION, which increases
and is never 0 (Table 7-22). -/
def Dev.regsFromFlash (d : Dev) : Tab Word32 :=
  let r : Dev := { Dev.reset with regs := [] }
  let r := (r.setAttempts d.attempts).setReason d.reason
  let n := d.reg Reg.GLB_INCARNATION + 1
  let r := r.setReg Reg.GLB_INCARNATION (if n = 0 then 1 else n)
  (r.setReg Reg.GHM_DEBUG (d.reg Reg.GHM_DEBUG &&& 1)).regs

/-- A POWER or FULL reset (Table 14-5): everything but flash returns to its reset state. PERST_N is a pin and keeps its level; PWRGOOD
falls with a hold-up alone (R630). -/
def Dev.islandReset (d : Dev) (kind trigger : Nat) : Dev :=
  let d := d.sunAll
  let boot : Start := { Start.reset with kind := kind, recorded := !d.boot.running || d.boot.recorded }
  let saved := fun (_ : Nat) (x : Chan) => ({ Chan.reset with cycles := x.saved, saved := x.saved } : Chan)
  let vdr : Vdr := { Vdr.reset with lastCmd := some d.clock, chans := Tab.mapV (fun _ => Chan.reset) saved d.vdr.chans }
  let hp : HostPort := { HostPort.reset with perst := d.hp.perst }
  let sup : Supply := { Supply.reset with pwrgood := kind == 2 && d.sup.pwrgood }
  let r : Dev := { Dev.reset with
    regs := d.regsFromFlash, mem := { Mem.reset with pkgs := d.mem.keepRetired (kind == 0) }, hp := hp, vdr := vdr, gate := d.gate.fromFlash, boot := boot,
    sun := d.sunFromFlash (kind == 0), m1024 := d.m1024, sup := sup, clock := d.clock, freeIx := d.freeIx, outbox := d.outbox }
  r.resetCause kind trigger

/-- A FULL reset, an orderly stop of signing first (R590, R633); the START counts never decrease (R549). A hold-up runs to its end (R632). -/
def Dev.fullReset (d : Dev) (trigger : Nat) : Dev := if d.sup.holdup.isSome then d else d.signingStop.saveCycles.islandReset 2 trigger

/-- Does a start go on: it runs, and no hold-up has cut it off (R631, R640)? -/
def Dev.starting (d : Dev) : Bool := d.boot.running && d.sup.holdup.isNone

/-- A start fails with a reason (R638, R640): the record, trigger 24, and a FULL reset. -/
def Dev.failStart (d : Dev) (r : Nat) : Dev :=
  let d := (d.setReason r).updBoot (fun b => { b with recorded := true })
  (d.fire 24 d.startCtx).fullReset 3

/-! ### WARM and GATEHOUSE -/

/-- A reset clears staging, sessions, mailboxes and trace of the Gatehouse; its keys stay (R598, R604, Table 14-5). -/
def Gate.restart (g : Gate) : Gate :=
  { g.fromFlash with i3c := g.i3c }

/-- A device register of PF BAR2 by its offset from 0x1_0000 (R291). -/
def Dev.devr (d : Dev) (off : Nat) : Word32 := Tab.get 0 d.hp.devr off
def Dev.setDevr (d : Dev) (off : Nat) (v : Word32) : Dev := { d with hp := { d.hp with devr := Tab.set 0 d.hp.devr off v } }
/-- The primary mailbox's control register: bit 0 is its doorbell. -/
def devCtrl : Nat := 0x84

/-- The Gatehouse restarts: GHM registers return to reset values but for the debug word's sticky bits and ATTACHED (R608), and
requests not answered are lost, a SWAP among them (log 68). -/
def Dev.gateRestart (d : Dev) : Dev :=
  let dbg := d.reg Reg.GHM_DEBUG &&& 0x27
  let d := ((d.resetRegs 0x20000 0x40000).setReg Reg.GHM_DEBUG dbg).setFld Reg.KDV_MBX_CTRL F.KDV_MBX_CTRL_GO 0
  let d := d.setDevr devCtrl 0
  let d := ({ d with pair := { d.pair with swap := false } }).setFld Reg.SUN_PAIR_CTRL F.SUN_PAIR_CTRL_SWAP 0
  d.updGate Gate.restart

/-- A start begins: the record is read and ATTEMPTS rises; a start that ended without a reason has reason 0x07 recorded (R639,
R640). -/
def Dev.countStart (d : Dev) : Dev :=
  let d := if d.boot.running && !d.boot.recorded then d.setReason 7 else d
  d.setAttempts (d.attempts + 1)

/-- A WARM or GATEHOUSE start (R641): at ATTEMPTS 3 a FULL reset takes its place. -/
def Dev.beginKept (d : Dev) (kind trigger : Nat) : Dev :=
  if d.attempts = 3 then d.fullReset trigger
  else
    let d := d.countStart
    let boot : Start := { Start.reset with kind := kind, running := true, recorded := false, qualified := true, alwaysOn := true, selfTest := true,
                                            upAt := some d.clock }
    ((({ d with boot := boot }).gateRestart).setMode 2).resetCause kind trigger

/-- A Pavilion at a WARM reset (R113, R686): only the binding, the hot-spare record and the withdrawal stay; the lease is the floor. -/
def Pav.warm (floor p : Nat) (x : Pav) : Pav :=
  { Pav.reset p with allot := x.allot, logical := x.logical, spare := x.spare, withdrawn := x.withdrawn, lease := floor }

/-- A queue's live executions are lost; the queue store keeps its accepted descriptors and held records (R372, Table 7-19). A clearing
queue keeps its revoked descriptors. -/
def Queue.warm (x : Queue) : Queue :=
  if x.st = .clearing then x else { x with execs := [], redo := [], read := [] }

/-- Shares, Cistern state and Trellis state are lost, and the host link goes down with its branch. -/
def Dev.computeLost (d : Dev) : Dev :=
  let d := d.linkLost 0
  let fl := d.floorCap
  let pavs := (List.range 160).foldl (fun t p => Tab.setD Pav.reset t p (Pav.warm fl p (d.pav p))) d.pavs
  let blks := Tab.mapV (fun _ => CisBlk.reset) (fun _ x => { CisBlk.reset with allot := x.allot }) d.blks
  { d with pavs := pavs, blks := blks, cisMarks := [], trl := Trl.reset, qs := Tab.mapV (fun _ => Queue.reset) (fun _ x => x.warm) d.qs }

/-- What a WARM reset does beyond the Gatehouse's restart (Table 14-5, R257, R686): TRL, PAV and CIS return to reset values, and every
FAILED package is retried once. -/
def Dev.warmReset (d : Dev) : Dev :=
  let d := (((d.computeLost.warmRetrain).resetRegs 0x200000 0x400000).resetRegs 0x1000000 0x2000000).resetRegs 0x2000000 0x3000000
  let sup : Supply := { d.sup with link := false, compute := false }
  { d with sup := sup }

/-- WARM (R633, R634, R641). -/
def execWarm (s : State) : Host.Outcome State Fault Refusal := onDev s fun d =>
  if d.sup.holdup.isSome then d
  else if d.attempts = 3 then d.fullReset 2
  else (d.signingStop.warmReset).beginKept 1 2

/-- FULL (R633, R634). -/
def execFull (s : State) : Host.Outcome State Fault Refusal := onDev s fun d => d.fullReset 2

/-- GATEHOUSE (R633, R634, R641). -/
def execGatehouse (s : State) : Host.Outcome State Fault Refusal := onDev s fun d =>
  if d.sup.holdup.isSome then d else d.signingStop.beginKept 3 2

/-- GATEHOUSE_WATCHDOG (R635): the reset comes unseen, so no TRIM record is written; trigger 26. -/
def execGatehouseWatchdog (s : State) : Host.Outcome State Fault Refusal := onDev s fun d =>
  if d.sup.holdup.isSome then d else (d.fire 26 0).beginKept 3 5

/-- A write of CKP_RESET (R634). -/
def Dev.writeReset (d : Dev) (v : Word32) : Dev :=
  if F.CKP_RESET_KEY.get v = 0xA5 ∧ d.sup.holdup.isNone then
    match F.CKP_RESET_KIND.get v with
    | 1 => if d.attempts = 3 then d.fullReset 2 else (d.signingStop.warmReset).beginKept 1 2
    | 2 => d.fullReset 2
    | 3 => d.signingStop.beginKept 3 2
    | _ => d
  else d

/-! ### Hold-up (R631, Table 14-4) -/

/-- The reset threshold and the warning threshold in units of 10 mV (Table 14-12, R629). -/
def Dev.vinReset (d : Dev) : Nat := 10 * min 440 (max 380 (d.fld Reg.CKP_VIN_CFG F.CKP_VIN_CFG_RESET))
def Dev.vinWarn (d : Dev) : Nat :=
  let w := 10 * min 500 (max 400 (d.fld Reg.CKP_VIN_CFG F.CKP_VIN_CFG_WARN))
  if w ≤ d.vinReset then d.vinReset + 100 else w

/-- The start threshold (Table 14-3), and whether VIN is above it as it was last measured; before any measurement the row that a start begins
with says so alone (log 88). -/
def Dev.vinStart (d : Dev) : Nat := d.vinReset + 200
def Dev.vinGood (d : Dev) : Bool := d.fld Reg.CKP_VIN F.CKP_VIN_VIN == 0 || decide (d.vinStart < d.fld Reg.CKP_VIN F.CKP_VIN_VIN)

/-- Move the hold-up to its next phase. -/
def Dev.holdPhase (d : Dev) (n : Nat) : Dev :=
  let sup : Supply := { d.sup with holdup := some n }
  { d with sup := sup }

/-- BRANCH_OFF (R630, R631): VIN is below the reset threshold; the branches go off, valves open, PWRGOOD falls, and shares,
Cistern state and memory contents are lost. -/
def execBranchOff (vin : BitVec 16) (s : State) : Host.Outcome State Fault Refusal := onDev s fun d =>
  if d.sup.holdup.isSome ∨ d.vinReset ≤ vin.toNat then d
  else
    let d := ((d.setFld Reg.CKP_VIN F.CKP_VIN_VIN vin.toNat).setFld Reg.CKP_VIN F.CKP_VIN_HOLDUP 1).computeLost
    let d : Dev := { d.forceOff with vdr := { d.forceOff.vdr with resetForce := true } }
    let mem : Mem := { Mem.reset with pkgs := d.mem.pkgs, health := d.mem.health }
    { d with mem := mem, sup := { Supply.reset with holdup := some 1, valve := false } }

/-- SIGNING_STOP (R590, R631). -/
def execSigningStop (s : State) : Host.Outcome State Fault Refusal := onDev s fun d =>
  if d.sup.holdup = some 1 then d.signingStop.holdPhase 2 else d

/-- START_RECORD (R640): reason 0x05 when a start was in progress. -/
def execStartRecord (s : State) : Host.Outcome State Fault Refusal := onDev s fun d =>
  if d.sup.holdup = some 2 then
    let d := if d.boot.running then (d.setReason 5).updBoot (fun b => { b with recorded := true }) else d
    d.holdPhase 3
  else d

/-- COUNTERS (R549, R631): VDR_CH_CYCLES are written to flash. -/
def execCounters (s : State) : Host.Outcome State Fault Refusal := onDev s fun d =>
  if d.sup.holdup = some 3 then
    ((List.range 16).foldl (fun (d : Dev) c => d.updChan c (fun x => { x with saved := x.cycles })) d).holdPhase 4
  else d

/-- SUNDIAL_FLUSH (R671). -/
def execSundialFlush (s : State) : Host.Outcome State Fault Refusal := onDev s fun d =>
  if d.sup.holdup = some 4 then d.sunHoldup.holdPhase 5 else d

/-- POWER (R631 to R633): first VIN, or VIN above the start threshold for 10 ms after the hold-up has run to its end. -/
def execPower (s : State) : Host.Outcome State Fault Refusal := onDev s fun d =>
  match d.sup.holdup with
  | none => d.islandReset 0 0
  | some n => if n = 5 ∧ d.vinGood then d.islandReset 0 1 else d

/-! ### The phases of a start (R637 to R640) -/

/-- Lodge is entered (R639, R642): reason and attempts stay; the link branch is on for CXL only. -/
def Dev.enterLodge (d : Dev) : Dev :=
  let sup : Supply := { d.sup with link := true, memory := false, compute := false }
  let d := { d with sup := sup, boot := { d.boot with running := false, recorded := true } }
  let d := (d.setMode 1).updGate (fun g => { g with phase := 8, up := true })
  d.forceOff.fire 25 d.reason

/-- ALWAYS_ON_UP (R556, R630, R637, R638, R696): `stable` says whether the crystal became stable within 50 ms; SLOT_ID is sampled,
PWRGOOD driven, full flow requested. -/
def execAlwaysOnUp (stable : Bool) (slot : BitVec 6) (s : State) : Host.Outcome State Fault Refusal := onDev s fun d =>
  if !d.boot.qualified ∨ d.boot.alwaysOn ∨ d.sup.holdup.isSome then d
  else if !stable then (if d.boot.running then d.failStart 3 else d)
  else if d.srcState 3 = 1 then
    let now := d.clock
    let d := d.updBoot (fun b => { b with alwaysOn := true, upAt := some now })
    let d := d.setReg Reg.TBC_NODE (slot.setWidth 32)
    let sup : Supply := { d.sup with pwrgood := true, valve := true }
    ({ d with sup := sup }).askFullFlow.flowRequest
  else d

/-- ORANGERY_SELF_TEST (R544, R545, R658, R659): the start goes on with a core that passes; the valves' start force ends. -/
def execOrangerySelfTest (r : SelfTest) (s : State) : Host.Outcome State Fault Refusal := onDev s fun d =>
  if !d.starting ∨ !d.boot.alwaysOn ∨ d.boot.selfTest then d
  else
    let okA := r.a1 && r.a2
    let okB := r.b1 && r.b2
    let d := ((((d.selfTest 1 (r.a1 && r.b1)).selfTest 2 (r.a2 && r.b2)).selfTest 3 r.t3).selfTest 5 r.t5).selfTest 6 r.t6
    if (!okA && !okB) || !r.t3 || !r.t5 || !r.t6 then d.failStart 4
    else
      let d := if !okA then (d.declareFailed 0).setActive 1 else if !okB then d.declareFailed 1 else d
      let d := d.updBoot (fun b => { b with selfTest := true })
      { d with vdr := { d.vdr with resetForce := false } }

/-- Is the Gatehouse's phase n of the running start to run: Table 13-2 follows Always-on up? -/
def Dev.gateAt (d : Dev) (n : Nat) : Bool := d.starting && d.boot.alwaysOn && d.gate.phase == n

/-- ROM_CHECK (R580). -/
def execRomCheck (passed : Bool) (s : State) : Host.Outcome State Fault Refusal := onDev s fun d =>
  if d.gateAt 1 then (if passed then d.updGate (fun g => { g with phase := 2 }) else d.failStart 6) else d

/-- DEVICE_SECRET (R584, R585): reconstructed from the power-up state of the dedicated SRAM and the helper data in flash. -/
def execDeviceSecret (sram : Bytes) (s : State) : Host.Outcome State Fault Refusal := onDev s fun d =>
  if d.gateAt 2 then
    match Config.reconstruct sram Config.helperData with
    | some ds => d.updGate (fun g => { g with phase := 3, ds := some ds })
    | none => d.failStart 6
  else d

/-- IMAGE (R581 to R583): the image in flash is verified; its header is the running image's. -/
def execImage (s : State) : Host.Outcome State Fault Refusal := onDev s fun d =>
  if d.gateAt 3 then
    match d.gate.image with
    | some b => if d.gate.imageOk b then d.updGate (fun g => { g with phase := 4, run := some (b.take 0x100) }) else d.failStart 1
    | none => d.failStart 1
  else d

/-- KEYS (R588 to R591): the journals are read and an attestation key is generated and certified; signatures are served. -/
def execKeys (s : State) : Host.Outcome State Fault Refusal := onDev s fun d =>
  if d.gateAt 6 ∧ d.boot.released ∧ !d.boot.keys then
    let d := (d.updGate Gate.readBound).newAttest
    (d.updGate (fun g => { g with signing := true })).updBoot (fun b => { b with keys := true })
  else d

/-- MEMORY_TRAINING (R251, R254, R266): the packages that trained; retired ones stay RETIRED. -/
def execMemoryTraining (good : List (Fin 20)) (s : State) : Host.Outcome State Fault Refusal := onDev s fun d =>
  if !d.starting ∨ !d.boot.released ∨ d.boot.trained ∨ d.boot.kind = 1 ∨ d.boot.kind = 3 then d
  else
    let bad := (List.range 20).filter (fun k => decide (¬ (good.map Fin.val).contains k = true) && (d.mem.pkg k).st != .retired)
    let m := bad.foldl (fun (m : Mem) k => m.setPkg k { Pkg.reset with st := .failed, reason := 1 }) d.mem
    let d := bad.foldl (fun (d : Dev) k => d.fire 40 k) (d.setMem m.freshHealth)
    if 2 < d.mem.nErased then d.failStart 2
    else ({ d with mem := { d.mem with trained := true } }).updBoot (fun b => { b with trained := true })

/-- COMPUTE_UP (R637): the compute branch is on, every Pavilion at the floor operating point. -/
def execComputeUp (s : State) : Host.Outcome State Fault Refusal := onDev s fun d =>
  if d.starting ∧ d.boot.trained ∧ !d.boot.compute then
    let sup : Supply := { d.sup with compute := true }
    let fl := d.floorCap
    let d : Dev := (List.range 160).foldl (fun (d : Dev) p => d.updPav p (fun x => { x with freq := 400, rail := 400, lease := fl })) { d with sup := sup }
    d.updBoot (fun b => { b with compute := true })
  else d

/-- Have the phases before Complete ended (Table 14-6, R636)? -/
def Dev.canComplete (d : Dev) : Bool :=
  d.starting && d.boot.keys && (d.boot.kind == 1 || d.boot.kind == 3 || d.boot.compute)

/-- COMPLETE (R582, R639, R641). -/
def execComplete (s : State) : Host.Outcome State Fault Refusal := onDev s fun d =>
  if d.canComplete then
    let d := ((d.setAttempts 0).setReason 0).setMode 0
    let d := (d.updBoot (fun b => { b with running := false, recorded := true })).updGate (fun g => { g with phase := 7 })
    d.raiseFloor.fire 23 0
  else d

/-- START_WATCHDOG (R638): Complete has not ended within 6 s. -/
def execStartWatchdog (s : State) : Host.Outcome State Fault Refusal := onDev s fun d => if d.starting then d.failStart 7 else d

/-- START_FAILURE (R638, R640): a start fails with a reason of Table 14-7. -/
def execStartFailure (reason : Byte) (s : State) : Host.Outcome State Fault Refusal := onDev s fun d =>
  if d.starting then d.failStart reason.toNat else d

end Sys2Proof.Machine
end

