-- ==== Sys2Proof/Machine/Clocks.lean ====
section
/-! DEFINITION. Clock sources and their monitors, clock gates, CLKOBS and the supply's comparators (R611 to R630, R716). -/

namespace Sys2Proof.Machine

/-- Change the clocks. -/
def Dev.updClk (d : Dev) (f : Clk → Clk) : Dev := { d with clk := f d.clk }

/-- The accepted counts of a source (Table 14-1); of a reference while the crystal is failed (R613). -/
def Dev.clkRange (d : Dev) (m : Nat) : Nat × Nat :=
  let alt := d.srcState 3 == 2
  match m with
  | 0 => if alt then (94000, 106000) else (99460, 100040)
  | 1 | 2 => if alt then (146875, 165625) else (156204, 156296)
  | 3 => (23750, 26250)
  | _ => (38000, 42000)

/-- STABLE_N; 0 is taken as 1 (R615). -/
def Dev.stableN (d : Dev) : Nat := max 1 (d.fld Reg.CKP_CTRL F.CKP_CTRL_STABLE_N)

/-- The domains that a source feeds (Table 1-4). -/
def srcDomains (m : Nat) : List Nat := (List.range 5).filter (fun dm => domSrc dm == m)

/-- Set or clear the ON_FALLBACK bit of a domain. -/
def Dev.setFallback (d : Dev) (dm : Nat) (on : Bool) : Dev :=
  let old := d.fld Reg.CKP_CLK_STATUS F.CKP_CLK_STATUS_ON_FALLBACK
  d.setFld Reg.CKP_CLK_STATUS F.CKP_CLK_STATUS_ON_FALLBACK (if on then old ||| 2 ^ dm else old &&& (31 - 2 ^ dm))

/-- A port loses its clock: from ACTIVE, or less than 5 ms after it left ACTIVE, it takes the path of R439; from every other state it goes
DOWN, to train afresh (R618, R624). -/
def Dev.portLost (d : Dev) (p : Nat) : Dev :=
  let x := d.port p
  if x.st = .active ∨ x.away then d.toRetrain p 0 x.narrowed
  else if x.st = .disabled ∨ x.st = .down then d
  else (d.enterDown p).checkRoutes

/-- A port may train again: it starts from Detect (R434, R618, R624). -/
def Dev.portBack (d : Dev) (p : Nat) : Dev :=
  let x := d.port p
  if d.portOn p then
    match x.st with
    | .disabled | .retrain | .down | .failed | .mismatch | .noId | .conflict => d.setPort p (x.detect (d.firstLanes p))
    | .detect | .equalise | .fecLock | .exchange | .active => d
  else d

/-- The ports of a domain. -/
def domPorts (dm : Nat) : List Nat := (List.range 18).filter (fun p => portDomain p == dm)

/-- What a domain does when its clock changes to the internal oscillator or is lost (Table 14-2, R617, R620). -/
def Dev.domLost (d : Dev) (dm : Nat) : Dev :=
  match dm with
  | 0 => if d.hp.perst then d else d.linkLost 0
  | 1 => d.updClk (fun c => { c with relock := if c.relock.contains 1 then c.relock else c.relock ++ [1] })
  | 4 => d
  | _ => (domPorts dm).foldl Dev.portLost d

/-- A domain without a clock (R620). -/
def Dev.domDead (d : Dev) (dm : Nat) : Dev :=
  d.updClk (fun c => { c with dead := if c.dead.contains dm then c.dead else c.dead ++ [dm] })

/-- A domain switches from its failed reference to the internal oscillator (R616 to R618), or has no clock when that has failed too or is
not stable yet (R615, R620). -/
def Dev.toFallback (d : Dev) (dm : Nat) : Dev :=
  if d.onFallback dm then d
  else
    let d := (d.setFallback dm true).domLost dm
    if d.srcState 4 = 1 then d else d.domDead dm

/-- A source is judged failed (R612, R616, R620): its state, CKP_CLK_EVT, trigger 15 + m with the bad count, and its domains; the
non-maskable event when a domain switches or loses its clock. -/
def Dev.judgeFailed (d : Dev) (m count : Nat) : Dev :=
  let d := d.setSrcState m 2
  let d := (d.raise (Reg.CKP_CLK_EVT m)).fire (15 + m) count
  let hit := if m = 4 then (List.range 5).filter (fun dm => d.onFallback dm && !d.clk.dead.contains dm) else (srcDomains m).filter (fun dm => !d.onFallback dm)
  let d := if m = 4 then hit.foldl Dev.domDead d else hit.foldl Dev.toFallback d
  if hit.isEmpty then d else d.nmi m

/-- A domain returns to its reference (R617, R619). -/
def Dev.takeBack (d : Dev) (dm : Nat) : Dev :=
  if d.onFallback dm then
    let d := (d.setFallback dm false).updClk (fun c => { c with dead := c.dead.filter (· != dm) })
    if dm = 1 then d.domLost 1 else (domPorts dm).foldl Dev.portBack d
  else d

/-- The internal oscillator is used by the domains that had no clock; islands relock (R617). -/
def Dev.oscBack (d : Dev) : Dev :=
  let dead := d.clk.dead
  let d := d.updClk (fun c => { c with dead := [] })
  if dead.contains 1 then d.domLost 1 else d

/-- A stable source is taken back into use by its domains, the internal oscillator by those that have no clock (R619). -/
def Dev.sourceBack (d : Dev) (m : Nat) : Dev :=
  if d.srcState m = 1 then (if m = 4 then d.oscBack else (srcDomains m).foldl Dev.takeBack d) else d

/-- A good window: the count of consecutive ones, and stability (R615). An oscillator that is stable for the first time is used at once; one
that had failed is taken back like any source (R619). -/
def Dev.goodWindow (d : Dev) (m : Nat) : Dev :=
  let n := min d.stableN (Tab.get 0 d.clk.good m + 1)
  let d := d.updClk (fun c => { c with good := Tab.set 0 c.good m n })
  if d.stableN ≤ n ∧ d.srcState m ≠ 1 then
    let first := d.srcState m == 0
    let d := d.setSrcState m 1
    if m = 4 ∧ first then d.oscBack else d
  else d

/-- The crystal's bad window is judged once the oscillator's count of the same window can come no more (R612, R614, R638): part of the
tick. -/
def Dev.judgeCrystal (d : Dev) : Dev :=
  match d.clk.pend with
  | none => d
  | some count =>
    let d := (d.updClk (fun c => { c with pend := none })).judgeFailed 3 count
    if d.starting then d.failStart 3 else d

/-- A bad window of a source that has not failed yet (R612, R614). The bad windows of the crystal and the oscillator are of the same
window when the clock has not advanced between them; the crystal is then kept. -/
def Dev.badWindow (d : Dev) (m count : Nat) : Dev :=
  let now := d.clock
  let same := fun (k : Nat) => decide (Tab.get none d.clk.bad k = some now)
  let judged := d.srcState m == 2
  let d := d.updClk (fun c => { c with good := Tab.set 0 c.good m 0, bad := Tab.set none c.bad m (some now) })
  if m = 3 then (if judged || same 4 then d else d.updClk (fun c => { c with pend := some count }))
  else
    let d := if m = 4 then d.updClk (fun c => { c with pend := none }) else d
    if judged then d else d.judgeFailed m count

/-- CLOCK_WINDOW (R611 to R616): a window of source m ends with a count. -/
def execClockWindow (m : Mx) (count : Nat) (s : State) : Host.Outcome State Fault Refusal := onDev s fun d =>
  let m := m.val
  let (lo, hi) := d.clkRange m
  let d := d.setFld (Reg.CKP_CLK_COUNT m) F.CKP_CLK_COUNT_COUNT (min 0xFFFFF count)
  if lo ≤ count ∧ count ≤ hi then d.goodWindow m else d.badWindow m count

/-- ISLAND_RELOCK (R617): the islands of a domain have relocked and resume; the accesses that waited at the stripe engines go on. -/
def execIslandRelock (dm : Dx) (s : State) : Host.Outcome State Fault Refusal := onDev s fun d =>
  (d.updClk (fun c => { c with relock := c.relock.filter (· != dm.val) })).runWaiting

/-- CLOCK_RETURN (R619): with AUTO_RETURN 1 a source that is stable again is taken back. -/
def execClockReturn (m : Mx) (s : State) : Host.Outcome State Fault Refusal := onDev s fun d =>
  if d.fld Reg.CKP_CTRL F.CKP_CTRL_AUTO_RETURN = 1 then d.sourceBack m.val else d

/-- A write of CKP_CLK_RETURN (R619). -/
def Dev.clkReturn (d : Dev) (v : Word32) : Dev := (List.range 5).foldl (fun (d : Dev) m => if v.toNat.testBit m then d.sourceBack m else d) d

/-- CKP_CLK_RETURN (R619). -/
def execCkpClkReturn (v : Word32) (s : State) : Host.Outcome State Fault Refusal := onDev s fun d => d.clkReturn v

/-- CLOCK_LOSS_DETECT (R620, R691): the clamp, every channel off, THERM_ALERT_N until the island's next reset. -/
def execClockLossDetect (s : State) : Host.Outcome State Fault Refusal := onDev s fun d =>
  let d := d.clampOn.forceOff
  { d with clockLoss := true }

/-- Is THERM_ALERT_N asserted (R691)? -/
def Dev.thermAlert (d : Dev) : Bool := d.clamp || d.clockLoss
/-- Is LEAK_N asserted (R692)? -/
def Dev.leakN (d : Dev) : Bool := d.latched.testBit 1

/-! ### Gates (R621 to R624) -/

/-- Are the handshakes of a gated block idle (R35, R622)? A port has sent its frames and has every flit acknowledged, TB1 sends no
frame, the predictor runs no model. -/
def Dev.gateIdle (d : Dev) (g : Nat) : Bool :=
  if g = 18 then (d.can 1).onBus.isNone else if g = 19 then d.org.run.isNone
  else (d.port g).queue.isEmpty && (d.port g).tail.isEmpty && (d.port g).replay.isEmpty

/-- GATE_CLOSE (R622 to R624): the gate whose CKP_GATE bit is 0 closes. -/
def execGateClose (g : Fin 20) (s : State) : Host.Outcome State Fault Refusal := onDev s fun d =>
  let g := g.val
  if (d.reg Reg.CKP_GATE).toNat.testBit g ∨ d.isGated g ∨ !d.gateIdle g then d
  else
    let d := d.updClk (fun c => { c with gated := c.gated ++ [g] })
    if g < 18 then d.portLost g else d

/-- GATE_OPEN (R623, R624): the block resumes from the state it held; a port trains. -/
def execGateOpen (g : Fin 20) (s : State) : Host.Outcome State Fault Refusal := onDev s fun d =>
  let g := g.val
  if (d.reg Reg.CKP_GATE).toNat.testBit g ∧ d.isGated g then
    let d := d.updClk (fun c => { c with gated := c.gated.filter (· != g) })
    if g < 18 then d.portBack g else d
  else d

/-- The CLKOBS pin: the source, and for how many of its half periods the pin is high and low in turn; none while it is held low, with EN 0,
above 100 MHz or with a reserved SEL (R625, R627). -/
def Dev.clkobs (d : Dev) : Option (Nat × Nat × Nat) :=
  let w := d.clk.obs
  let n := F.CKP_CLKOBS_DIV.get w + 1
  let sel := F.CKP_CLKOBS_SEL.get w
  if F.CKP_CLKOBS_EN.get w = 0 ∨ d.tooFast w ∨ (d.obsKHz sel).isNone then none
  else if n = 1 then some (sel, 1, 1) else if n % 2 = 0 then some (sel, n, n) else some (sel, n + 1, n - 1)

/-- CLKOBS_UPDATE (R625 to R627): the setting written takes effect at the output's next low phase. -/
def execClkobsUpdate (s : State) : Host.Outcome State Fault Refusal := onDev s fun d =>
  let v := d.reg Reg.CKP_CLKOBS
  d.updClk (fun c => { c with obs := v })

/-! ### Supply (R628, R629, R716) -/

/-- VIN_SAG (R628): VIN below the warning threshold; the crossing is an event, and a non-maskable one. -/
def execVinSag (vin : BitVec 16) (s : State) : Host.Outcome State Fault Refusal := onDev s fun d =>
  if vin.toNat < d.vinWarn then
    let again := d.fld Reg.CKP_VIN F.CKP_VIN_SAG == 1
    let d := (d.setFld Reg.CKP_VIN F.CKP_VIN_VIN vin.toNat).setFld Reg.CKP_VIN F.CKP_VIN_SAG 1
    if again then d else ((d.raise Reg.CKP_VIN_EVT).fire 20 vin.toNat).nmi 5
  else d

/-- VIN_SAG_CLEAR (R628): VIN above the warning threshold plus 1.0 V. -/
def execVinSagClear (vin : BitVec 16) (s : State) : Host.Outcome State Fault Refusal := onDev s fun d =>
  if d.vinWarn + 100 < vin.toNat then (d.setFld Reg.CKP_VIN F.CKP_VIN_VIN vin.toNat).setFld Reg.CKP_VIN F.CKP_VIN_SAG 0 else d

/-- INPUT_POWER_MEASURE (R716). -/
def execInputPowerMeasure (vin watts : BitVec 16) (s : State) : Host.Outcome State Fault Refusal := onDev s fun d =>
  (d.setFld Reg.CKP_VIN F.CKP_VIN_VIN vin.toNat).setReg Reg.CKP_PIN (watts.setWidth 32)

end Sys2Proof.Machine
end

