-- ==== Sys2Proof/Machine/Gatehouse.lean ====
section
/-! DEFINITION. The Gatehouse's mailboxes and their commands (R602 to R605, Tables 13-10 and 15-9), staged objects (R592, R593,
R601, R605), the key store (R598 to R600) and the inventory (R674). -/

namespace Sys2Proof.Machine

/-! ### Status codes (Table 13-12) -/

/-- What serving a request gives: the block after it, STATUS and the reply payload. -/
abbrev Served := Dev × Nat × Bytes

/-! ### Debug state word (R608, Table 13-11) -/

/-- The debug state word takes a value; a change sets GHM_EVT DEBUG_CHANGE and fires trigger 59. -/
def Dev.setDebug (d : Dev) (w : Nat) : Dev :=
  if (d.reg Reg.GHM_DEBUG).toNat = w then d
  else ((d.setReg Reg.GHM_DEBUG (BitVec.ofNat 32 w)).raise (Reg.GHM_EVT 1)).fire 59 w
/-- Set or clear bits of the debug state word. -/
def Dev.debugBits (d : Dev) (mask val : Nat) : Dev :=
  let w := (d.reg Reg.GHM_DEBUG).toNat
  d.setDebug ((w &&& (63 - mask)) ||| val)

/-! ### Inventory (Table 15-8) -/

/-- The ordering code of the part, in ASCII: ZG9-M2048-L or ZG9-M1024-L. -/
def Dev.orderingCode (d : Dev) : Bytes :=
  let size : Bytes := if d.m1024 then [0x31, 0x30, 0x32, 0x34] else [0x32, 0x30, 0x34, 0x38]
  ([0x5A, 0x47, 0x39, 0x2D, 0x4D] : Bytes) ++ size ++ ([0x2D, 0x4C] : Bytes)

/-- A bit map over n entries as bytes, least significant first. -/
def bitMap (n : Nat) (f : Nat → Bool) : Bytes := leBytes ((n + 7) / 8) (((List.range n).map (fun i => if f i then 2 ^ i else 0)).sum)

/-- The BUILD, SVN and SVN floor of the running image. -/
def Dev.imageInfo (d : Dev) : Nat × Nat × Nat :=
  match d.gate.run with
  | some b => (blobNat b 0x10 8, imageSvn b, d.gate.floor)
  | none => (0, 0, d.gate.floor)

/-- An inventory item; nothing for an item or index that does not exist. -/
def Dev.inventory (d : Dev) (item idx : Nat) : Option Bytes :=
  let reg4 := fun (off : Nat) => leBytes 4 (d.readReg off).toNat
  match item with
  | 1 => some (reg4 Reg.GLB_SERIAL_LO ++ reg4 Reg.GLB_SERIAL_HI)
  | 2 => some (d.orderingCode ++ reg4 Reg.MEM_IDENT)
  | 3 => if idx < 20 then some (Config.packageSerial idx) else none
  | 4 => some (leBytes 4 (d.opsec / 3600) ++ leBytes 4 d.sun.pcycle)
  | 5 => if idx < 16 then some (leBytes 4 (d.chan idx).cycles) else none
  | 6 => if idx < 20 then some (reg4 (Reg.MEM_PKG_STATE idx) ++ leBytes 5 (d.mem.pkg idx).opsec) else none
  | 7 => some (bitMap 160 (fun p => (d.pav p).withdrawn) ++ leBytes 1 d.spares.length)
  | 8 => let (b, s, f) := d.imageInfo; some (leBytes 8 b ++ leBytes 4 s ++ leBytes 4 f)
  | 9 => some (reg4 (Reg.GHM_XMSS_REMAIN 0))
  | 10 => some (leBytes 4 d.sun.next ++ leBytes 4 d.sun.perm.length)
  | _ => none

/-! ### The key store (R598 to R600) -/

/-- The key of a handle. -/
def Dev.key? (d : Dev) (h : Word32) : Option KeyEntry := d.keys.find? (fun k => k.handle == h)

/-- Insert a number into a rising list, once. -/
def insertOnce (n : Nat) : List Nat → List Nat
  | [] => [n]
  | x :: r => if n < x then n :: x :: r else if n = x then x :: r else x :: insertOnce n r
/-- The number that stands k places up from n among those that a rising list does not hold, where n is the least not held below it. -/
def skipUsed (n : Nat) (l : List Nat) : Nat := l.foldl (fun n u => if u ≤ n then n + 1 else n) n

/-- A random nonzero handle that no other key carries (R598): the draw of the random source picks one of the nonzero numbers that are
free. -/
def Dev.newHandle (d : Dev) : Dev × Word32 :=
  let (d, i) := d.takeFree
  let used := (d.keys.map (fun k => k.handle.toNat)).foldr insertOnce [0]
  (d, BitVec.ofNat 32 (skipUsed ((Config.random32 i).toNat % (2 ^ 32 - used.length)) used))

/-- Store a key for a token under a new handle; nothing when the store is full (R598, R599). -/
def Dev.storeKey (d : Dev) (token : Word64) (key : BitVec 256) : Dev × Option Word32 :=
  if 1024 ≤ d.keys.length then (d, none)
  else
    let (d, h) := d.newHandle
    let now := d.clock
    ({ d with keys := d.keys ++ [⟨h, token, key, false, now⟩] }, some h)

/-- Erase a key that is not installed (R600). -/
def Dev.dropKey (d : Dev) (h : Word32) : Dev := { d with keys := d.keys.filter (fun k => k.installed || k.handle != h) }

/-- KEY_DELIVERY_EXPIRY (R600). -/
def execKeyDeliveryExpiry (handle : Word32) (s : State) : Host.Outcome State Fault Refusal := onDev s fun d => d.dropKey handle

/-- Where a key is installed: allotment and slot. -/
def Dev.keyPlace (d : Dev) (h : Word32) : Nat × Nat :=
  let has := fun (k : Option KeySlot) => match k with | some s => s.handle == h | none => false
  match d.allots.find? (fun e => has e.2.slot0 || has e.2.slot1) with
  | some e => (e.1, if has e.2.slot0 then 0 else 1)
  | none => (0, 0)

/-! ### Staged objects -/

/-- Every byte of the staging area; bytes not written read 0. -/
def Staging.bytes (x : Staging) : Bytes := Tab.getRun 0 x.data 0 x.total

/-- The Eloabin envelope (Table 13-9): the place of SIGNER_HASH, the signature's length and the place of the records; nothing
when the layout or SIGNER_SET is wrong (R601 step 1). -/
def envelopeLayout (b : Bytes) : Option (Nat × Nat × Nat) :=
  let n := blobNat b 6 2
  let set := blobNat b 0x10 1
  let e1 := 0x20 + 32 * n
  let sl := if set = 1 then 2820 else 2692
  let e2 := e1 + 32 + sl
  if blobNat b 0 4 = 0x424F4C45 ∧ blobNat b 4 2 = 1 ∧ 1 ≤ n ∧ n ≤ 256 ∧ (set = 1 ∨ set = 2) ∧ b.length = e2 + 1616 * n ∧
      blobNat b 0x11 15 = 0 then some (e1, sl, e2) else none

/-- The key-encryption key of a member's record (R601 step 5). -/
def envelopeKek (ds : BitVec 256) (b : Bytes) (e2 i : Nat) : BitVec 256 :=
  let ss := Config.mlkemDecaps ds ((b.drop (e2 + 1616 * i)).take 1568)
  Config.shake256 (ss ++ leBytes 32 (Config.shake256 (b.take e2)).toNat ++ leBytes 2 i)

/-- Process an envelope (R601). -/
def Dev.openEnvelope (d : Dev) (b : Bytes) : Served :=
  match envelopeLayout b with
  | none => (d, 5, [])
  | some (e1, sl, e2) =>
    if !d.gate.verifies (digestAt b e1) (b.take (e1 + 32)) ((b.drop (e1 + 32)).take sl) then (d, 4, [])
    else match (List.range (blobNat b 6 2)).find? (fun i => digestAt b (0x20 + 32 * i) == Config.shake256 d.gate.identityKey) with
      | none => (d, 9, [])
      | some i =>
        match Config.gcmUnwrap (envelopeKek (d.gate.ds.getD 0) b e2 i) (List.replicate 12 0) ((b.drop 8).take 8) ((b.drop (e2 + 1616 * i + 1568)).take 48) with
        | none => (d, 0x0A, [])
        | some key =>
          match d.storeKey (BitVec.ofNat 64 (blobNat b 8 8)) (BitVec.ofNat 256 (blobNat key 0 32)) with
          | (d, some h) => (d, 0, leBytes 4 h.toNat)
          | (d, none) => (d, 8, [])

/-- Show the result of a model's load in ORG_PRED_STATUS (R507). -/
def Dev.predResult (d : Dev) (r : Nat) : Dev := d.setFld Reg.ORG_PRED_STATUS F.ORG_PRED_STATUS_RESULT r

/-- A predictor model (R506, R507): its signer, then the checks of the blob; an accepted one replaces the loaded model at the next
run boundary. -/
def Dev.loadModel (d : Dev) (b : Bytes) : Served :=
  match Config.signedParts 2 b with
  | none => (d.predResult 3, 5, [])
  | some (h, m, sig) =>
    if !d.gate.verifies h m sig then (d.predResult 2, 4, [])
    else if !blobFormatOk m then (d.predResult 3, 5, [])
    else if !blobSizeOk m then (d.predResult 4, 5, [])
    else ({ d.predResult 1 with org := { (d.predResult 1).org with nextModel := some m } }, 0, [])

/-- The key that countersigns an enrolment or signs a revocation: the enrolled owner key, else the vendor firmware key (R592). -/
def Gate.ownerOrVendor (g : Gate) : Bytes := g.owner.getD Config.vendorKey

/-- Store an object in flash: status OK, or FLASH when the write fails. -/
def Dev.inFlash (d : Dev) (f : Gate → Gate) : Served :=
  match d.flash with
  | (d, true) => (d.updGate f, 0, [])
  | (d, false) => (d, 0x0C, [])

/-- The module's serial number. -/
def Dev.serialNo (d : Dev) : Word64 := BitVec.ofNat 64 ((d.reg Reg.GLB_SERIAL_LO).toNat + 2 ^ 32 * (d.reg Reg.GLB_SERIAL_HI).toNat)

/-- An owner enrolment (R586, R592). -/
def Dev.enrol (d : Dev) (b : Bytes) : Served :=
  match Config.enrolment b with
  | none => (d, 5, [])
  | some (pub, serial, m, s1, s2) =>
    if serial ≠ d.serialNo ∨ !ownerKeyOk pub then (d, 5, [])
    else if Config.xmssVerify pub m s1 && Config.xmssVerify d.gate.ownerOrVendor m s2 then d.inFlash (fun g => { g with owner := some pub })
    else (d, 4, [])

/-- An owner revocation (R593). -/
def Dev.revokeOwner (d : Dev) (b : Bytes) : Served :=
  match Config.signedParts 6 b with
  | none => (d, 5, [])
  | some (h, m, sig) => if d.gate.verifies h m sig then d.inFlash (fun g => { g with owner := none }) else (d, 4, [])

/-- A staged image at its commit (R581, R582, R605): only an image that verifies stays in flash. -/
def Dev.commitImage (d : Dev) (b : Bytes) : Served :=
  if !imageLayout b then (d, 5, [])
  else if !d.gate.imageSigned b then (d, 4, [])
  else if imageSvn b < d.gate.floor then (d, 6, [])
  else (d.updGate (fun g => { g with image := some b }), 0, [])

/-- A staged configuration at its commit: it is applied at the next Configuration phase. -/
def Dev.commitConfig (d : Dev) (b : Bytes) : Served :=
  if (Config.signedParts 4 b).isNone then (d, 5, [])
  else if d.gate.configOk b then d.inFlash (fun g => { g with config := some b }) else (d, 4, [])

/-- Commit what is staged, by KIND (Table 13-10). -/
def Dev.commitStaged (d : Dev) (x : Staging) : Served :=
  let b := x.bytes
  match x.kind with
  | 1 => d.commitImage b
  | 2 => d.loadModel b
  | 3 => d.openEnvelope b
  | 4 => d.commitConfig b
  | 5 => d.enrol b
  | _ => d.revokeOwner b

/-- End the staging session. -/
def Dev.endStaging (d : Dev) : Dev := d.updGate (fun g => { g with staging := none })

/-- The staging session of a mailbox, or the status that refuses its command (R604). -/
def Dev.mySession (d : Dev) (mb : Mbx) : Sum Nat Staging :=
  match d.gate.staging with
  | none => .inl 7
  | some x => if x.owner = mb then .inr x else .inl 0x0D

/-- STAGE_OPEN (R604, R605). -/
def Dev.cmdStageOpen (d : Dev) (mb : Mbx) (kind total : Nat) : Served :=
  if kind = 0 ∨ 6 < kind then (d, 5, [])
  else if d.inLodge ∧ kind ≠ 1 then (d, 3, [])
  else match d.gate.staging with
    | some x => (d, if x.owner = mb then 3 else 0x0D, [])
    | none =>
      if (if kind = 1 then 2 ^ 24 else 2 ^ 19) < total then (d, 8, [])
      else
        let now := d.clock
        let open_ := fun (g : Gate) => { g with staging := some ⟨mb, kind, total, [], now⟩ }
        if kind = 1 then (d.updGate (fun g => { g with image := none })).inFlash open_ else (d.updGate open_, 0, [])

/-- Write staged bytes at an offset; a failed write of an image ends the session and leaves no valid image (R605). -/
def Dev.stageData (d : Dev) (mb : Mbx) (off : Nat) (data : Bytes) : Served :=
  match d.mySession mb with
  | .inl st => (d, st, [])
  | .inr x =>
    if x.total < off + data.length then (d, 2, [])
    else
      let now := d.clock
      let y : Staging := { x with data := Tab.setRun 0 x.data off data, since := now }
      if x.kind = 1 then (d.updGate (fun g => { g with staging := none })).inFlash (fun g => { g with staging := some y })
      else (d.updGate (fun g => { g with staging := some y }), 0, [])

/-- STAGE_HOST (R605): data read from host memory by the PF; what the host's memory holds comes with the command or is free. -/
def Dev.cmdStageHost (d : Dev) (mb : Mbx) (addr len : Nat) (host : Option Bytes) : Served :=
  if mb = .kdv ∨ mb = .i3c then (d, 3, [])
  else
    let (d, i) := d.takeFree
    (d.emit (.hostRead ⟨0, none, .memRead, false⟩ (BitVec.ofNat 64 addr) len)).stageData mb 0 (host.getD ((List.range len).map (Config.hostByte i)))

/-- STAGE_COMMIT (R605, R643): the session ends; a committed object fires trigger 58. An image committed in Lodge clears the start
record; the FULL reset follows the reply. -/
def Dev.cmdStageCommit (d : Dev) (mb : Mbx) : Served :=
  match d.mySession mb with
  | .inl st => (d, st, [])
  | .inr x =>
    let (d, st, r) := d.endStaging.commitStaged x
    if st = 0 then (d.fire 58 x.kind, 0, r) else (d, st, r)

/-- STAGE_ABORT (R604). -/
def Dev.cmdStageAbort (d : Dev) (mb : Mbx) : Served :=
  match d.mySession mb with
  | .inl st => (d, st, [])
  | .inr _ => (d.endStaging, 0, [])

/-- STAGING_TIMEOUT (R604): no staging command for 10 s. -/
def execStagingTimeout (s : State) : Host.Outcome State Fault Refusal := onDev s fun d => d.endStaging

/-! ### The other commands -/

/-- GET_INFO; over I3C also ATTEMPTS and REASON (R642). -/
def Dev.cmdGetInfo (d : Dev) (mb : Mbx) : Served :=
  let (b, s, f) := d.imageInfo
  (d, 0, leBytes 4 s ++ leBytes 4 f ++ leBytes 8 b ++ leBytes 1 (bit d.gate.owner.isSome) ++ leBytes 4 d.ghmStatus.toNat ++
    (if mb = .i3c then leBytes 1 d.attempts ++ leBytes 1 d.reason else []))

/-- KEY_STATUS (Table 13-10). -/
def Dev.cmdKeyStatus (d : Dev) (h : Word32) : Served :=
  match d.key? h with
  | none => (d, 0, leBytes 8 0 ++ leBytes 3 0)
  | some k =>
    let (a, sl) := if k.installed then d.keyPlace h else (0, 0)
    (d, 0, leBytes 8 k.token.toNat ++ leBytes 1 (if k.installed then 2 else 1) ++ leBytes 1 a ++ leBytes 1 sl)

/-- KEY_DISCARD (R600). -/
def Dev.cmdKeyDiscard (d : Dev) (h : Word32) : Served :=
  match d.key? h with
  | some k => if k.installed then (d, 3, []) else (d.dropKey h, 0, [])
  | none => (d, 3, [])

/-! Trace (R609). What the block does is traced by what a microsecond has changed of each Pavilion and of the latched hazards (log 86). -/

def TracePav.reset : TracePav := ⟨none, false, 0, (Pav.reset 0).lease⟩
/-- What trace sees of a Pavilion now. -/
def Dev.tracePav (d : Dev) (p : Nat) : TracePav :=
  let x := d.pav p
  { run := x.share.map (fun s => (s.q, s.seq)), stalled := x.share.isSome && !x.faulted && !x.stopped && !d.running p,
    faults := (d.reg (Reg.PAV_FAULT_EVT p)).toNat / 65536, lease := x.lease }
/-- What trace has seen from now on. -/
def Dev.traceMark (d : Dev) : Dev :=
  let t := (List.range 160).foldl (fun t p => Tab.set TracePav.reset t p (d.tracePav p)) []
  let h := d.latched
  d.updGate (fun g => { g with tracePavs := t, traceHaz := h })

/-- DEBUG_SET (R608, R609). -/
def Dev.cmdDebugSet (d : Dev) (trace profile : Bool) (addr size : Nat) : Served :=
  let d := d.updGate (fun g => { g with traceBase := BitVec.ofNat 64 addr, traceSize := size, traceIx := 0 })
  (d.traceMark.debugBits 24 (8 * bit trace + 16 * bit profile), 0, [])

/-- SUN_READ (Table 15-9). -/
def Dev.cmdSunRead (d : Dev) (sq off len : Nat) : Served :=
  match (d.sun.find sq).2 with
  | some r => (d, 0, (r.bytes.drop off).take len)
  | none => (d, 3, [])

/-- PAIR_READMIT (R657, Table 15-9). -/
def Dev.cmdReadmit (d : Dev) (c : Nat) : Served :=
  if 1 < c then (d, 5, []) else if d.coreSt c = 4 then (d.readmit c, 0, []) else (d, 3, [])

/-! ### Serving a request (R602, R603) -/

/-- A command: the length of its payload, whether more bytes may follow, and whether it is served in Lodge (Tables 13-10, 15-9). -/
def cmdForm (c : Nat) : Option (Nat × Bool × Bool) :=
  match c with
  | 0x01 => some (0, false, true)
  | 0x10 => some (5, false, true)
  | 0x11 => some (4, true, true)
  | 0x12 => some (12, false, false)
  | 0x13 => some (0, false, true)
  | 0x14 => some (0, false, true)
  | 0x20 => some (4, false, false)
  | 0x21 => some (4, false, false)
  | 0x30 => some (0, false, true)
  | 0x31 => some (14, false, false)
  | 0x60 => some (0, false, true)
  | 0x61 => some (0, false, true)
  | 0x62 => some (8, false, true)
  | 0x63 => some (1, false, false)
  | 0x64 => some (3, false, false)
  | 0x68 => some (3, false, true)
  | 0x70 => some (0, false, false)
  | 0x71 => some (1, false, false)
  | _ => none

/-- Run a well-formed command with its payload. -/
def Dev.runCmd (d : Dev) (mb : Mbx) (c : Nat) (p : Bytes) (host : Option Bytes) : Served :=
  let n := blobNat p
  let w := fun (off : Nat) => BitVec.ofNat 32 (blobNat p off 4)
  match c with
  | 0x01 => d.cmdGetInfo mb
  | 0x10 => d.cmdStageOpen mb (n 0 1) (n 1 4)
  | 0x11 => d.stageData mb (n 0 4) (p.drop 4)
  | 0x12 => d.cmdStageHost mb (n 0 8) (n 8 4) host
  | 0x13 => d.cmdStageCommit mb
  | 0x14 => d.cmdStageAbort mb
  | 0x20 => d.cmdKeyStatus (w 0)
  | 0x21 => d.cmdKeyDiscard (w 0)
  | 0x30 => (d, 0, leBytes 4 (d.reg Reg.GHM_DEBUG).toNat)
  | 0x31 => d.cmdDebugSet (n 0 1 % 2 == 1) (n 1 1 % 2 == 1) (n 2 8) (n 10 4)
  | 0x60 => (d, 0, d.health)
  | 0x61 => (d, 0, leBytes 4 d.sun.next ++ leBytes 4 (d.readReg Reg.SUN_STATUS).toNat ++ leBytes 4 (d.reg Reg.SUN_LOST).toNat)
  | 0x62 => d.cmdSunRead (n 0 4) (n 4 2) (n 6 2)
  | 0x63 => if n 0 1 ≤ 1 then (d.setFreeze (n 0 1 == 1), 0, []) else (d, 5, [])
  | 0x64 => if n 0 1 = 62 ∨ n 0 1 = 63 then (d.fire (n 0 1) (n 1 2), 0, []) else (d, 5, [])
  | 0x68 => match d.inventory (n 0 1) (n 1 2) with | some b => (d, 0, b) | none => (d, 5, [])
  | 0x70 => if d.standbyOk then (d.reqSwap, 0, []) else (d, 3, [])
  | _ => d.cmdReadmit (n 0 1)

/-- The payload bytes of the CXL primary mailbox, 256 bytes to 32 KiB (log 74). -/
def cxlPayload : Nat := 2 ^ (8 + Config.mbxPayload % 8)

/-- The greatest request and reply of a mailbox, where it has one. -/
def mbxSize (mb : Mbx) : Option Nat := match mb with | .ghm => some 256 | .kdv => some 32 | .cxl => some cxlPayload | .i3c => none

/-- Does a length exceed a mailbox? -/
def tooLong (mb : Mbx) (n : Nat) : Bool := match mbxSize mb with | some k => decide (k < n) | none => false

/-- Serve a request of some length: STATUS and payload (R603, R675). -/
def Dev.answer (d : Dev) (mb : Mbx) (req : Bytes) (len : Nat) (host : Option Bytes) : Served :=
  if tooLong mb len ∨ len < 4 then (d, 2, [])
  else match cmdForm (blobNat req 0 1) with
    | none => (d, 1, [])
    | some (k, more, lodge) =>
      if d.inLodge && !lodge then (d, 3, [])
      else if len - 4 < k ∨ (k < len - 4 ∧ !more) then (d, 2, [])
      else
        let (d', st, r) := d.runCmd mb (blobNat req 0 1) (req.drop 4) host
        if tooLong mb (4 + r.length) then (d', 2, []) else (d', st, r)

/-- Store bytes in consecutive data registers of a mailbox. -/
def Dev.putBytes (d : Dev) (base : Nat) (b : Bytes) : Dev :=
  ((List.range ((b.length + 3) / 4)).foldl (fun (d : Dev) i => d.setReg (base + 4 * i) (wordAt b i)) d)

/-- The bytes of consecutive data registers. -/
def Dev.getBytes (d : Dev) (base len : Nat) : Bytes :=
  ((List.range ((len + 3) / 4)).flatMap (fun i => leBytes 4 (d.reg (base + 4 * i)).toNat)).take len

/-! The device registers of PF BAR2 (R291): the CXL device status and the primary mailbox, laid out as CXL has them (PRESUMED, log 74).
`Dev.devr` is keyed by the offset from 0x1_0000. -/

/-- The mailbox's command and status registers, and its payload. -/
def devCmd : Nat := 0x88
def devStatus : Nat := 0x90
def devData : Nat := 0xA0
/-- Is the doorbell of the primary mailbox set: does its request wait for the reply? -/
def Dev.doorbell (d : Dev) : Bool := d.devr devCtrl == 1
/-- Store bytes in the payload registers. -/
def Dev.putPayload (d : Dev) (b : Bytes) : Dev :=
  (List.range ((b.length + 3) / 4)).foldl (fun (d : Dev) i => d.setDevr (devData + 4 * i) (wordAt b i)) d
/-- Opcode and payload length of the command register; the length has 21 bits over both its words. -/
def Dev.setDevCmd (d : Dev) (opcode len : Nat) : Dev :=
  (d.setDevr devCmd (BitVec.ofNat 32 (opcode + 65536 * (len % 65536)))).setDevr (devCmd + 4) (BitVec.ofNat 32 (len / 65536 % 32))
def Dev.devLen (d : Dev) : Nat := (d.devr devCmd).toNat / 65536 + 65536 * ((d.devr (devCmd + 4)).toNat % 32)
/-- Command c is vendor opcode 0xC000 + c (R602). -/
def cxlOpcode (c : Byte) : Nat := 0xC000 + c.toNat
def Dev.devOpcode (d : Dev) : Nat := (d.devr devCmd).toNat % 65536
/-- The request in the primary mailbox: the command of its opcode, and the rest of its payload. -/
def Dev.devRequest (d : Dev) : Bytes × Nat :=
  let b := ((List.range ((min cxlPayload d.devLen + 3) / 4)).flatMap (fun i => leBytes 4 (d.devr (devData + 4 * i)).toNat)).take d.devLen
  ((match b with | [] => [] | _ :: t => BitVec.ofNat 8 d.devOpcode :: t), d.devLen)
/-- The doorbell clears with a CXL return code. -/
def Dev.devDone (d : Dev) (code : Nat) : Dev := (d.setDevr (devStatus + 4) (BitVec.ofNat 32 code)).setDevr devCtrl 0
/-- The headers of the device capabilities, then what no register holds: 2 capabilities, of device status and of the primary mailbox. -/
def devHeaders : List Nat := [0x00010000, 2, 0, 0, 0x00010001, 0x40, 8, 0, 0x00010002, 0x80, 0x20 + cxlPayload, 0]
/-- What a device register reads. -/
def Dev.devRead (d : Dev) (off : Nat) : Word32 :=
  if off < 0x30 then BitVec.ofNat 32 (devHeaders.getD (off / 4) 0)
  else if off = 0x80 then BitVec.ofNat 32 (8 + Config.mbxPayload % 8)
  else d.devr off

/-- Place a reply where the mailbox takes it: registers, LENGTH and GO or the doorbell with return code Success, and for GHM the event
MBX_DONE. -/
def Dev.placeReply (d : Dev) (mb : Mbx) (b : Bytes) : Dev :=
  match mb with
  | .ghm =>
    let d := (d.putBytes (Reg.GHM_MBX_DATA 0) b).setFld Reg.GHM_MBX_CTRL F.GHM_MBX_CTRL_LENGTH b.length
    (d.setFld Reg.GHM_MBX_CTRL F.GHM_MBX_CTRL_GO 0).raise (Reg.GHM_EVT 0)
  | .kdv =>
    let d := (d.putBytes (Reg.KDV_MBX_DATA 0) b).setFld Reg.KDV_MBX_CTRL F.KDV_MBX_CTRL_LENGTH b.length
    d.setFld Reg.KDV_MBX_CTRL F.KDV_MBX_CTRL_GO 0
  | .cxl => ((d.putPayload b).setDevCmd d.devOpcode b.length).devDone 0
  | .i3c => d

/-- The PF's Vendor ID. -/
def pfVendor : BitVec 16 := (Config.stdConfig 0 0).setWidth 16
/-- A reply goes out: in place on a register mailbox, and on I3C as a vendor-defined PCI message (R602). -/
def Dev.replyTo (d : Dev) (mb : Mbx) (b : Bytes) : Dev :=
  (d.placeReply mb b).emit (match mb with | .i3c => .mctpVendor pfVendor b | .ghm | .cxl | .kdv => .reply mb b)

/-- Serve a request and reply; a recovery image committed in Lodge is followed by a FULL reset (R643). -/
def Dev.serve (d : Dev) (mb : Mbx) (req : Bytes) (len : Nat) (host : Option Bytes) : Dev :=
  let lodge := d.inLodge
  let (d, st, r) := d.answer mb req len host
  let cmd := req.getD 0 0
  let tag := req.getD 1 0
  let d := d.replyTo mb ([cmd, tag, BitVec.ofNat 8 st, 0] ++ r)
  if lodge && cmd == 0x13 && st == 0 then ((d.setAttempts 0).setReason 0).fullReset 4 else d

/-- The request in the registers of a mailbox: its bytes and LENGTH. -/
def Dev.regRequest (d : Dev) (mb : Mbx) : Bytes × Nat :=
  match mb with
  | .ghm => let n := d.fld Reg.GHM_MBX_CTRL F.GHM_MBX_CTRL_LENGTH; (d.getBytes (Reg.GHM_MBX_DATA 0) (min 256 n), n)
  | .cxl => d.devRequest
  | _ => let n := d.fld Reg.KDV_MBX_CTRL F.KDV_MBX_CTRL_LENGTH; (d.getBytes (Reg.KDV_MBX_DATA 0) (min 32 n), n)

/-- GO of a register mailbox: served at once, or, while the Gatehouse does not run, once it does (R603, Table 14-5). -/
def Dev.submit (d : Dev) (mb : Mbx) (host : Option Bytes) : Dev :=
  if d.gate.up then
    let (b, n) := d.regRequest mb
    d.serve mb b n host
  else d.updGate (fun g => { g with wait := g.wait ++ [mb] })

/-- Serve the requests that waited for the Gatehouse, in order. -/
def Dev.serveWaits (d : Dev) : Dev :=
  let w := d.gate.wait
  w.foldl (fun (d : Dev) mb => d.submit mb none) (d.updGate (fun g => { g with wait := [] }))

/-- A write of GO to a register mailbox (Table 13-13, Table 6-7), or of the doorbell of the primary mailbox: no effect while it is 1. An
opcode that is none of the Gatehouse's is Unsupported. -/
def Dev.writeGo (d : Dev) (mb : Mbx) (host : Option Bytes) : Dev :=
  match mb with
  | .ghm => if d.fld Reg.GHM_MBX_CTRL F.GHM_MBX_CTRL_GO = 1 then d else (d.setFld Reg.GHM_MBX_CTRL F.GHM_MBX_CTRL_GO 1).submit mb host
  | .kdv => if d.fld Reg.KDV_MBX_CTRL F.KDV_MBX_CTRL_GO = 1 then d else (d.setFld Reg.KDV_MBX_CTRL F.KDV_MBX_CTRL_GO 1).submit mb host
  | .cxl =>
    if d.doorbell then d
    else if d.devOpcode / 256 = 0xC0 then (d.setDevr devCtrl 1).submit mb host else d.devDone 0x15
  | .i3c => d

/-- A write of a device register: dropped while the doorbell is set. -/
def Dev.devWrite (d : Dev) (off : Nat) (v : Word32) : Dev :=
  if d.doorbell then d
  else if off = devCtrl then (if v.toNat.testBit 0 then d.writeGo .cxl none else d)
  else if off = devCmd ∨ (devData ≤ off ∧ off < devData + cxlPayload) then d.setDevr off v
  else if off = devCmd + 4 then d.setDevr off (v &&& 31)
  else d

/-- A request that arrives on a mailbox; the host's three need the function ready (R280). GHM has no BAR0 in Lodge (R286); the CXL mailbox needs the link, I3C its address (R694), and is
turned away as busy while the Gatehouse does not run. -/
def Dev.request (d : Dev) (mb : Mbx) (req : Bytes) (host : Option Bytes) : Dev :=
  match mb with
  | .ghm =>
    if !d.hp.ready ∨ d.inLodge ∨ d.fld Reg.GHM_MBX_CTRL F.GHM_MBX_CTRL_GO = 1 then d
    else ((d.putBytes (Reg.GHM_MBX_DATA 0) (req.take 256)).setFld Reg.GHM_MBX_CTRL F.GHM_MBX_CTRL_LENGTH (min 511 req.length)).writeGo .ghm host
  | .kdv =>
    if !d.hp.ready ∨ d.fld Reg.KDV_MBX_CTRL F.KDV_MBX_CTRL_GO = 1 then d
    else ((d.putBytes (Reg.KDV_MBX_DATA 0) (req.take 32)).setFld Reg.KDV_MBX_CTRL F.KDV_MBX_CTRL_LENGTH (min 63 req.length)).writeGo .kdv host
  | .cxl =>
    if !d.hp.ready ∨ !d.linkUp ∨ d.doorbell then d
    else ((d.putPayload (req.take cxlPayload)).setDevCmd (cxlOpcode (req.getD 0 0)) (min 0x1FFFFF req.length)).writeGo .cxl host
  | .i3c => if d.gate.up && d.gate.i3c.isSome then d.serve .i3c req req.length host else d

/-- A request's bytes (R602). -/
def reqBytes (cmd tag : Byte) (payload : Bytes) : Bytes := [cmd, tag, 0, 0] ++ payload

/-! ### The mailbox rows -/

/-- GET_INFO (R602). -/
def execGetInfo (mb : Mbx) (tag : Byte) (s : State) : Host.Outcome State Fault Refusal := onDev s fun d => d.request mb (reqBytes 0x01 tag []) none
/-- STAGE_OPEN (R604, R605). -/
def execStageOpen (mb : Mbx) (tag kind : Byte) (len : Word32) (s : State) : Host.Outcome State Fault Refusal := onDev s fun d =>
  d.request mb (reqBytes 0x10 tag (kind :: leBytes 4 len.toNat)) none
/-- STAGE_WRITE (R604, R605). -/
def execStageWrite (mb : Mbx) (tag : Byte) (off : Word32) (data : Bytes) (s : State) : Host.Outcome State Fault Refusal := onDev s fun d =>
  d.request mb (reqBytes 0x11 tag (leBytes 4 off.toNat ++ data)) none
/-- STAGE_HOST (R604, R605): `data` is what the host's memory holds. -/
def execStageHost (mb : Mbx) (tag : Byte) (addr : Word64) (data : Bytes) (s : State) : Host.Outcome State Fault Refusal := onDev s fun d =>
  d.request mb (reqBytes 0x12 tag (leBytes 8 addr.toNat ++ leBytes 4 data.length)) (some data)
/-- STAGE_COMMIT (R581 to R583, R592, R593, R601, R605, R643). -/
def execStageCommit (mb : Mbx) (tag : Byte) (s : State) : Host.Outcome State Fault Refusal := onDev s fun d => d.request mb (reqBytes 0x13 tag []) none
/-- STAGE_ABORT (R604). -/
def execStageAbort (mb : Mbx) (tag : Byte) (s : State) : Host.Outcome State Fault Refusal := onDev s fun d => d.request mb (reqBytes 0x14 tag []) none
/-- KEY_STATUS (Table 13-10). -/
def execKeyStatus (mb : Mbx) (tag : Byte) (handle : Word32) (s : State) : Host.Outcome State Fault Refusal := onDev s fun d =>
  d.request mb (reqBytes 0x20 tag (leBytes 4 handle.toNat)) none
/-- KEY_DISCARD (R600). -/
def execKeyDiscard (mb : Mbx) (tag : Byte) (handle : Word32) (s : State) : Host.Outcome State Fault Refusal := onDev s fun d =>
  d.request mb (reqBytes 0x21 tag (leBytes 4 handle.toNat)) none
/-- DEBUG_STATE (R608). -/
def execDebugState (mb : Mbx) (tag : Byte) (s : State) : Host.Outcome State Fault Refusal := onDev s fun d => d.request mb (reqBytes 0x30 tag []) none
/-- DEBUG_SET (R608, R609). -/
def execDebugSet (mb : Mbx) (tag : Byte) (trace profile : Bool) (addr : Word64) (size : Word32) (s : State) : Host.Outcome State Fault Refusal := onDev s fun d =>
  d.request mb (reqBytes 0x31 tag (leBytes 1 (bit trace) ++ leBytes 1 (bit profile) ++ leBytes 8 addr.toNat ++ leBytes 4 size.toNat)) none
/-- HEALTH_GET (R660, R675). -/
def execHealthGet (mb : Mbx) (tag : Byte) (s : State) : Host.Outcome State Fault Refusal := onDev s fun d => d.request mb (reqBytes 0x60 tag []) none
/-- SUN_INFO (R675). -/
def execSunInfo (mb : Mbx) (tag : Byte) (s : State) : Host.Outcome State Fault Refusal := onDev s fun d => d.request mb (reqBytes 0x61 tag []) none
/-- SUN_READ (R675). -/
def execSunRead (mb : Mbx) (tag : Byte) (sq : Word32) (off len : BitVec 16) (s : State) : Host.Outcome State Fault Refusal := onDev s fun d =>
  d.request mb (reqBytes 0x62 tag (leBytes 4 sq.toNat ++ leBytes 2 off.toNat ++ leBytes 2 len.toNat)) none
/-- SUN_FREEZE (R672, R675). -/
def execSunFreeze (mb : Mbx) (tag on : Byte) (s : State) : Host.Outcome State Fault Refusal := onDev s fun d => d.request mb (reqBytes 0x63 tag [on]) none
/-- SUN_TRIGGER (R675). -/
def execSunTrigger (mb : Mbx) (tag t : Byte) (ctx : BitVec 16) (s : State) : Host.Outcome State Fault Refusal := onDev s fun d =>
  d.request mb (reqBytes 0x64 tag (t :: leBytes 2 ctx.toNat)) none
/-- INVENTORY_GET (R674, R675). -/
def execInventoryGet (mb : Mbx) (tag item : Byte) (idx : BitVec 16) (s : State) : Host.Outcome State Fault Refusal := onDev s fun d =>
  d.request mb (reqBytes 0x68 tag (item :: leBytes 2 idx.toNat)) none
/-- PAIR_SWAP (R655, R675). -/
def execPairSwap (mb : Mbx) (tag : Byte) (s : State) : Host.Outcome State Fault Refusal := onDev s fun d => d.request mb (reqBytes 0x70 tag []) none
/-- PAIR_READMIT (R657, R675). -/
def execPairReadmit (mb : Mbx) (tag core : Byte) (s : State) : Host.Outcome State Fault Refusal := onDev s fun d => d.request mb (reqBytes 0x71 tag [core]) none

end Sys2Proof.Machine
end

