-- ==== Sys2Proof/Machine/Attest.lean ====
section
/-! DEFINITION. The Gatehouse as SPDM responder (R594 to R599), PLDM over MCTP (R674), the I3C address (R694) and trace (R609). The
messages' layouts belong to cited standards: a response is its code and its parts in order (log 11). -/

namespace Sys2Proof.Machine

/-! ### SPDM (R594 to R599) -/

/-- What is negotiated on a transport. -/
def Gate.conn (g : Gate) (tr : SpdmTr) : SpdmConn := match tr with | .i3c => g.i3cConn | .doe => g.doeConn
/-- Change what is negotiated on a transport. -/
def Dev.updConn (d : Dev) (tr : SpdmTr) (f : SpdmConn → SpdmConn) : Dev :=
  d.updGate fun g => match tr with
    | .i3c => { g with i3cConn := f g.i3cConn }
    | .doe => { g with doeConn := f g.doeConn }

/-- Does the Gatehouse answer on a transport: it runs, and I3C has its address or the host link is up? -/
def Dev.hears (d : Dev) (tr : SpdmTr) : Bool :=
  d.gate.up && (match tr with | .i3c => d.gate.i3c.isSome | .doe => d.linkUp)

/-- An SPDM error response with its error code. -/
def Dev.spdmError (d : Dev) (tr : SpdmTr) (code : Nat) : Dev := d.emit (.spdm tr 0x7F (leBytes 1 code))

/-- A response; one that exceeds the requester's greatest message is kept for CHUNK_GET, and a LargeResponse error names it. -/
def Dev.spdmReply (d : Dev) (tr : SpdmTr) (code : Nat) (data : Bytes) : Dev :=
  match (d.gate.conn tr).xfer with
  | some x =>
    if 0 < x ∧ x < data.length then
      let (d, i) := d.takeFree
      let h := Config.freeChoice i % 256
      (d.updConn tr (fun c => { c with large := some (h, 0, data) })).emit (.spdm tr 0x7F (leBytes 1 0x0F ++ leBytes 1 h))
    else d.emit (.spdm tr code data)
  | none => d.emit (.spdm tr code data)

/-- Has the requester on a transport agreed on algorithms? -/
def Dev.agreed (d : Dev) (tr : SpdmTr) : Bool := (d.gate.conn tr).sha3.isSome
/-- The negotiated hash of some bytes. -/
def Dev.hash (d : Dev) (tr : SpdmTr) (b : Bytes) : Bytes := Config.hash384 ((d.gate.conn tr).sha3.getD false) b
/-- The certificate chain of slot 0 (R587, R588). -/
def Dev.chain (d : Dev) : Bytes := Config.certChain d.serialNo (d.gate.ds.getD 0) ++ d.gate.attestCert

/-- GET_VERSION (R594): the versions 1.2 and 1.3; the requester starts afresh. -/
def execGetVersion (tr : SpdmTr) (s : State) : Host.Outcome State Fault Refusal := onDev s fun d =>
  if d.hears tr then (d.updConn tr (fun _ => SpdmConn.reset)).spdmReply tr 0x04 (leBytes 2 0x1200 ++ leBytes 2 0x1300) else d

/-- The capability flags of Table 13-7, as SPDM numbers them: CERT, CHAL, MEAS with signatures, ENCRYPT, MAC, KEY_EX, HBEAT, KEY_UPD and CHUNK
(PRESUMED, log 11). -/
def spdmFlags : Nat := 0x262D6
/-- The registry of IANA among SPDM's (PRESUMED, log 11). -/
def ianaRegistry : Byte := 4
/-- The identifiers of R595: SPDM's IANA registry and Kembemel's enterprise number. -/
def Dev.vendorIds (d : Dev) : Bytes := [ianaRegistry] ++ leBytes 4 (d.reg Reg.GHM_IDENT).toNat

/-- GET_CAPABILITIES (R594): the capability flags come back; the version and the greatest message of the requester. -/
def execGetCapabilities (tr : SpdmTr) (ver : Byte) (xfer : Nat) (s : State) : Host.Outcome State Fault Refusal := onDev s fun d =>
  if !d.hears tr then d
  else if ver = 0x12 ∨ ver = 0x13 then (d.updConn tr (fun c => { c with version := some ver.toNat, xfer := some xfer })).spdmReply tr 0x61 (leBytes 4 spdmFlags)
  else d.spdmError tr 0x41

/-- Does an offer hold what the responder supports (Table 13-7, R595)? -/
def Dev.offerOk (d : Dev) (a : AlgReq) : Bool :=
  (a.sha384 || a.sha3) && a.registry == ianaRegistry && a.enterprise == d.reg Reg.GHM_IDENT && a.oid == Config.oid10.setWidth 32 && a.secp384r1 && a.aes256gcm

/-- NEGOTIATE_ALGORITHMS (R594, R595): which hash is taken when both are offered is open. -/
def execNegotiateAlgorithms (tr : SpdmTr) (a : AlgReq) (s : State) : Host.Outcome State Fault Refusal := onDev s fun d =>
  if !d.hears tr then d
  else if (d.gate.conn tr).version.isNone then d.spdmError tr 0x04
  else if !d.offerOk a then d.spdmError tr 0x01
  else
    let (d, i) := d.takeFree
    let sha3 := if a.sha384 && a.sha3 then Config.freeChoice i % 2 == 1 else a.sha3
    (d.updConn tr (fun c => { c with sha3 := some sha3 })).spdmReply tr 0x63 (leBytes 1 (bit sha3) ++ d.vendorIds ++ [0, 0, 0, Config.oid10])

/-- A request that needs agreed algorithms. -/
def Dev.onAgreed (d : Dev) (tr : SpdmTr) (f : Dev → Dev) : Dev :=
  if !d.hears tr then d else if d.agreed tr then f d else d.spdmError tr 0x04

/-- GET_DIGESTS (R594): slot 0. -/
def execGetDigests (tr : SpdmTr) (s : State) : Host.Outcome State Fault Refusal := onDev s fun d =>
  d.onAgreed tr fun d => d.spdmReply tr 0x01 (d.hash tr d.chain)

/-- GET_CERTIFICATE (R587, R594): a portion of the chain and what remains. -/
def execGetCertificate (tr : SpdmTr) (slot : Byte) (off len : Nat) (s : State) : Host.Outcome State Fault Refusal := onDev s fun d =>
  d.onAgreed tr fun d =>
    if slot ≠ 0 ∨ d.chain.length ≤ off then d.spdmError tr 0x01
    else
      let part := (d.chain.drop off).take len
      d.spdmReply tr 0x02 (leBytes 2 part.length ++ leBytes 2 (d.chain.length - off - part.length) ++ part)

/-- Answer with a signature over a message (R580, R588 to R590): ResponseNotReady until the Keys phase has ended and after an orderly
stop; Unspecified when no attestation key can be certified. -/
def Dev.signedReply (d : Dev) (tr : SpdmTr) (code : Nat) (head msg : Bytes) : Dev :=
  if !d.gate.signing then d.spdmError tr 0x42
  else match d.attestSign msg with
    | (d, some sig) => d.spdmReply tr code (head ++ sig)
    | (d, none) => d.spdmError tr 0x05

/-- CHALLENGE (R588, R589, R594): the digest of the chain, a nonce and the attestation signature. -/
def execChallenge (tr : SpdmTr) (slot : Byte) (nonce : BitVec 256) (s : State) : Host.Outcome State Fault Refusal := onDev s fun d =>
  d.onAgreed tr fun d =>
    if slot ≠ 0 then d.spdmError tr 0x01
    else
      let (d, i) := d.takeFree
      let head := d.hash tr d.chain ++ leBytes 32 (Config.random256 i).toNat
      d.signedReply tr 0x03 head (leBytes 32 nonce.toNat ++ head)

/-- A measurement block (Table 13-8): a digest, or the raw debug state word. -/
def Dev.measure (d : Dev) (tr : SpdmTr) (k : Nat) : Bytes :=
  match k with
  | 1 => d.hash tr Config.maskRom
  | 2 => d.hash tr (d.gate.run.getD [])
  | 3 => d.hash tr (d.gate.conf.getD [])
  | 4 => d.hash tr (d.org.model.getD [])
  | 5 => d.hash tr (d.gate.owner.getD [])
  | 6 => leBytes 4 (d.reg Reg.GHM_DEBUG).toNat
  | _ => d.hash tr (leBytes 4 (d.readReg Reg.MEM_IDENT).toNat ++ bitMap 20 (fun p => (d.mem.pkg p).st == .retired))

/-- The blocks that GET_MEASUREMENTS names: their number for 0, all for 0xFF, one for 1 to 7. -/
def Dev.measureBlocks (d : Dev) (tr : SpdmTr) (idx : Nat) : Option Bytes :=
  if idx = 0 then some (leBytes 1 7)
  else if idx = 0xFF then some ((List.range 7).flatMap (fun k => leBytes 1 (k + 1) ++ d.measure tr (k + 1)))
  else if idx ≤ 7 then some (leBytes 1 idx ++ d.measure tr idx)
  else none

/-- GET_MEASUREMENTS (R588, R589, R594, R596). -/
def execGetMeasurements (tr : SpdmTr) (idx : Byte) (sign : Bool) (nonce : BitVec 256) (s : State) : Host.Outcome State Fault Refusal := onDev s fun d =>
  d.onAgreed tr fun d =>
    match d.measureBlocks tr idx.toNat with
    | none => d.spdmError tr 0x01
    | some b => if sign then d.signedReply tr 0x60 b (leBytes 32 nonce.toNat ++ b) else d.spdmReply tr 0x60 b

/-! ### Sessions -/

/-- A session as KEY_EXCHANGE opens it, under the keys of the handshake. -/
def SpdmSession.opened (n : Nat) (tr : SpdmTr) (data : Bytes) : SpdmSession :=
  let s := Config.sessionSecret n data
  { id := n, tr := tr, open_ := false, secret := s, reqKey := Config.sessionKey false false s, rspKey := Config.sessionKey true false s, rspSeq := 0 }
/-- A session that FINISH has completed: the keys of the data. -/
def SpdmSession.secured (x : SpdmSession) : SpdmSession :=
  { x with open_ := true, reqKey := Config.sessionKey false true x.secret, rspKey := Config.sessionKey true true x.secret, rspSeq := 0 }
/-- A KEY_UPDATE: 1 the key of requests, 2 both keys, 3 none. -/
def SpdmSession.update (x : SpdmSession) (op : Nat) : SpdmSession :=
  let x := if op = 1 ∨ op = 2 then { x with reqKey := Config.nextKey x.reqKey } else x
  if op = 2 then { x with rspKey := Config.nextKey x.rspKey, rspSeq := 0 } else x

/-- KEY_EXCHANGE (R588, R589, R594): a session opens its handshake, at most 8 at once over all transports. -/
def execKeyExchange (tr : SpdmTr) (slot : Byte) (data : Bytes) (s : State) : Host.Outcome State Fault Refusal := onDev s fun d =>
  d.onAgreed tr fun d =>
    if slot ≠ 0 then d.spdmError tr 0x01
    else if 8 ≤ d.gate.sessions.length then d.spdmError tr 0x0A
    else if !d.gate.signing then d.spdmError tr 0x42
    else
      let n := d.gate.nextSess
      let head := leBytes 4 n ++ Config.exchangeData n data
      match d.attestSign (data ++ head) with
      | (d, some sig) => (d.updGate (fun g => { g with nextSess := n + 1, sessions := g.sessions ++ [SpdmSession.opened n tr data] })).spdmReply tr 0x64 (head ++ sig)
      | (d, none) => d.spdmError tr 0x05

/-- A session by its identifier. -/
def Gate.session? (g : Gate) (n : Nat) : Option SpdmSession := g.sessions.find? (fun x => x.id == n)
/-- End a session. -/
def Dev.dropSession (d : Dev) (n : Nat) : Dev := d.updGate (fun g => { g with sessions := g.sessions.filter (fun x => x.id != n) })

/-- Change a session. -/
def Dev.updSession (d : Dev) (n : Nat) (f : SpdmSession → SpdmSession) : Dev :=
  d.updGate fun g => { g with sessions := g.sessions.map (fun (y : SpdmSession) => if y.id = n then f y else y) }
/-- A response inside a session leaves sealed with AES-256-GCM under the session's response key; the session identifier is authenticated and
the number of the response is the IV (R594, log 11). -/
def Dev.sealedReply (d : Dev) (n : Nat) (code : Nat) (data : Bytes) : Dev :=
  match d.gate.session? n with
  | some x =>
    let c := Config.gcmSeal x.rspKey x.rspSeq (leBytes 4 n) (leBytes 1 code ++ data)
    (d.updSession n (fun y => { y with rspSeq := y.rspSeq + 1 })).emit (.spdmSealed x.tr n c (Config.gcmTag x.rspKey x.rspSeq (leBytes 4 n) c))
  | none => d
/-- An error response inside a session. -/
def Dev.sealedError (d : Dev) (n code : Nat) : Dev := d.sealedReply n 0x7F (leBytes 1 code)

/-- FINISH (R594): the handshake verifies and the session is secured, or the session ends. -/
def execFinish (sess : Nat) (data : Bytes) (s : State) : Host.Outcome State Fault Refusal := onDev s fun d =>
  match d.gate.session? sess with
  | none => d
  | some x =>
    if !d.hears x.tr then d
    else if x.open_ then d.sealedError sess 0x04
    else if Config.finishOk sess data then (d.sealedReply sess 0x65 []).updSession sess SpdmSession.secured
    else (d.sealedError sess 0x06).dropSession sess

/-- A request inside a secured session. -/
def Dev.inSession (d : Dev) (n : Nat) (f : Dev → Dev) : Dev :=
  match d.gate.session? n with
  | some x => if d.hears x.tr && x.open_ then f d else d
  | none => d

/-- HEARTBEAT (R594). -/
def execHeartbeat (sess : Nat) (s : State) : Host.Outcome State Fault Refusal := onDev s fun d => d.inSession sess fun d => d.sealedReply sess 0x68 []

/-- KEY_UPDATE (R594): operations 1 to 3; the response is sealed under the keys then in force. -/
def execKeyUpdate (sess : Nat) (op : Byte) (s : State) : Host.Outcome State Fault Refusal := onDev s fun d =>
  d.inSession sess fun d =>
    if 1 ≤ op.toNat ∧ op.toNat ≤ 3 then (d.updSession sess (fun x => x.update op.toNat)).sealedReply sess 0x69 [op] else d.sealedError sess 0x01

/-- END_SESSION (R594). -/
def execEndSession (sess : Nat) (s : State) : Host.Outcome State Fault Refusal := onDev s fun d =>
  d.inSession sess fun d => (d.sealedReply sess 0x6C []).dropSession sess

/-- CHUNK_GET (R594): the next chunk of a large response. -/
def execChunkGet (tr : SpdmTr) (handle n : Nat) (s : State) : Host.Outcome State Fault Refusal := onDev s fun d =>
  if !d.hears tr then d
  else match (d.gate.conn tr).large, (d.gate.conn tr).xfer with
    | some (h, k, b), some x =>
      if h = handle ∧ k = n ∧ 0 < x then
        let rest := b.drop x
        let l := if rest.isEmpty then none else some (h, k + 1, rest)
        (d.updConn tr (fun c => { c with large := l })).emit (.spdm tr 0x06 (b.take x))
      else d.spdmError tr 0x01
    | _, _ => d.spdmError tr 0x04

/-- Is a message inside a secured session of a transport? -/
def Dev.secured (d : Dev) (tr : SpdmTr) (sess : Option Nat) : Bool :=
  match sess with
  | some n => (match d.gate.session? n with | some x => x.open_ && x.tr == tr | none => false)
  | none => false

/-- A vendor-defined response, under the identifiers of R595: sealed inside a session that stands, else in the clear. -/
def Dev.vendorReply (d : Dev) (tr : SpdmTr) (sess : Option Nat) (data : Bytes) : Dev :=
  match sess.filter (fun _ => d.secured tr sess) with
  | some n => d.sealedReply n 0x7E (d.vendorIds ++ data)
  | none => d.spdmReply tr 0x7E (d.vendorIds ++ data)

/-- DELIVER_KEY (R595, R598, R599): OP 1, TOKEN and a 32-byte key, inside a secured session and under the identifiers of R595; STATUS and
HANDLE come back. A request under other identifiers is unsupported. -/
def execDeliverKey (tr : SpdmTr) (sess : Option Nat) (req : VendorReq) (s : State) : Host.Outcome State Fault Refusal := onDev s fun d =>
  let data := req.data
  let tell := fun (d : Dev) (st h : Nat) => d.vendorReply tr sess (leBytes 1 st ++ leBytes 4 h)
  if !d.hears tr then d
  else if req.registry ≠ ianaRegistry ∨ req.enterprise ≠ d.reg Reg.GHM_IDENT then
    (match sess.filter (fun _ => d.secured tr sess) with | some n => d.sealedError n 0x07 | none => d.spdmError tr 0x07)
  else if !d.secured tr sess then tell d 7 0
  else if data.length ≠ 41 ∨ blobNat data 0 1 ≠ 1 then tell d 5 0
  else match d.storeKey (BitVec.ofNat 64 (blobNat data 1 8)) (BitVec.ofNat 256 (blobNat data 9 32)) with
    | (d, some h) => tell d 0 h.toNat
    | (d, none) => tell d 8 0

/-- What an IDE_KM message does to its stream: it programs the key, sets the stream going when it has a key, or stops it. -/
def IdeStream.km (x : IdeStream) (m : IdeMsg) : IdeStream :=
  match m.op with
  | .prog => { x with key := some m.data }
  | .go => if x.key.isSome then { x with on := true, skid := m.skid } else x
  | .stop => { x with on := false }

/-- An IDE_KM message acts on the stream of CXL.cachemem or on the one of CXL.io. -/
def HostPort.km (h : HostPort) (m : IdeMsg) : HostPort := if m.cachemem then { h with cm := h.cm.km m } else { h with io := h.io.km m }

/-- IDE_KM (R315, R316, R597): sets the link's IDE keys and turns its streams on and off, only inside a secured session over Data
Object Exchange. DESIGN CHOICE (log 46): its response carries the bytes of the request; the manual gives a response no content. -/
def execIdeKm (tr : SpdmTr) (sess : Option Nat) (data : IdeMsg) (s : State) : Host.Outcome State Fault Refusal := onDev s fun d =>
  if !d.hears tr then d
  else match sess.filter (fun _ => d.secured tr sess) with
    | some n => if tr = .doe then ({ d with hp := d.hp.km data } : Dev).sealedReply n 0x7E data.data else d.sealedError n 0x0B
    | none => d.spdmError tr 0x0B

/-! ### PLDM, I3C, trace -/

/-- What a PLDM request is answered with: its type and its data; nothing for a type that is not answered (R674). -/
def Dev.pldm (d : Dev) (m : PldmReq) : Option (Nat × Bytes) :=
  match m with
  | .base => some (0, [0, 2, 4])
  | .sensor n => some (2, if (sensorKind n.val).isSome then leBytes 4 (d.sensorReg n.val).toNat else [])
  | .inputPower => some (2, leBytes 2 (d.fld Reg.CKP_PIN F.CKP_PIN_WATTS))
  | .ceiling => some (2, leBytes 4 (d.reg Reg.ORG_CEIL).toNat)
  | .overall => some (2, leBytes 1 d.overall)
  | .fru item idx => some (4, (d.inventory item.toNat idx.toNat).getD [])
  | .other _ => none

/-- PLDM_REQUEST (R674, R694). -/
def execPldmRequest (m : PldmReq) (s : State) : Host.Outcome State Fault Refusal := onDev s fun d =>
  if d.hears .i3c then (match d.pldm m with | some (t, b) => d.emit (.pldm t b) | none => d) else d

/-- The provisional ID of the I3C target: Kembemel's manufacturer ID, which the manual does not give, is free; part identifier
0x0A90, instance SLOT_ID[3:0] (R694). -/
def Dev.provisionalId (d : Dev) (maker : Nat) : Nat :=
  maker * 2 ^ 33 + 0x0A90 * 2 ^ 16 + d.fld Reg.TBC_NODE F.TBC_NODE_SLOT % 16 * 2 ^ 12

/-- ENTDAA (R694): a target without an address takes the one that the controller assigns. -/
def execEntdaa (addr : BitVec 7) (s : State) : Host.Outcome State Fault Refusal := onDev s fun d =>
  match d.gate.i3c with
  | some _ => d
  | none =>
    let (d, i) := d.takeFree
    (d.updGate (fun g => { g with i3c := some addr })).emit (.entdaa (d.provisionalId (Config.freeChoice i % 2 ^ 15)) addr)

/-- A trace record (R609). -/
def Dev.traceBytes (d : Dev) (r : TraceRec) : Bytes :=
  leBytes 6 (if d.time.valid then d.nt else 0) ++ leBytes 1 r.pav.val ++ [r.kind] ++ leBytes 2 r.queue.val ++ List.replicate 6 0 ++
    leBytes 8 r.seq.toNat ++ leBytes 8 r.value.toNat

/-- Can the PF write host memory? -/
def Dev.pfReach (d : Dev) : Bool := d.linkUp && d.busMaster 0 && !d.hp.d3hot

/-- Write a trace record into the host ring, or count it lost (R609). -/
def Dev.traceWrite (d : Dev) (r : TraceRec) : Dev :=
  if d.pfReach && d.gate.traceSize != 0 then
    let a := d.gate.traceBase.toNat + 32 * d.gate.traceIx
    let n := (d.gate.traceIx + 1) % d.gate.traceSize
    (d.emit (.hostWrite ⟨0, none, .memWrite false, false⟩ (BitVec.ofNat 64 a) (d.traceBytes r))).updGate (fun g => { g with traceIx := n })
  else d.raise (Reg.GHM_EVT 2)

/-- What trace has seen of a Pavilion after a record of it. -/
def TracePav.saw (x : TracePav) (r : TraceRec) (faults : Nat) : TracePav :=
  match r.kind.toNat with
  | 1 => { x with run := some (r.queue.val, r.seq.toNat) }
  | 2 => { x with run := none }
  | 3 => { x with faults := faults }
  | 4 => { x with stalled := true }
  | 5 => { x with stalled := false }
  | 6 => { x with lease := r.value.toNat }
  | _ => x

/-- Trace is enabled (R608). -/
def Dev.tracing (d : Dev) : Bool := (d.reg Reg.GHM_DEBUG).toNat.testBit 3

/-- TRACE_RECORD (R609): the queue engine writes a record of one of the seven kinds while TRACE is enabled. -/
def execTraceRecord (r : TraceRec) (s : State) : Host.Outcome State Fault Refusal := onDev s fun d =>
  if !d.tracing ∨ r.kind = 0 ∨ 7 < r.kind.toNat then d
  else
    let p := r.pav.val
    let f := (d.tracePav p).faults
    let g := d.updGate (fun g => if r.kind = 7 then { g with traceHaz := g.traceHaz ||| 2 ^ (r.value.toNat % 64) }
      else { g with tracePavs := Tab.upd TracePav.reset g.tracePavs p (fun x => x.saw r f) })
    g.traceWrite r

/-- The records that a Pavilion owes: a fault, an end of its share, a start of another, a stall or a resumption, a change of lease. -/
def Dev.traceDue (d : Dev) (p : Pv) : List TraceRec :=
  let x := Tab.get TracePav.reset d.gate.tracePavs p.val
  let y := d.tracePav p.val
  let rec_ := fun (run : Option (Nat × Nat)) (k v : Nat) =>
    let (q, n) := run.getD (0, 0)
    ({ pav := p, kind := BitVec.ofNat 8 k, queue := Fin.ofNat 4096 q, seq := BitVec.ofNat 64 n, value := BitVec.ofNat 64 v } : TraceRec)
  (if y.faults > x.faults then [rec_ (if x.run.isSome then x.run else y.run) 3 (d.fld (Reg.PAV_FAULT p.val) F.PAV_FAULT_CODE)] else []) ++
  (if x.run.isSome ∧ x.run ≠ y.run then [rec_ x.run 2 0] else []) ++
  (if y.run.isSome ∧ x.run ≠ y.run then [rec_ y.run 1 0] else []) ++
  (if y.stalled ∧ !x.stalled then [rec_ y.run 4 0] else if x.stalled ∧ !y.stalled ∧ y.run.isSome then [rec_ y.run 5 0] else []) ++
  (if y.lease ≠ x.lease then [rec_ y.run 6 y.lease] else [])

/-- The hazards latched since trace saw them. -/
def Dev.hazDue (d : Dev) : List TraceRec :=
  ((List.range 6).filter (fun k => d.latched.testBit k && !d.gate.traceHaz.testBit k)).map
    (fun k => { pav := 0, kind := 7, queue := 0, seq := 0, value := BitVec.ofNat 64 k })

/-- While TRACE is enabled the queue engine writes what has happened (R609). -/
def Dev.trace (d : Dev) : Dev :=
  if d.tracing then (((List.range 160).flatMap (fun p => d.traceDue (Fin.ofNat 160 p)) ++ d.hazDue).foldl Dev.traceWrite d).traceMark else d

end Sys2Proof.Machine
end

