-- ==== Sys2Proof/Machine/Component.lean ====
section
/-! DEFINITION. The component registers of PF BAR2 (R291, R299 to R302, R324). The manual names the capabilities; their places and layouts
follow CXL (PRESUMED, log 74). -/

namespace Sys2Proof.Machine

/-- The array of capability headers: the array's own header, RAS, HDM decoder, BI decoder. -/
def compHeaders : List Nat := [0x03110001, 0x10020002, 0x20030005, 0x4001000C]

/-- The HDM Decoder Capability (R299): four decoders, 16-way interleave, no 3-, 6- and 12-way. -/
def hdmCapability : Nat := 2 + 2 ^ 8 + 2 ^ 9 + 2 ^ 12

/-- The decoder and the register in it that an offset names. -/
def hdmAt (off : Nat) : Option (Nat × Nat) :=
  let r := off - hdmReg 0 0
  if hdmReg 0 0 ≤ off ∧ r < 0x80 ∧ r % 0x20 / 4 < 7 then some (r / 0x20, r % 0x20 / 4) else none

/-- What a component register reads. Committed and Error Not Committed are those of the decoder (R300). -/
def Dev.compRead (d : Dev) (off : Nat) : Word32 :=
  if 0x1000 ≤ off ∧ off < 0x1010 then BitVec.ofNat 32 (compHeaders.getD ((off - 0x1000) / 4) 0)
  else if rasUe ≤ off ∧ off < rasUe + 0x58 then d.comp off
  else if off = 0x1200 then BitVec.ofNat 32 hdmCapability
  else if off = 0x1204 then d.comp off
  else match hdmAt off with
    | some (n, 4) => d.comp off ||| (match d.hdm n with | some h => BitVec.ofNat 32 (2048 * bit h.err + 1024 * bit h.committed) | none => 0)
    | some _ => d.comp off
    | none => if off = 0x1404 then BitVec.ofNat 32 (2 * bit d.hp.biEnable) else 0

/-- The programming that the registers of decoder n hold. Which position the module has in an interleave the registers do not say: it
is free. -/
def Dev.hdmProgram (d : Dev) (n pos : Nat) : HdmReq :=
  let c := d.comp (hdmReg n 4)
  let two := fun (k : Nat) => d.comp (hdmReg n (k + 1)) ++ d.comp (hdmReg n k)
  let iw := bitsOf c.toNat 4 4
  ⟨two 0, two 2, two 5, BitVec.ofNat 4 c.toNat, BitVec.ofNat 4 iw, BitVec.ofNat 4 (pos % 2 ^ iw), c.toNat.testBit 13, d.hp.biEnable,
   c.toNat.testBit 8⟩

/-- A write of register k of decoder n (R300, R302): dropped while the decoder is locked; Commit commits when it becomes 1, and takes
the decoder away when it becomes 0. -/
def Dev.hdmWrite (d : Dev) (n k : Nat) (v : Word32) : Dev :=
  if d.hdmLocked n then d
  else
    let was := (d.comp (hdmReg n 4)).toNat.testBit 9
    let d := d.setComp (hdmReg n k) (v &&& BitVec.ofNat 32 (hdmMask k))
    let now := (d.comp (hdmReg n 4)).toNat.testBit 9
    if now && !was then
      let (d, i) := d.takeFree
      d.hdmCommit n (d.hdmProgram n (Config.freeChoice i))
    else if was && !now then { d with hp := { d.hp with hdm := Tab.set none d.hp.hdm n none } }
    else d

/-- A write of a component register: RAS status bits clear by 1, masks and severity take their defined bits (R324), BI Enable acts
(R301). -/
def Dev.compWrite (d : Dev) (off : Nat) (v : Word32) : Dev :=
  if off = rasUe ∨ off = rasCe then d.setComp off (d.comp off &&& ~~~ v)
  else if off = rasUe + 4 ∨ off = rasUe + 8 then d.setComp off (v &&& BitVec.ofNat 32 rasUeBits)
  else if off = rasCe + 4 then d.setComp off (v &&& BitVec.ofNat 32 rasCeBits)
  else if off = 0x1204 then d.setComp off (v &&& 3)
  else match hdmAt off with
    | some (n, k) => d.hdmWrite n k v
    | none => if off = 0x1404 then d.setBi (v.toNat.testBit 1) else d

end Sys2Proof.Machine
end

