-- ==== Sys2Proof/Machine/RegWrite.lean ====
section
/-! DEFINITION. Reads and writes of registers from outside (chapter 16): the registers whose write does more than its access
codes, 64-bit accesses, refused accesses, reads that clear or latch, and the other BARs (R293 to R297). -/

namespace Sys2Proof.Machine

/-- What a command's meaning does to the block, for a register whose write is that command. -/
def Dev.row (d : Dev) (f : State → Host.Outcome State Fault Refusal) : Dev :=
  match f ⟨[], d⟩ with
  | .next s => s.dev
  | _ => d

/-! ### Registers whose write does more than its access codes -/

/-- A write to QCT address, QCT_CFG and QCT_PASID fields is dropped while the queue is not DISABLED (R378). -/
def Dev.writeQctCtx (d : Dev) (off q : Nat) (v : Word32) : Dev := if (d.queue q).st = .disabled then d.writeCodes off v else d

/-- QCT_CTRL (R377, R378). -/
def Dev.writeQctCtrl (d : Dev) (q : Nat) (v : Word32) : Dev :=
  let d := if F.QCT_CTRL_ARM.get v = 1 then d.row (execQctArm (Fin.ofNat 4096 q)) else d
  if F.QCT_CTRL_DISABLE.get v = 1 then d.row (execQueueDisable (Fin.ofNat 4096 q)) else d

/-- A doorbell's high half is latched; a page of a queue that uses its doorbell line drops the write (R338). -/
def Dev.writeDbpHi (d : Dev) (off q : Nat) (v : Word32) : Dev := if (d.queue q).useLine then d else d.writeCodes off v

/-- TRL_PORT_CFG (R434, R438, Table 9-15): EN and RETRAIN act at once. -/
def Dev.writePortCfg (d : Dev) (p : Nat) (v : Word32) : Dev :=
  let off := Reg.TRL_PORT_CFG p
  let was := d.fld off F.TRL_PORT_CFG_EN
  let en := F.TRL_PORT_CFG_EN.get v
  let r := d.fld off F.TRL_PORT_CFG_RETRAIN
  let d := (d.writeCodes off (F.TRL_PORT_CFG_RETRAIN.put v 0)).setFld off F.TRL_PORT_CFG_RETRAIN r
  let d := if en = 1 ∨ was = 1 ∧ en = 0 then d.row (execPortEnable (Fin.ofNat 18 p) (en == 1)) else d
  if F.TRL_PORT_CFG_RETRAIN.get v = 1 then d.row (execRetrain (Fin.ofNat 18 p)) else d

/-- ORG_ZONE_CFG (R482): the reserved SRC values 2 and 3 leave SRC as it is (DESIGN CHOICE, log 67). -/
def Dev.writeZoneCfg (d : Dev) (z : Nat) (v : Word32) : Dev :=
  let off := Reg.ORG_ZONE_CFG z
  let v := if 2 ≤ F.ORG_ZONE_CFG_SRC.get v then F.ORG_ZONE_CFG_SRC.put v (d.fld off F.ORG_ZONE_CFG_SRC) else v
  d.writeCodes off v

/-- EXCLUDE of a sensor (R478): ignored without a pair, and for the second flow meter. -/
def Dev.writeSensor (d : Dev) (n : Nat) (v : Word32) : Dev :=
  let ex := v.toNat.testBit 31
  if !hasPair n || (d.sensor n).excl == ex || (ex && decide (28 ≤ n ∧ n ≤ 29) && (d.sensor (partner n)).excl) then d
  else
    let d := d.updSensor n (fun (x : Sensor) => { x with excl := ex })
    if ex then (d.flagPair (pairLow n)).fire 56 n else d.updSpair (pairLow n) (fun (x : SPair) => { x with dis := 0, agr := 0 })

/-- VDR_PROG and VDR_PSTORE, writable while EDIT is 1 (R536). -/
def Dev.writeEdit (d : Dev) (off : Nat) (v : Word32) : Dev := if d.editing then d.writeCodes off v else d

/-- VDR_SW_CFG (R540): PARALLEL of switch 7, while channels 14 and 15 are IDLE. -/
def Dev.writeSwCfg (d : Dev) (k : Nat) (v : Word32) : Dev :=
  if k = 7 ∧ (d.chan 14).st = .idle ∧ (d.chan 15).st = .idle then d.writeCodes (Reg.VDR_SW_CFG 7) v else d

/-- VDR_CH_CFG (Table 11-8): FITTED of the spare channels is RWL; a channel that is not fitted is never powered (R543). -/
def Dev.writeChCfg (d : Dev) (c : Nat) (v : Word32) : Dev :=
  let off := Reg.VDR_CH_CFG c
  let lock := d.fld Reg.VDR_CTRL F.VDR_CTRL_LOCK = 1
  let d := d.writeCodes off v
  let d := if 14 ≤ c ∧ !lock then
      let fit := F.VDR_CH_CFG_FITTED.get v
      let d := d.setFld off F.VDR_CH_CFG_FITTED fit
      if fit = 0 then d.cutChan c (d.chan c).st.off else d
    else d
  d.follow (if d.paired ∧ c = 15 then 14 else c)

/-- VDR_CH_CMD (Table 11-8): a command of the operator for a channel that it owns. -/
def Dev.writeChCmd (d : Dev) (c : Nat) (v : Word32) : Dev :=
  let l := F.VDR_CH_CMD_LEVEL.get v
  if !d.operatorOwned c then d
  else match F.VDR_CH_CMD_OP.get v with
    | 1 => d.chSend c (.start l)
    | 2 => d.chSend c (.level l)
    | 3 => d.chSend c .stop
    | _ => d

/-- A controller of the thermal bus by number. -/
def tbOf (t : Nat) : Tb := if t = 0 then .tb0 else .tb1

/-- TBC_CTRL (R556, R567, R569, Table 12-4): a reserved MODE leaves MODE as it is (DESIGN CHOICE, log 67); RECOVER clears as recovery begins. -/
def Dev.writeBusCtrl (d : Dev) (t : Nat) (v : Word32) : Dev :=
  let off := Reg.TBC_CTRL t
  let w := if 2 ≤ F.TBC_CTRL_MODE.get v then F.TBC_CTRL_MODE.put v (d.fld off F.TBC_CTRL_MODE) else v
  let en := d.fld off F.TBC_CTRL_EN
  let d := ((d.writeCodes off (F.TBC_CTRL_RECOVER.put w 0)).busRelease t).busHold t
  let d := if en = 0 ∧ d.fld off F.TBC_CTRL_EN = 1 then d.busWait t else d
  if F.TBC_CTRL_RECOVER.get v = 1 then d.row (execRecover (tbOf t)) else d

/-- TBC_NBT and TBC_DBT (R554): dropped while EN is 1. -/
def Dev.writeTiming (d : Dev) (off t : Nat) (v : Word32) : Dev := if d.fld (Reg.TBC_CTRL t) F.TBC_CTRL_EN = 1 then d else d.writeCodes off v

/-- TBC_MB_CTRL (R557, R561, R562): ONESHOT of an operator mailbox, then REQ, then CANCEL. -/
def Dev.writeMbCtrl (d : Dev) (t m : Nat) (v : Word32) : Dev :=
  let d := if m ≤ 15 then d else d.setFld (Reg.TBC_MB_CTRL t m) F.TBC_MB_CTRL_ONESHOT (F.TBC_MB_CTRL_ONESHOT.get v)
  let d := if F.TBC_MB_CTRL_REQ.get v = 1 then d.row (execReq (tbOf t) (Fin.ofNat 64 m)) else d
  if F.TBC_MB_CTRL_CANCEL.get v = 1 then d.row (execCancel (tbOf t) (Fin.ofNat 64 m)) else d

/-- A write to another register of a mailbox; the module's own mailboxes drop it (R557). -/
def Dev.writeMb (d : Dev) (off m : Nat) (v : Word32) : Dev := if m ≤ 15 then d else d.writeCodes off v

/-- A filter register; filters 0 to 31 are read-only (Table 12-7). -/
def Dev.writeFilt (d : Dev) (off f : Nat) (v : Word32) : Dev := if f ≤ 31 then d else d.writeCodes off v

/-- TBC_TIME_SET_HI: latched until the next write to LO (Table 12-8). -/
def Dev.writeTimeHi (d : Dev) (v : Word32) : Dev := d.setReg Reg.TBC_TIME_SET_HI (v &&& 0xFFFF)

/-- LENGTH and GO of a register mailbox (Tables 6-7, 13-13): dropped while GO is 1. -/
def Dev.writeMbx (d : Dev) (mb : Mbx) (v : Word32) : Dev :=
  let off := match mb with | .ghm => Reg.GHM_MBX_CTRL | _ => Reg.KDV_MBX_CTRL
  if (d.reg off).toNat.testBit 31 then d
  else
    let d := d.writeCodes off (v &&& 0x7FFFFFFF)
    if v.toNat.testBit 31 then d.writeGo mb none else d

/-- A data register of a register mailbox: dropped while GO is 1. -/
def Dev.writeMbxData (d : Dev) (ctrl off : Nat) (v : Word32) : Dev := if (d.reg ctrl).toNat.testBit 31 then d else d.writeCodes off v

/-- SUN_LIST (R668): a change raises LIST_GEN and starts the wait of 10 ms. -/
def Dev.writeSunList (d : Dev) (l i : Nat) (v : Word32) : Dev :=
  let off := Reg.SUN_LIST l i
  let e := d.writeCodes off v
  let now := d.clock
  if e.reg off = d.reg off then
    (if (Tab.get none d.sun.changed l).isSome then { d with sun := { d.sun with changed := Tab.set none d.sun.changed l (some now) } } else d)
  else
    let e : Dev := { e with sun := { e.sun with changed := Tab.set none e.sun.changed l (some now) } }
    e.setFld (Reg.SUN_LIST_GEN l) F.SUN_LIST_GEN_GEN (e.fld (Reg.SUN_LIST_GEN l) F.SUN_LIST_GEN_GEN + 1)

/-- A register or a family of registers whose write acts beyond its access codes: its base, the strides and counts of its
indices, and what a write at indices i and j does. -/
structure Special where
  base : Nat
  dims : List (Nat × Nat)
  act : Dev → Nat → Nat → Word32 → Dev

/-- Specials of chapters 5 to 9. -/
def specials1 : List Special := [
  ⟨Reg.MEM_RETIRE_CMD, [], fun d _ _ v => d.row (execRetirePackage v)⟩,
  ⟨Reg.GLB_QE_STORE, [], fun d _ _ v => d.row (execGlbQeStore v)⟩,
  ⟨Reg.DBP_PRODUCER_LO 0, [(4096, 4096)], fun d q _ v => d.row (execDbpProducerLo (Fin.ofNat 4096 q) v)⟩,
  ⟨Reg.DBP_PRODUCER_HI 0, [(4096, 4096)], fun d q _ v => d.writeDbpHi (Reg.DBP_PRODUCER_HI q) q v⟩,
  ⟨Reg.DBP_CQ_HEAD_LO 0, [(4096, 4096)], fun d q _ v => d.row (execDbpCqHeadLo (Fin.ofNat 4096 q) v)⟩,
  ⟨Reg.DBP_CQ_HEAD_HI 0, [(4096, 4096)], fun d q _ v => d.writeDbpHi (Reg.DBP_CQ_HEAD_HI q) q v⟩,
  ⟨Reg.QCT_SQ_LO 0, [(256, 4096), (4, 10)], fun d q k v => d.writeQctCtx (Reg.QCT_SQ_LO q + 4 * k) q v⟩,
  ⟨Reg.QCT_CTRL 0, [(256, 4096)], fun d q _ v => d.writeQctCtrl q v⟩,
  ⟨Reg.TRL_MODULE_ID, [], fun d _ _ v => d.row (execTrlModuleId v)⟩,
  ⟨Reg.TRL_PORT_CFG 0, [(64, 18)], fun d p _ v => d.writePortCfg p v⟩,
  ⟨Reg.TRL_GROUP 0, [(4, 18)], fun d g _ v => (d.writeCodes (Reg.TRL_GROUP g) v).checkRoutes⟩,
  ⟨Reg.TRL_ROUTE 0, [(4, 65536)], fun d g _ v => (d.writeCodes (Reg.TRL_ROUTE g) v).checkRoutes⟩]

/-- Specials of chapters 10 to 15. -/
def specials2 : List Special := [
  ⟨Reg.ORG_HAZ_ACK, [], fun d _ _ v => if F.ORG_HAZ_ACK_LEAK.get v = 1 then d.row execLeakAck else d⟩,
  ⟨Reg.ORG_ZONE_CFG 0, [(64, 12)], fun d z _ v => d.writeZoneCfg z v⟩,
  ⟨Reg.ORG_SENSOR 0, [(4, 408)], fun d n _ v => d.writeSensor n v⟩,
  ⟨Reg.VDR_CTRL, [], fun d _ _ v => d.row (execEdit v)⟩,
  ⟨Reg.VDR_PROG 0, [(4, 16)], fun d n _ v => d.writeEdit (Reg.VDR_PROG n) v⟩,
  ⟨Reg.VDR_PSTORE 0, [(4, 256)], fun d n _ v => d.writeEdit (Reg.VDR_PSTORE n) v⟩,
  ⟨Reg.VDR_SW_CFG 0, [(4, 8)], fun d k _ v => d.writeSwCfg k v⟩,
  ⟨Reg.VDR_CH_CFG 0, [(64, 16)], fun d c _ v => d.writeChCfg c v⟩,
  ⟨Reg.VDR_CH_CMD 0, [(64, 16)], fun d c _ v => d.writeChCmd c v⟩,
  ⟨Reg.VDR_CH_CTRL 0, [(64, 16)], fun d c _ v => if F.VDR_CH_CTRL_RESET.get v = 1 then d.row (execChannelReset (Fin.ofNat 16 c)) else d⟩,
  ⟨Reg.TBC_CTRL 0, [(32768, 2)], fun d t _ v => d.writeBusCtrl t v⟩,
  ⟨Reg.TBC_NBT 0, [(32768, 2)], fun d t _ v => d.writeTiming (Reg.TBC_NBT t) t v⟩,
  ⟨Reg.TBC_DBT 0, [(32768, 2)], fun d t _ v => d.writeTiming (Reg.TBC_DBT t) t v⟩,
  ⟨Reg.TBC_RX_POP 0, [(32768, 2)], fun d t _ v => if F.TBC_RX_POP_POP.get v = 1 then d.row (execRxPop (tbOf t)) else d⟩,
  ⟨Reg.TBC_MB_CTRL 0 0, [(32768, 2), (128, 64)], fun d t m v => d.writeMbCtrl t m v⟩,
  ⟨Reg.TBC_MB_ID 0 0, [(32768, 2), (128, 64)], fun d t m v => d.writeMb (Reg.TBC_MB_ID t m) m v⟩,
  ⟨Reg.TBC_MB_FLAGS 0 0, [(32768, 2), (128, 64)], fun d t m v => d.writeMb (Reg.TBC_MB_FLAGS t m) m v⟩,
  ⟨Reg.TBC_FILT_ID 0 0, [(32768, 2), (4, 256)], fun d t k v => d.writeFilt (Reg.TBC_FILT_ID t 0 + 4 * k) (k / 2) v⟩,
  ⟨Reg.TBC_TIME_SET_LO, [], fun d _ _ v => d.row (execTimeSetLo v)⟩,
  ⟨Reg.TBC_TIME_SET_HI, [], fun d _ _ v => d.writeTimeHi v⟩,
  ⟨Reg.GHM_MBX_CTRL, [], fun d _ _ v => d.writeMbx .ghm v⟩,
  ⟨Reg.GHM_MBX_DATA 0, [(4, 64)], fun d i _ v => d.writeMbxData Reg.GHM_MBX_CTRL (Reg.GHM_MBX_DATA i) v⟩,
  ⟨Reg.KDV_MBX_CTRL, [], fun d _ _ v => d.writeMbx .kdv v⟩,
  ⟨Reg.KDV_MBX_DATA 0, [(4, 8)], fun d i _ v => d.writeMbxData Reg.KDV_MBX_CTRL (Reg.KDV_MBX_DATA i) v⟩,
  ⟨Reg.CKP_CLK_RETURN, [], fun d _ _ v => d.clkReturn v⟩,
  ⟨Reg.CKP_RESET, [], fun d _ _ v => d.writeReset v⟩,
  ⟨Reg.SUN_CTRL, [], fun d _ _ v => d.writeSunCtrl v⟩,
  ⟨Reg.SUN_SOFT, [], fun d _ _ v => d.sunSoft v⟩,
  ⟨Reg.SUN_PAIR_CTRL, [], fun d _ _ v => d.writePairCtrl v⟩,
  ⟨Reg.SUN_LIST 0 0, [(192, 4), (4, 48)], fun d l i v => d.writeSunList l i v⟩,
  ⟨Reg.SUN_RD_SEQ, [], fun d _ _ v => d.sunLookup v⟩]

/-- The place of a mailbox data register within its controller's window, whose three indices need a rule of their own. -/
def mbDataAt (off : Nat) : Option Nat :=
  let r := off - Reg.TBC_MB_DATA 0 0 0
  if Reg.TBC_MB_DATA 0 0 0 ≤ off ∧ r / 32768 < 2 ∧ r % 32768 < 64 * 128 ∧ r % 128 < 64 then some (r % 32768 / 128) else none

/-- A write of one register at an aligned offset (R9, R14, R16, R623, R679, R680). -/
def Dev.writeReg (d : Dev) (off : Nat) (v : Word32) : Dev :=
  if d.hidden off then d
  else match (specials1 ++ specials2).find? (fun (m : Special) => decide (m.base ≤ off) && dimsMatch m.dims (off - m.base)) with
    | some m =>
      let (i, j) := dimsIx m.dims (off - m.base)
      m.act d i j v
    | none => match mbDataAt off with
      | some m => d.writeMb off m v
      | none => d.writeCodes off v

/-- A read of one register: what it returns, its RC fields cleared (R9, R13), and the halves that the read of a low half latches
(R678, Tables 12-8, 15-10). CKP_VIN.HOLDUP is readable by the Gatehouse alone (Table 14-12). -/
def Dev.takeReg (d : Dev) (off : Nat) : Dev × Word32 :=
  if d.hidden off then (d, 0)
  else
    let v := if off = Reg.CKP_VIN then F.CKP_VIN_HOLDUP.put (d.readReg off) 0 else d.readReg off
    let d := match regRowAt off with
      | some r => if r.rc = 0 then d else d.setReg off (d.reg off &&& ~~~ (BitVec.ofNat 32 r.rc))
      | none => d
    let nt := d.nt
    let ops := d.opsec
    let d := if off = Reg.TBC_NT_LO then { d with time := { d.time with ntHi := nt / 2 ^ 32 } } else d
    (if off = Reg.SUN_OPSEC_LO then { d with sun := { d.sun with opsecHi := ops / 2 ^ 32 } } else d, v)

/-! ### The other BARs (R284 to R286, R293 to R297): offsets beyond BAR0 name them (log 13) -/

/-- Where PF BAR2, BAR2 of VF n and BAR0 of VF n stand beside BAR0. -/
def pfBar2 : Nat := 0x5000000
def vfBar2 (n : Nat) : Nat := 0x6000000 + 0x20000 * n
def vfBar0 (n : Nat) : Nat := 0x10000000 + 0x1000000 * n

/-- A place in a BAR. -/
inductive Place where
  | reg (off : Nat)
  | msix (fn entry word : Nat)
  | pba (fn word : Nat)
  | status (fn : Nat)
  | comp (off : Nat)
  | dev (off : Nat)
  | none
  deriving DecidableEq, Repr

/-- Do the BARs of a VF show what they hold: its allotment is bound and not clearing (R285, R415)? -/
def Dev.vfLive (d : Dev) (n : Nat) : Bool := d.hp.vfEnable && (d.allot n).st == .bound

/-- What an offset names. In Lodge nothing of the BARs but the device registers responds (R286). A VF whose allotment is not bound shows
nothing but its status page (R295, R415); an unbound allotment's state is 0 there. -/
def Dev.place (d : Dev) (off : Nat) : Place :=
  if d.inLodge then (if pfBar2 + 0x10000 ≤ off ∧ off < pfBar2 + 0x20000 then .dev (off - (pfBar2 + 0x10000)) else .none)
  else if off < 0x4000000 then .reg off
  else if pfBar2 ≤ off ∧ off < pfBar2 + 0x100000 then
    let r := off - pfBar2
    if r < 0x10000 then .comp r
    else if r < 0x20000 then .dev (r - 0x10000)
    else if r < 0x20400 then .msix 0 ((r - 0x20000) / 16) (r % 16 / 4)
    else if 0x30000 ≤ r ∧ r < 0x30008 then .pba 0 (r % 8 / 4)
    else .none
  else if vfBar2 1 ≤ off ∧ off < vfBar2 256 then
    let n := (off - vfBar2 0) / 0x20000
    let r := (off - vfBar2 0) % 0x20000
    if r = 0x18000 ∧ d.hp.vfEnable then .status n
    else if !d.vfLive n then .none
    else if r < 0x8000 then .msix n (r / 16) (r % 16 / 4)
    else if 0x10000 ≤ r ∧ r < 0x10100 then .pba n ((r - 0x10000) / 4)
    else .none
  else if vfBar0 1 ≤ off ∧ off < vfBar0 256 then
    let n := (off - vfBar0 0) / 0x1000000
    let r := (off - vfBar0 0) % 0x1000000
    match (if d.vfLive n then d.queueOf n (r / 4096) else none) with
    | some q => .reg (0x3000000 + 4096 * q + r % 4096)
    | none => .none
  else .none

/-- A word of an MSI-X table entry; an entry that is not backed reads 0 (R297). -/
def Dev.msixWord (d : Dev) (fn k w : Nat) : Word32 :=
  match d.vectorOf fn k with
  | none => 0
  | some v =>
    let m := d.msix v
    match w with
    | 0 => half m.addr.toNat 0
    | 1 => half m.addr.toNat 1
    | 2 => m.data
    | _ => pack [(0, bit m.masked)]

/-- A write of a word of an MSI-X table entry; clearing the mask sends a pending message (R298). -/
def Dev.writeMsix (d : Dev) (fn k w : Nat) (v : Word32) : Dev :=
  match d.vectorOf fn k with
  | none => d
  | some i =>
    let m : Msix := d.msix i
    match w with
    | 0 => d.setMsix i { m with addr := BitVec.ofNat 64 (m.addr.toNat / 2 ^ 32 * 2 ^ 32 + v.toNat / 4 * 4) }
    | 1 => d.setMsix i { m with addr := BitVec.ofNat 64 (v.toNat * 2 ^ 32 + m.addr.toNat % 2 ^ 32) }
    | 2 => d.setMsix i { m with data := v }
    | _ => if v.toNat.testBit 0 then d.setMsix i { m with masked := true } else d.row (execMsixUnmask (Fin.ofNat 256 fn) k)

/-- A word of pending bits. -/
def Dev.pbaWord (d : Dev) (fn w : Nat) : Word32 :=
  pack ((List.range 32).map (fun k => (k, match d.vectorOf fn (32 * w + k) with | some v => bit (d.msix v).pending | none => 0)))

/-- A 32-bit read at a place. -/
def Dev.take (d : Dev) (off : Nat) : Dev × Word32 :=
  match d.place off with
  | .reg r => d.takeReg r
  | .msix fn k w => (d, d.msixWord fn k w)
  | .pba fn w => (d, d.pbaWord fn w)
  | .status fn => (d, pack [(0, altCode (d.allot fn).st)])
  | .comp o => (d, d.compRead o)
  | .dev o => (d, d.devRead o)
  | .none => (d, 0)

/-- A 32-bit write at a place. -/
def Dev.put (d : Dev) (off : Nat) (v : Word32) : Dev :=
  match d.place off with
  | .reg r => d.writeReg r v
  | .msix fn k w => d.writeMsix fn k w v
  | .comp o => d.compWrite o v
  | .dev o => d.devWrite o v
  | .pba _ _ | .status _ | .none => d

/-! ### The rows -/

/-- May an access be performed: aligned and of 32 or 64 bits (R677)? -/
def accessOk (off size : Nat) : Bool := (size == 4 && off % 4 == 0) || (size == 8 && off % 8 == 0)

/-- An access refused (R677): it reads as zeros, a write is dropped, and GLB_ACC_EVT is set for BAR0. -/
def Dev.refuseAccess (d : Dev) (off size : Nat) (wr : Bool) : Dev :=
  let d := if off < 0x4000000 then d.raise Reg.GLB_ACC_EVT else d
  if wr then d else d.emit (.regData off size 0)

/-- Does no function accept an access? None is accepted before the function is ready (R280); in Lodge the PF has no BAR0 and no VF
exists (R286). -/
def Dev.noBar (d : Dev) (off : Nat) : Bool :=
  !d.hp.ready || (d.inLodge && !(decide (pfBar2 ≤ off) && decide (off < pfBar2 + 0x100000)))

/-- REGISTER_WRITE (R9, R678 to R680, R683): a 64-bit write takes the upper dword first; one that resets the host port leaves no function
for the lower. -/
def execRegisterWrite (off : Nat) (v : Word64) (size : Nat) (s : State) : Host.Outcome State Fault Refusal := onDev s fun d =>
  if d.noBar off then d
  else if !accessOk off size then d.refuseAccess off size true
  else if size = 4 then d.put off (half v.toNat 0)
  else
    let d := d.put (off + 4) (half v.toNat 1)
    if d.noBar off then d else d.put off (half v.toNat 0)

/-- RC_FIELD_READ (R9, R13, R678): a register read, with what the read clears or latches; a 64-bit read takes the lower dword
first, both sampled together. -/
def execRcFieldRead (off size : Nat) (s : State) : Host.Outcome State Fault Refusal := onDev s fun d =>
  if d.noBar off then d
  else if !accessOk off size then d.refuseAccess off size false
  else if size = 4 then
    let (d, v) := d.take off
    d.emit (.regData off 4 (BitVec.ofNat 64 v.toNat))
  else
    let (d, lo) := d.take off
    let (d, hi) := d.take (off + 4)
    d.emit (.regData off 8 (BitVec.ofNat 64 (hi.toNat * 2 ^ 32 + lo.toNat)))

/-- BAR0_REFUSED_ACCESS (R677). -/
def execBar0RefusedAccess (off size : Nat) (wr : Bool) (s : State) : Host.Outcome State Fault Refusal := onDev s fun d =>
  if d.noBar off then d else d.refuseAccess off size wr

end Sys2Proof.Machine
end

