-- ==== Sys2Proof/Machine/ConfigSpace.lean ====
section
/-! DEFINITION. Configuration space (R280 to R292, R310, R311): the capabilities of Table 6-5, the fields the manual states, and the
writes that act on the block. Words and bits that only the PCIe and CXL standards define are free (log 14). -/

namespace Sys2Proof.Machine

/-- A capability of Table 6-5: offset, ID, the bytes it takes as its standard lays it out (PRESUMED, log 14), whether each VF has it,
whether the PF keeps it in Lodge (R286). -/
structure Cap where
  off : Nat
  id : Nat
  len : Nat
  vf : Bool
  lodge : Bool
  deriving DecidableEq, Repr

/-- The capabilities of Table 6-5. -/
def capTable : List Cap := [
  ⟨0x040, 0x01, 8, true, true⟩, ⟨0x050, 0x10, 0x3C, true, true⟩, ⟨0x0A0, 0x11, 12, true, false⟩, ⟨0x100, 0x0001, 0x48, true, true⟩,
  ⟨0x148, 0x0003, 12, false, true⟩, ⟨0x158, 0x000E, 8, true, true⟩, ⟨0x160, 0x0019, 0x2C, false, true⟩, ⟨0x1A0, 0x0025, 12, false, true⟩,
  ⟨0x1B0, 0x0026, 0x30, false, true⟩, ⟨0x1E0, 0x0027, 0x48, false, true⟩, ⟨0x230, 0x002A, 0x30, false, true⟩,
  ⟨0x260, 0x0031, 0x20, false, true⟩, ⟨0x280, 0x0010, 0x40, false, false⟩, ⟨0x2C0, 0x000F, 8, true, true⟩, ⟨0x2C8, 0x001B, 8, false, true⟩,
  ⟨0x2D0, 0x002E, 0x18, false, true⟩, ⟨0x300, 0x0030, 0x14, false, true⟩, ⟨0x340, 0x0023, 0x3C, false, false⟩,
  ⟨0x3A0, 0x0023, 0x20, false, false⟩, ⟨0x3C0, 0x0023, 0x1C, false, true⟩, ⟨0x400, 0x0023, 0x34, false, true⟩]

/-- The capabilities that a function shows. -/
def Dev.caps (d : Dev) (fn : Nat) : List Cap := capTable.filter (fun c => if fn = 0 then !d.inLodge || c.lodge else c.vf)

/-- The offset of the next capability of the same list after one; 0 at the end. -/
def Dev.capNext (d : Dev) (fn c : Nat) : Nat :=
  match (d.caps fn).find? (fun e => decide (c < e.off) && (decide (c < 0x100) == decide (e.off < 0x100))) with
  | some e => e.off
  | none => 0

/-- A word with some bits set from a value and the others from the standards. -/
def fixBits (std : Word32) (mask val : Nat) : Word32 := (std &&& ~~~ (BitVec.ofNat 32 mask)) ||| BitVec.ofNat 32 val

/-- Was CXL negotiated on the link? -/
def HpMode.isCxl (m : HpMode) : Bool := m == .flit68 || m == .flit256

/-- What the manual states of the header words of a function: its mask and its value (Tables 6-4, 6-8). A VF's BARs are those of the
SR-IOV capability; in Lodge there is no BAR0 (R286); every BAR is a 64-bit memory BAR. -/
def Dev.cfgHeader (d : Dev) (fn off : Nat) : Nat × Nat :=
  let all := 2 ^ 32 - 1
  if off = 0x00 then (all, (Config.stdConfig 0 0).toNat % 2 ^ 16 + (if fn ≠ 0 then 0x0A91 else if d.inLodge then 0x0A9F else 0x0A90) * 2 ^ 16)
  else if off = 0x08 then (all, 0x12000000 + (d.reg Reg.GLB_IDENT).toNat % 256)
  else if off = 0x34 then (0xFF, 0x40)
  else if fn ≠ 0 ∧ 0x10 ≤ off ∧ off < 0x28 then (all, 0)
  else if off = 0x10 then (if d.inLodge then (all, 0) else (0x3FFFFFF, 4))
  else if off = 0x14 ∧ d.inLodge then (all, 0)
  else if off = 0x18 then (0xFFFFF, 4)
  else if off = 0x20 ∨ off = 0x24 ∨ off = 0x30 then (all, 0)
  else (0, 0)

/-- What the manual states of the first word of a capability: the ID and the next capability, and of it the bits that it fixes: of Power
Management no PME from D1 or D2 or those states, of PCI Express flit mode, of MSI-X the table size (R288, R297, Table 6-1). Flit mode stands
for the 256-byte flits of R290 too, to which CXL gives no capability bit of their own (PRESUMED, log 14). -/
def Dev.cfgCapHead (d : Dev) (fn : Nat) (c : Cap) : Nat × Nat :=
  if 0x100 ≤ c.off then (0xFFF0FFFF, c.id + d.capNext fn c.off * 2 ^ 20)
  else
    let v := c.id + 256 * d.capNext fn c.off
    if c.off = 0x40 then (0x0600FFFF, v)
    else if c.off = 0x50 then (0x8000FFFF, 2 ^ 31 + v)
    else (0x07FFFFFF, v + (if fn = 0 then 63 else 2047) * 2 ^ 16)

/-- The capabilities before the CXL DVSECs (R278, R283, R288, R297, R310, R311, R315, R317, R324). -/
def Dev.cfgPcie (d : Dev) (fn off : Nat) : Nat × Nat :=
  let all := 2 ^ 32 - 1
  if off = 0x44 then (0x8, 0x8)
  else if off = 0x54 then (0x10000007, 0x10000002)
  else if off = 0x5C then (0xFFF, 0x906)
  else if off = 0x74 then (0x33000, 0x30000)
  else if off = 0xA4 then (all, if fn = 0 then 0x20002 else 2)
  else if off = 0xA8 then (all, if fn = 0 then 0x30002 else 0x10002)
  else if off = 0x104 then (0x400000, bit d.hp.aerUe * 2 ^ 22)
  else if off = 0x110 then (0x4000, bit d.hp.aerCe * 2 ^ 14)
  else if off = 0x118 then (0x1E0, 0)
  else if off = 0x284 then (0x3, 2)
  else if off = 0x28C then (all, 0x00FF00FF)
  else if off = 0x294 then (all, 0x00010001)
  else if off = 0x298 then (0xFFFF0000, 0x0A910000)
  else if off = 0x29C then (all, 0x11)
  else if off = 0x2A4 then (0xFFFFFF, 0xC)
  else if off = 0x2AC then (0x1FFFF, 4)
  else if off = 0x2B4 ∨ off = 0x2B8 then (all, 0)
  else if off = 0x2C4 then (0x1F, 0)
  else if off = 0x2CC then (0x1F06, 0x1400)
  else if off = 0x304 then (0xFF00C3, 0x41)
  else if off = 0x310 then (0xF, if d.hp.io.on then 2 else 0)
  else (0, 0)

/-- The DVSECs (R286, R287, R289 to R292, Table 6-6). -/
def Dev.cfgDvsec (d : Dev) (off : Nat) : Nat × Nat :=
  let all := 2 ^ 32 - 1
  let lodge := d.inLodge
  let size := d.nplots
  if off = 0x344 ∨ off = 0x3A4 ∨ off = 0x3C4 then (0xFFFF, 0x1E98)
  else if off = 0x348 then (all, 0x57 * 2 ^ 16)
  else if off = 0x354 then (0xFF0F0000, 0x10010000)
  else if off = 0x358 then (all, size / 4)
  else if off = 0x35C then (0xF000E0FF, size % 4 * 2 ^ 30 + 0x2048 + 2 * bit d.hp.memActive + bit d.hp.ready)
  else if off = 0x368 ∨ off = 0x36C then (all, 0)
  else if off = 0x3A8 then (0x6067FFFF, 0x00270007)
  else if off = 0x3AC then
    let up := d.linkUp && d.hp.mode.isCxl
    (0x60670000, bit (up && d.cacheOn) * 2 ^ 16 + bit up * 2 ^ 17 + bit (up && d.fld Reg.GLB_HP_LINK F.GLB_HP_LINK_MEM == 1) * 2 ^ 18 +
      bit (up && d.hp.mode == .flit68) * 2 ^ 21)
  else if off = 0x3C8 then (0xFFFF, 8)
  else if off = 0x3CC then (all, if lodge then 0x00010302 else 0x00000102)
  else if off = 0x3D0 ∨ off = 0x3D8 then (all, 0)
  else if off = 0x3D4 then (all, if lodge then 0 else 0x00010302)
  else if off = 0x404 then (0xFFFF, (Config.stdConfig 0 0).toNat % 2 ^ 16)
  else if off = 0x408 then (0xFFFF, 1)
  else (0, 0)

/-- What the manual states of a configuration word: the bits it fixes and their value. -/
def Dev.cfgFixed (d : Dev) (fn off : Nat) : Nat × Nat :=
  if off < 0x40 then d.cfgHeader fn off
  else match (d.caps fn).find? (fun c => c.off == off) with
  | some c => d.cfgCapHead fn c
  | none => if off < 0x340 then d.cfgPcie fn off else d.cfgDvsec off

/-- The bits of a configuration word that software writes: those on which the block acts, else those of the standards. -/
def cfgMask (fn off : Nat) : Word32 :=
  if off = 0x04 then 0x0547 else if off = 0x44 then 0x3 else if off = 0x58 then 0x7FFF else if off = 0xA0 then 0xC0000000 else if off = 0x60 then Config.stdMask fn off ||| 0x2
  else if off = 0x108 ∨ off = 0x10C then Config.stdMask fn off ||| 0x400000 else if off = 0x114 then Config.stdMask fn off ||| 0x4000
  else if off = 0x288 then 0x1F else if off = 0x2A0 then 0xFFFFFFFF else if off = 0x2C4 then 0x801F0000 else if off = 0x2CC then 0x10000
  else if (0x10 ≤ off ∧ off < 0x28) ∨ (0x2A4 ≤ off ∧ off < 0x2BC) then 0xFFFFFFFF
  else Config.stdMask fn off

/-- Does an offset name a word at all: the header, or a word within a capability that the function shows (R287)? -/
def Dev.cfgExists (d : Dev) (fn off : Nat) : Bool :=
  decide (off % 4 = 0) && (decide (off < 0x40) || (d.caps fn).any (fun c => decide (c.off ≤ off) && decide (off < c.off + c.len)))

/-- The words of the Kembemel DVSEC that are registers (Table 6-7): their place beside BAR0 (log 8). -/
def kdvReg (fn off : Nat) : Option Nat := if fn = 0 ∧ 0x40C ≤ off ∧ off < 0x434 then some (0x4000000 + (off - 0x400)) else none

/-- The bits of a configuration word that software writes and the manual does not fix. -/
def Dev.cfgSoft (d : Dev) (fn off : Nat) : Word32 := cfgMask fn off &&& ~~~ (BitVec.ofNat 32 (d.cfgFixed fn off).1)

/-- What a configuration read returns. -/
def Dev.cfgRead (d : Dev) (fn off : Nat) : Word32 :=
  if !d.cfgExists fn off then 0
  else match kdvReg fn off with
    | some r => d.readReg r
    | none =>
      let w := d.cfgSoft fn off
      fixBits ((Config.stdConfig fn off &&& ~~~ w) ||| (BitVec.ofNat 32 (d.cfgWord fn off) &&& w)) (d.cfgFixed fn off).1 (d.cfgFixed fn off).2

/-- VF Enable (R283): VFs that it takes away lose their configuration, and their queues are paused. -/
def Dev.setVfEnable (d : Dev) (on : Bool) : Dev :=
  let was := d.hp.vfEnable
  let d : Dev := { d with hp := { d.hp with vfEnable := on } }
  if was && !on then
    ({ d with hp := { d.hp with
      cfg := d.hp.cfg.clearRange 4096 (4096 * 256), msix := d.hp.msix.clearRange 64 4096, atc := d.hp.atc.filter (fun e => e.fn == 0) } }).pauseQueues (fun _ (x : Queue) => x.allot != 0)
  else d

/-- A configuration write: the writable bits are stored, and the controls act (R283, R288, R309, R318). A power state that is not
advertised is not taken. -/
def Dev.cfgWrite (d : Dev) (fn off : Nat) (v : Word32) : Dev :=
  if !d.cfgExists fn off then d
  else match kdvReg fn off with
    | some r => d.writeReg r v
    | none =>
      let w := d.cfgSoft fn off
      if off = 0x44 ∧ (v.toNat % 4 = 1 ∨ v.toNat % 4 = 2) then d
      else
      let d := d.setCfg fn off ((BitVec.ofNat 32 (d.cfgWord fn off) &&& ~~~ w) ||| (v &&& w))
      if off = 0x44 ∧ fn = 0 then
        (if v.toNat % 4 = 3 then (if d.hp.d3hot then d else d.enterD3) else { d with hp := { d.hp with d3hot := false } })
      else if off = 0x58 ∧ v.toNat.testBit 15 then (if fn = 0 then d.row execFlrPf else d.row (execFlrVf (Fin.ofNat 256 fn)))
      else if off = 0x104 ∧ fn = 0 then { d with hp := { d.hp with aerUe := d.hp.aerUe && !v.toNat.testBit 22 } }
      else if off = 0x110 ∧ fn = 0 then { d with hp := { d.hp with aerCe := d.hp.aerCe && !v.toNat.testBit 14 } }
      else if off = 0xA0 then d.flushMsix fn
      else if off = 0x288 ∧ fn = 0 then d.setVfEnable (v.toNat.testBit 0)
      else if off = 0x350 ∧ fn = 0 ∧ v.toNat.testBit 1 then d.row execCacheWritebackInvalidate
      else d

/-- CONFIG_REQUEST (R280, R282, R285, R287): Request Retry Status until the function is ready; a VF that is not enabled answers with
all ones and drops writes, as PCIe has it for an unsupported request. -/
def execConfigRequest (fn : Fin 256) (off : Nat) (wr : Option Word32) (s : State) : Host.Outcome State Fault Refusal := onDev s fun d =>
  if !d.hp.ready then d.emit (.cfgReply fn.val off none)
  else if fn.val ≠ 0 ∧ (d.inLodge ∨ !d.hp.vfEnable) then d.emit (.cfgReply fn.val off (some 0xFFFFFFFF))
  else match wr with
    | none => d.emit (.cfgReply fn.val off (some (d.cfgRead fn.val off)))
    | some v => (d.cfgWrite fn.val off v).emit (.cfgReply fn.val off (some 0))

end Sys2Proof.Machine
end

