-- ==== Sys2Proof/Machine/StartRows.lean ====
section
/-! DEFINITION. The rows of a start that need the mailboxes and the setup registers: Input qualify, Configuration and Release
(R580, R581, R636, R637, R642, R684). -/

namespace Sys2Proof.Machine

/-- The mailboxes that Lodge serves give answers to the requests that waited; the GHM mailbox has no BAR0 there (R286). -/
def Dev.serveLodge (d : Dev) : Dev :=
  (d.updGate (fun (g : Gate) => { g with wait := g.wait.filter (fun m => m != .ghm) })).serveWaits

/-- INPUT_QUALIFY (R637, R639, R640): a POWER or FULL start begins. -/
def execInputQualify (s : State) : Host.Outcome State Fault Refusal := onDev s fun d =>
  if d.boot.qualified ∨ d.sup.holdup.isSome ∨ !d.vinGood then d
  else
    let d := if d.boot.recorded then d else d.setReason 7
    let d := d.updBoot (fun b => { b with qualified := true })
    if d.attempts = 3 then d.enterLodge.serveLodge
    else (d.setAttempts (d.attempts + 1)).updBoot (fun b => { b with running := true, recorded := false })

/-- The blocks that a reset kind returns to their reset values (Table 16-1), as ranges of offsets. -/
def resetBlocks (kind : Nat) : List (Nat × Nat) :=
  if kind = 3 then [(0x20000, 0x40000)]
  else if kind = 1 then [(0x20000, 0x40000), (0x200000, 0x400000), (0x1000000, 0x3000000)]
  else [(0, 0x4000000)]

/-- Write the signed configuration's values of the blocks that this start's reset returned to their reset values, lock bits among
them (R684). -/
def Dev.applyConfig (d : Dev) (b : Bytes) : Dev :=
  let rs := resetBlocks d.boot.kind
  (Config.configValues b).foldl (fun (d : Dev) e =>
    if rs.any (fun r => decide (r.1 ≤ e.1) && decide (e.1 < r.2)) && e.1 % 4 == 0 then d.writeReg e.1 e.2 else d) d

/-- CONFIGURATION (R580, R581, R684): the signed configuration in flash is verified and applied. -/
def execConfiguration (s : State) : Host.Outcome State Fault Refusal := onDev s fun d =>
  if d.gateAt 4 then
    match d.gate.config with
    | some b =>
      if d.gate.configOk b then (d.applyConfig b).updGate (fun (g : Gate) => { g with phase := 5, conf := some b }) else d.failStart 8
    | none => d.failStart 8
  else d

/-- The branches that Release turns on (R636, R637, Table 14-6): link and memory at a POWER or FULL start; link and compute again,
every Pavilion at the floor, at a WARM start. -/
def Dev.releaseBranches (d : Dev) : Dev :=
  let fl := d.floorCap
  if d.boot.kind = 3 then d
  else if d.boot.kind = 1 then
    let sup : Supply := { d.sup with link := true, compute := true }
    (List.range 160).foldl (fun (d : Dev) p => d.updPav p (fun (x : Pav) => { x with freq := 400, rail := 400, lease := fl })) { d with sup := sup }
  else
    let sup : Supply := { d.sup with link := true, memory := true }
    { d with sup := sup }

/-- START_RELEASE (R580, R603, R636, R637). -/
def execStartRelease (s : State) : Host.Outcome State Fault Refusal := onDev s fun d =>
  if d.gateAt 5 ∧ d.boot.selfTest then
    let d := (d.releaseBranches).updBoot (fun (b : Start) => { b with released := true })
    (d.updGate (fun (g : Gate) => { g with phase := 6, up := true })).serveWaits
  else d

end Sys2Proof.Machine
end

