-- ==== Sys2Proof/Machine/Debug.lean ====
section
/-! DEFINITION. Operator debug (R606 to R608): halts, Kembemel's private JTAG instructions and the debug state word. -/

namespace Sys2Proof.Machine

/-- Halt or release a unit (R607): a steward at its instruction boundary, a core at its next sample. -/
def Dev.debugHalt (d : Dev) (u : DebugUnit) (on : Bool) : Dev :=
  match u with
  | .steward p => d.updPav p.val (fun (x : Pav) => { x with halted := on })
  | .core c => d.updCore (coreIx c) (fun (x : CoreRec) => { x with halt := on })

/-- What inspecting a unit shows: a steward's pc and scalar registers, a core's state (log 15). -/
def Dev.inspect (d : Dev) (u : DebugUnit) : Bytes :=
  match u with
  | .steward p =>
    let x : Pav := d.pav p.val
    leBytes 8 x.pc.toNat ++ (List.range 32).flatMap (fun k => leBytes 8 (Tab.get 0 x.s k).toNat)
  | .core c => leBytes 4 (d.coreSt (coreIx c))

/-- What a debug access to a bed, plot or register does and shows. How many bed errors a read corrects is free (R112, log 12). -/
def Dev.debugAccess (d : Dev) (op : JtagOp) : Dev :=
  match op with
  | .readBed p a n =>
    if a + n ≤ 2621440 then
      let (d, k) := d.takeFree
      (d.bedCorrected p.val (Config.bedErrors k)).emit (.jtag ((d.pav p.val).bedRead a n))
    else d.emit (.jtag [])
  | .writeBed p a bs => if a + bs.length ≤ 2621440 then d.updPav p.val (fun (x : Pav) => x.bedWrite a bs) else d
  | .readPlot ma n =>
    if d.maExists ma n && d.mem.trained then d.readArrives [] ma n .jtag
    else d.emit (.jtag [])
  | .writePlot ma bs => if d.maExists ma bs.length && d.mem.trained then d.writeArrives [] ma bs false .jtag else d
  | .readReg off =>
    if off % 4 = 0 ∧ off < 0x4000000 then
      let (d, v) := d.takeReg off
      d.emit (.jtag (leBytes 4 v.toNat))
    else d.emit (.jtag [])
  | .writeReg off v => if off % 4 = 0 ∧ off < 0x4000000 then d.writeReg off v else d
  | .halt _ | .resume _ | .inspect _ => d

/-- DEBUG_HALT (R35, R607, R608). -/
def execDebugHalt (u : DebugUnit) (s : State) : Host.Outcome State Fault Refusal := onDev s fun d => (d.debugHalt u true).debugBits 0 0x6

/-- PRIVATE_JTAG_INSTRUCTION (R606 to R608, R680): SESSION is set, MEM_ACCESS with an access, HALTED with a halt. -/
def execPrivateJtagInstruction (op : JtagOp) (s : State) : Host.Outcome State Fault Refusal := onDev s fun d =>
  match op with
  | .halt u => (d.debugHalt u true).debugBits 0 0x6
  | .resume u => (d.debugHalt u false).debugBits 0 0x2
  | .inspect u => (d.emit (.jtag (d.inspect u))).debugBits 0 0x2
  | .readBed _ _ _ | .writeBed _ _ _ | .readPlot _ _ | .writePlot _ _ | .readReg _ | .writeReg _ _ => (d.debugAccess op).debugBits 0 0x22

/-- ATTACHED_CHANGE (R608). -/
def execAttachedChange (attached : Bool) (s : State) : Host.Outcome State Fault Refusal := onDev s fun d => d.debugBits 1 (bit attached)

end Sys2Proof.Machine
end

