-- ==== Sys2Proof/Machine/Dispatch.lean ====
section
/-! DEFINITION. One arm per command: each a call of its meaning. -/

namespace Sys2Proof.Machine

/-- The effect of a command on everything but the queue. -/
def exec (i : Instr) (s : State) : Host.Outcome State Fault Refusal :=
  match i with
  | .add p f => Sys2Proof.Machine.execAdd p f s
  | .sub p f => Sys2Proof.Machine.execSub p f s
  | .mul p f => Sys2Proof.Machine.execMul p f s
  | .and p f => Sys2Proof.Machine.execAnd p f s
  | .or p f => Sys2Proof.Machine.execOr p f s
  | .xor p f => Sys2Proof.Machine.execXor p f s
  | .shl p f => Sys2Proof.Machine.execShl p f s
  | .shr p f => Sys2Proof.Machine.execShr p f s
  | .sar p f => Sys2Proof.Machine.execSar p f s
  | .slt p f => Sys2Proof.Machine.execSlt p f s
  | .sltu p f => Sys2Proof.Machine.execSltu p f s
  | .addi p f => Sys2Proof.Machine.execAddi p f s
  | .andi p f => Sys2Proof.Machine.execAndi p f s
  | .ori p f => Sys2Proof.Machine.execOri p f s
  | .xori p f => Sys2Proof.Machine.execXori p f s
  | .shli p f => Sys2Proof.Machine.execShli p f s
  | .shri p f => Sys2Proof.Machine.execShri p f s
  | .lui p f => Sys2Proof.Machine.execLui p f s
  | .lds p f ce => Sys2Proof.Machine.execLds p f ce s
  | .sts p f => Sys2Proof.Machine.execSts p f s
  | .beq p f => Sys2Proof.Machine.execBeq p f s
  | .bne p f => Sys2Proof.Machine.execBne p f s
  | .blt p f => Sys2Proof.Machine.execBlt p f s
  | .bge p f => Sys2Proof.Machine.execBge p f s
  | .jmp p f => Sys2Proof.Machine.execJmp p f s
  | .setib p f => Sys2Proof.Machine.execSetib p f s
  | .rdsr p f => Sys2Proof.Machine.execRdsr p f s
  | .endShare p f => Sys2Proof.Machine.execEndShare p f s
  | .shareEnd p energy => Sys2Proof.Machine.execShareEnd p energy s
  | .illegalInstruction p w => Sys2Proof.Machine.execIllegalInstruction p w s
  | .dld p f ce => Sys2Proof.Machine.execDld p f ce s
  | .dst p f => Sys2Proof.Machine.execDst p f s
  | .dadd p f => Sys2Proof.Machine.execDadd p f s
  | .dsetf p f => Sys2Proof.Machine.execDsetf p f s
  | .dmov p f => Sys2Proof.Machine.execDmov p f s
  | .tmul p f ce => Sys2Proof.Machine.execTmul p f ce s
  | .tread p f => Sys2Proof.Machine.execTread p f s
  | .tclr p f => Sys2Proof.Machine.execTclr p f s
  | .tsave p f => Sys2Proof.Machine.execTsave p f s
  | .tload p f => Sys2Proof.Machine.execTload p f s
  | .vld p f ce => Sys2Proof.Machine.execVld p f ce s
  | .vst p f => Sys2Proof.Machine.execVst p f s
  | .vsplat p f => Sys2Proof.Machine.execVsplat p f s
  | .vmovs p f => Sys2Proof.Machine.execVmovs p f s
  | .vadd p f => Sys2Proof.Machine.execVadd p f s
  | .vsub p f => Sys2Proof.Machine.execVsub p f s
  | .vmul p f => Sys2Proof.Machine.execVmul p f s
  | .vfma p f => Sys2Proof.Machine.execVfma p f s
  | .vmax p f => Sys2Proof.Machine.execVmax p f s
  | .vmin p f => Sys2Proof.Machine.execVmin p f s
  | .vabs p f => Sys2Proof.Machine.execVabs p f s
  | .vneg p f => Sys2Proof.Machine.execVneg p f s
  | .vrsum p f => Sys2Proof.Machine.execVrsum p f s
  | .vrmax p f => Sys2Proof.Machine.execVrmax p f s
  | .vcvt p f => Sys2Proof.Machine.execVcvt p f s
  | .volog2 p f => Sys2Proof.Machine.execVolog2 p f s
  | .voexp2 p f => Sys2Proof.Machine.execVoexp2 p f s
  | .vtab p f => Sys2Proof.Machine.execVtab p f s
  | .mld p f => Sys2Proof.Machine.execMld p f s
  | .mldComplete p id => Sys2Proof.Machine.execMldComplete p id s
  | .mst p f ce => Sys2Proof.Machine.execMst p f ce s
  | .mstComplete p id => Sys2Proof.Machine.execMstComplete p id s
  | .csend p f ce => Sys2Proof.Machine.execCsend p f ce s
  | .csendComplete p id => Sys2Proof.Machine.execCsendComplete p id s
  | .rsend p f ce => Sys2Proof.Machine.execRsend p f ce s
  | .rsendLanding p id => Sys2Proof.Machine.execRsendLanding p id s
  | .deferredFaultReport p id code => Sys2Proof.Machine.execDeferredFaultReport p id code s
  | .esig p f => Sys2Proof.Machine.execEsig p f s
  | .eventMessage p id => Sys2Proof.Machine.execEventMessage p id s
  | .eventMessageAck p id => Sys2Proof.Machine.execEventMessageAck p id s
  | .ewait p f => Sys2Proof.Machine.execEwait p f s
  | .ewaitRelease p => Sys2Proof.Machine.execEwaitRelease p s
  | .mfence p f => Sys2Proof.Machine.execMfence p f s
  | .mfenceRelease p => Sys2Proof.Machine.execMfenceRelease p s
  | .hint p f => Sys2Proof.Machine.execHint p f s
  | .shareStart p q seq => Sys2Proof.Machine.execShareStart p q seq s
  | .shareLimit p => Sys2Proof.Machine.execShareLimit p s
  | .pavilionHardwareFault p code => Sys2Proof.Machine.execPavilionHardwareFault p code s
  | .idleHardwareCheck p code => Sys2Proof.Machine.execIdleHardwareCheck p code s
  | .programFaultStop q seq => Sys2Proof.Machine.execProgramFaultStop q seq s
  | .leaseGrant p grant => Sys2Proof.Machine.execLeaseGrant p grant s
  | .leaseExpiry p => Sys2Proof.Machine.execLeaseExpiry p s
  | .railSettled p => Sys2Proof.Machine.execRailSettled p s
  | .reduce q seq => Sys2Proof.Machine.execReduce q seq s
  | .armingEnd b => Sys2Proof.Machine.execArmingEnd b s
  | .contributionPacket p id k => Sys2Proof.Machine.execContributionPacket p id k s
  | .contributionRetry p id k => Sys2Proof.Machine.execContributionRetry p id k s
  | .blockReadout b corrected => Sys2Proof.Machine.execBlockReadout b corrected s
  | .postLanded b tgt outcome => Sys2Proof.Machine.execPostLanded b tgt outcome s
  | .ledgerEccError b => Sys2Proof.Machine.execLedgerEccError b s
  | .commitProbeTimer q seq => Sys2Proof.Machine.execCommitProbeTimer q seq s
  | .memoryRead ma len errs => Sys2Proof.Machine.execMemoryRead ma len errs s
  | .memoryWrite ma data errs => Sys2Proof.Machine.execMemoryWrite ma data errs s
  | .fillComplete g => Sys2Proof.Machine.execFillComplete g s
  | .clearerGranule => Sys2Proof.Machine.execClearerGranule s
  | .scrubStripe errs => Sys2Proof.Machine.execScrubStripe errs s
  | .mr4TemperatureRead pkg temp => Sys2Proof.Machine.execMr4TemperatureRead pkg temp s
  | .packageFailure pkg => Sys2Proof.Machine.execPackageFailure pkg s
  | .packageRetrainRetry pkg trained => Sys2Proof.Machine.execPackageRetrainRetry pkg trained s
  | .rebuildStripe pkg => Sys2Proof.Machine.execRebuildStripe pkg s
  | .correctionWindowEnd => Sys2Proof.Machine.execCorrectionWindowEnd s
  | .retirePackage v => Sys2Proof.Machine.execRetirePackage v s
  | .retirementRecord pkg => Sys2Proof.Machine.execRetirementRecord pkg s
  | .mapWordUncorrectable k => Sys2Proof.Machine.execMapWordUncorrectable k s
  | .oweDrainEnd plot => Sys2Proof.Machine.execOweDrainEnd plot s
  | .oweBackInvalidateEnd plot wb => Sys2Proof.Machine.execOweBackInvalidateEnd plot wb s
  | .oweSetEnd plot => Sys2Proof.Machine.execOweSetEnd plot s
  | .hostMemRead hpa => Sys2Proof.Machine.execHostMemRead hpa s
  | .hostMemWrite hpa data poison => Sys2Proof.Machine.execHostMemWrite hpa data poison s
  | .perstNDeassert => Sys2Proof.Machine.execPerstNDeassert s
  | .functionReady => Sys2Proof.Machine.execFunctionReady s
  | .memoryActive => Sys2Proof.Machine.execMemoryActive s
  | .configRequest fn off wr => Sys2Proof.Machine.execConfigRequest fn off wr s
  | .hdmDecoderCommit n r => Sys2Proof.Machine.execHdmDecoderCommit n r s
  | .linkRecovery => Sys2Proof.Machine.execLinkRecovery s
  | .linkDown => Sys2Proof.Machine.execLinkDown s
  | .hotReset => Sys2Proof.Machine.execHotReset s
  | .perstNAssert => Sys2Proof.Machine.execPerstNAssert s
  | .flrPf => Sys2Proof.Machine.execFlrPf s
  | .flrVf n => Sys2Proof.Machine.execFlrVf n s
  | .pfD3hot => Sys2Proof.Machine.execPfD3hot s
  | .ideIntegrityFailure => Sys2Proof.Machine.execIdeIntegrityFailure s
  | .doorbellSnoop q => Sys2Proof.Machine.execDoorbellSnoop q s
  | .doorbellLineData q producer cqHead => Sys2Proof.Machine.execDoorbellLineData q producer cqHead s
  | .dbpProducerLo q v => Sys2Proof.Machine.execDbpProducerLo q v s
  | .dbpCqHeadLo q v => Sys2Proof.Machine.execDbpCqHeadLo q v s
  | .cacheWritebackInvalidate => Sys2Proof.Machine.execCacheWritebackInvalidate s
  | .atsInvalidation fn tag => Sys2Proof.Machine.execAtsInvalidation fn tag s
  | .msixUnmask fn entry => Sys2Proof.Machine.execMsixUnmask fn entry s
  | .descriptorRead q seq data => Sys2Proof.Machine.execDescriptorRead q seq data s
  | .descriptorAccept q => Sys2Proof.Machine.execDescriptorAccept q s
  | .headerLineRefresh q => Sys2Proof.Machine.execHeaderLineRefresh q s
  | .kernel q seq => Sys2Proof.Machine.execKernel q seq s
  | .copy q seq host tags => Sys2Proof.Machine.execCopy q seq host tags s
  | .send q seq => Sys2Proof.Machine.execSend q seq s
  | .sendResendTimeout q seq => Sys2Proof.Machine.execSendResendTimeout q seq s
  | .fence q seq => Sys2Proof.Machine.execFence q seq s
  | .fenceRelease q seq => Sys2Proof.Machine.execFenceRelease q seq s
  | .hintDescriptor q seq => Sys2Proof.Machine.execHintDescriptor q seq s
  | .completionRecord q seq => Sys2Proof.Machine.execCompletionRecord q seq s
  | .completionLanded q seq => Sys2Proof.Machine.execCompletionLanded q seq s
  | .gangDoneTimer q seq => Sys2Proof.Machine.execGangDoneTimer q seq s
  | .gangStopEnd q seq => Sys2Proof.Machine.execGangStopEnd q seq s
  | .gangDrainEnd q seq => Sys2Proof.Machine.execGangDrainEnd q seq s
  | .gangReadyTimer q seq => Sys2Proof.Machine.execGangReadyTimer q seq s
  | .heldRecordsFlush q => Sys2Proof.Machine.execHeldRecordsFlush q s
  | .queueHeld q => Sys2Proof.Machine.execQueueHeld q s
  | .qctArm q => Sys2Proof.Machine.execQctArm q s
  | .armHeaderRead q hdr => Sys2Proof.Machine.execArmHeaderRead q hdr s
  | .armScan q slots => Sys2Proof.Machine.execArmScan q slots s
  | .armHeldRecords q producer cqHead ring => Sys2Proof.Machine.execArmHeldRecords q producer cqHead ring s
  | .queueDisable q => Sys2Proof.Machine.execQueueDisable q s
  | .queueDisabled q => Sys2Proof.Machine.execQueueDisabled q s
  | .glbQeStore v => Sys2Proof.Machine.execGlbQeStore v s
  | .bind seq list => Sys2Proof.Machine.execBind seq list s
  | .unbind seq list => Sys2Proof.Machine.execUnbind seq list s
  | .clear seq list => Sys2Proof.Machine.execClear seq list s
  | .clearingStopEnd => Sys2Proof.Machine.execClearingStopEnd s
  | .revokeEnd => Sys2Proof.Machine.execRevokeEnd s
  | .resourceClear kind idx => Sys2Proof.Machine.execResourceClear kind idx s
  | .release => Sys2Proof.Machine.execRelease s
  | .newPavilionLease p => Sys2Proof.Machine.execNewPavilionLease p s
  | .install seq => Sys2Proof.Machine.execInstall seq s
  | .retire seq tags => Sys2Proof.Machine.execRetire seq tags s
  | .portEnable port en => Sys2Proof.Machine.execPortEnable port en s
  | .retrain port => Sys2Proof.Machine.execRetrain port s
  | .detect port lanes => Sys2Proof.Machine.execDetect port lanes s
  | .equalise port lanes => Sys2Proof.Machine.execEqualise port lanes s
  | .fecLock port => Sys2Proof.Machine.execFecLock port s
  | .exchange port peer => Sys2Proof.Machine.execExchange port peer s
  | .exchangeRetry port peer => Sys2Proof.Machine.execExchangeRetry port peer s
  | .failedRetry port => Sys2Proof.Machine.execFailedRetry port s
  | .laneLockLoss port lane => Sys2Proof.Machine.execLaneLockLoss port lane s
  | .laneErrorWindow port lane symbols => Sys2Proof.Machine.execLaneErrorWindow port lane symbols s
  | .retrainEnd port => Sys2Proof.Machine.execRetrainEnd port s
  | .portDown port => Sys2Proof.Machine.execPortDown port s
  | .downRetry port => Sys2Proof.Machine.execDownRetry port s
  | .linkFlit port flit => Sys2Proof.Machine.execLinkFlit port flit s
  | .linkNak port expect => Sys2Proof.Machine.execLinkNak port expect s
  | .frameHoldTimeout port k => Sys2Proof.Machine.execFrameHoldTimeout port k s
  | .frameForward port fr tv => Sys2Proof.Machine.execFrameForward port fr tv s
  | .bedData fr => Sys2Proof.Machine.execBedData fr s
  | .event fr => Sys2Proof.Machine.execEvent fr s
  | .contrib fr => Sys2Proof.Machine.execContrib fr s
  | .plotData fr => Sys2Proof.Machine.execPlotData fr s
  | .sendData fr => Sys2Proof.Machine.execSendData fr s
  | .msgAck fr => Sys2Proof.Machine.execMsgAck fr s
  | .probe fr => Sys2Proof.Machine.execProbe fr s
  | .probeReply fr => Sys2Proof.Machine.execProbeReply fr s
  | .done fr => Sys2Proof.Machine.execDone fr s
  | .doneReply fr => Sys2Proof.Machine.execDoneReply fr s
  | .replay fr => Sys2Proof.Machine.execReplay fr s
  | .ready fr => Sys2Proof.Machine.execReady fr s
  | .restart fr => Sys2Proof.Machine.execRestart fr s
  | .rearm fr => Sys2Proof.Machine.execRearm fr s
  | .streamOpen fr => Sys2Proof.Machine.execStreamOpen fr s
  | .streamOpenAck fr => Sys2Proof.Machine.execStreamOpenAck fr s
  | .streamOpenRetry m => Sys2Proof.Machine.execStreamOpenRetry m s
  | .streamAck fr => Sys2Proof.Machine.execStreamAck fr s
  | .streamNak fr => Sys2Proof.Machine.execStreamNak fr s
  | .streamReset fr => Sys2Proof.Machine.execStreamReset fr s
  | .streamFull fr => Sys2Proof.Machine.execStreamFull fr s
  | .sequencedFrame fr => Sys2Proof.Machine.execSequencedFrame fr s
  | .streamRetransmit m => Sys2Proof.Machine.execStreamRetransmit m s
  | .streamIdleClose m => Sys2Proof.Machine.execStreamIdleClose m s
  | .unreachTimeout m => Sys2Proof.Machine.execUnreachTimeout m s
  | .trlModuleId v => Sys2Proof.Machine.execTrlModuleId v s
  | .loopSample conv => Sys2Proof.Machine.execLoopSample conv s
  | .zoneFollowingError z => Sys2Proof.Machine.execZoneFollowingError z s
  | .keepWarmLoad z => Sys2Proof.Machine.execKeepWarmLoad z s
  | .leasePeriod metered => Sys2Proof.Machine.execLeasePeriod metered s
  | .higherGrants => Sys2Proof.Machine.execHigherGrants s
  | .flowFollowingError => Sys2Proof.Machine.execFlowFollowingError s
  | .capBusTimeout => Sys2Proof.Machine.execCapBusTimeout s
  | .predictorRun => Sys2Proof.Machine.execPredictorRun s
  | .predictorRunComplete => Sys2Proof.Machine.execPredictorRunComplete s
  | .hazardTrip h => Sys2Proof.Machine.execHazardTrip h s
  | .hazardQuiesce => Sys2Proof.Machine.execHazardQuiesce s
  | .leakAck => Sys2Proof.Machine.execLeakAck s
  | .hbInEdge => Sys2Proof.Machine.execHbInEdge s
  | .hbLost => Sys2Proof.Machine.execHbLost s
  | .isolateNAssert => Sys2Proof.Machine.execIsolateNAssert s
  | .isolateNRelease => Sys2Proof.Machine.execIsolateNRelease s
  | .start c level => Sys2Proof.Machine.execStart c level s
  | .level c level => Sys2Proof.Machine.execLevel c level s
  | .stop c => Sys2Proof.Machine.execStop c s
  | .off c w => Sys2Proof.Machine.execOff c w s
  | .phase c w => Sys2Proof.Machine.execPhase c w s
  | .boostDeferEnd c => Sys2Proof.Machine.execBoostDeferEnd c s
  | .seti c w => Sys2Proof.Machine.execSeti c w s
  | .setl c w => Sys2Proof.Machine.execSetl c w s
  | .wait c w => Sys2Proof.Machine.execWait c w s
  | .waitEnd c => Sys2Proof.Machine.execWaitEnd c s
  | .waiti c w => Sys2Proof.Machine.execWaiti c w s
  | .waitiEnd c current => Sys2Proof.Machine.execWaitiEnd c current s
  | .holdw c w => Sys2Proof.Machine.execHoldw c w s
  | .pwm c w => Sys2Proof.Machine.execPwm c w s
  | .fountainJmp c w => Sys2Proof.Machine.execFountainJmp c w s
  | .rampl c w => Sys2Proof.Machine.execRampl c w s
  | .ramplEnd c => Sys2Proof.Machine.execRamplEnd c s
  | .commandWatchdog => Sys2Proof.Machine.execCommandWatchdog s
  | .boostTimeout c => Sys2Proof.Machine.execBoostTimeout c s
  | .channelTrip c current => Sys2Proof.Machine.execChannelTrip c current s
  | .tripRecovery c => Sys2Proof.Machine.execTripRecovery c s
  | .openLoad c => Sys2Proof.Machine.execOpenLoad c s
  | .offStateTest c passed => Sys2Proof.Machine.execOffStateTest c passed s
  | .channelReset c => Sys2Proof.Machine.execChannelReset c s
  | .railUndervoltage mv => Sys2Proof.Machine.execRailUndervoltage mv s
  | .railRecovery mv => Sys2Proof.Machine.execRailRecovery mv s
  | .valveVerify c => Sys2Proof.Machine.execValveVerify c s
  | .edit v => Sys2Proof.Machine.execEdit v s
  | .cyclesSave => Sys2Proof.Machine.execCyclesSave s
  | .req t m => Sys2Proof.Machine.execReq t m s
  | .cancel t m => Sys2Proof.Machine.execCancel t m s
  | .canTransmitEnd t r => Sys2Proof.Machine.execCanTransmitEnd t r s
  | .canFrameReceive t fr => Sys2Proof.Machine.execCanFrameReceive t fr s
  | .busOff t => Sys2Proof.Machine.execBusOff t s
  | .recover t => Sys2Proof.Machine.execRecover t s
  | .busOffRecoveryEnd t => Sys2Proof.Machine.execBusOffRecoveryEnd t s
  | .rxPop t => Sys2Proof.Machine.execRxPop t s
  | .leakAlarm => Sys2Proof.Machine.execLeakAlarm s
  | .flowStopAlarm => Sys2Proof.Machine.execFlowStopAlarm s
  | .hazardAlarm => Sys2Proof.Machine.execHazardAlarm s
  | .timeRef t nt cycle ago => Sys2Proof.Machine.execTimeRef t nt cycle ago s
  | .timeRefSend => Sys2Proof.Machine.execTimeRefSend s
  | .refLost => Sys2Proof.Machine.execRefLost s
  | .timeSetLo v => Sys2Proof.Machine.execTimeSetLo v s
  | .ntLoRead => Sys2Proof.Machine.execNtLoRead s
  | .isolate t op sq => Sys2Proof.Machine.execIsolate t op sq s
  | .loopCapacity t watts => Sys2Proof.Machine.execLoopCapacity t watts s
  | .capRequest => Sys2Proof.Machine.execCapRequest s
  | .warning => Sys2Proof.Machine.execWarning s
  | .status => Sys2Proof.Machine.execStatus s
  | .cduHeartbeat t => Sys2Proof.Machine.execCduHeartbeat t s
  | .tmHeartbeat t => Sys2Proof.Machine.execTmHeartbeat t s
  | .romCheck passed => Sys2Proof.Machine.execRomCheck passed s
  | .deviceSecret sram => Sys2Proof.Machine.execDeviceSecret sram s
  | .image => Sys2Proof.Machine.execImage s
  | .configuration => Sys2Proof.Machine.execConfiguration s
  | .keys => Sys2Proof.Machine.execKeys s
  | .getVersion tr => Sys2Proof.Machine.execGetVersion tr s
  | .getCapabilities tr ver xfer => Sys2Proof.Machine.execGetCapabilities tr ver xfer s
  | .negotiateAlgorithms tr a => Sys2Proof.Machine.execNegotiateAlgorithms tr a s
  | .getDigests tr => Sys2Proof.Machine.execGetDigests tr s
  | .getCertificate tr slot off len => Sys2Proof.Machine.execGetCertificate tr slot off len s
  | .challenge tr slot nonce => Sys2Proof.Machine.execChallenge tr slot nonce s
  | .getMeasurements tr idx sign nonce => Sys2Proof.Machine.execGetMeasurements tr idx sign nonce s
  | .keyExchange tr slot data => Sys2Proof.Machine.execKeyExchange tr slot data s
  | .finish sess data => Sys2Proof.Machine.execFinish sess data s
  | .heartbeat sess => Sys2Proof.Machine.execHeartbeat sess s
  | .keyUpdate sess op => Sys2Proof.Machine.execKeyUpdate sess op s
  | .endSession sess => Sys2Proof.Machine.execEndSession sess s
  | .chunkGet tr handle n => Sys2Proof.Machine.execChunkGet tr handle n s
  | .deliverKey tr sess data => Sys2Proof.Machine.execDeliverKey tr sess data s
  | .ideKm tr sess data => Sys2Proof.Machine.execIdeKm tr sess data s
  | .keyDeliveryExpiry handle => Sys2Proof.Machine.execKeyDeliveryExpiry handle s
  | .getInfo mb tag => Sys2Proof.Machine.execGetInfo mb tag s
  | .stageOpen mb tag kind len => Sys2Proof.Machine.execStageOpen mb tag kind len s
  | .stageWrite mb tag off data => Sys2Proof.Machine.execStageWrite mb tag off data s
  | .stageHost mb tag addr data => Sys2Proof.Machine.execStageHost mb tag addr data s
  | .stageCommit mb tag => Sys2Proof.Machine.execStageCommit mb tag s
  | .stageAbort mb tag => Sys2Proof.Machine.execStageAbort mb tag s
  | .stagingTimeout => Sys2Proof.Machine.execStagingTimeout s
  | .keyStatus mb tag handle => Sys2Proof.Machine.execKeyStatus mb tag handle s
  | .keyDiscard mb tag handle => Sys2Proof.Machine.execKeyDiscard mb tag handle s
  | .debugState mb tag => Sys2Proof.Machine.execDebugState mb tag s
  | .debugSet mb tag trace profile addr size => Sys2Proof.Machine.execDebugSet mb tag trace profile addr size s
  | .traceRecord r => Sys2Proof.Machine.execTraceRecord r s
  | .debugHalt u => Sys2Proof.Machine.execDebugHalt u s
  | .pldmRequest m => Sys2Proof.Machine.execPldmRequest m s
  | .gatehouseWatchdog => Sys2Proof.Machine.execGatehouseWatchdog s
  | .clockWindow m count => Sys2Proof.Machine.execClockWindow m count s
  | .islandRelock d => Sys2Proof.Machine.execIslandRelock d s
  | .clockReturn m => Sys2Proof.Machine.execClockReturn m s
  | .ckpClkReturn v => Sys2Proof.Machine.execCkpClkReturn v s
  | .clockLossDetect => Sys2Proof.Machine.execClockLossDetect s
  | .gateClose g => Sys2Proof.Machine.execGateClose g s
  | .gateOpen g => Sys2Proof.Machine.execGateOpen g s
  | .clkobsUpdate => Sys2Proof.Machine.execClkobsUpdate s
  | .vinSag vin => Sys2Proof.Machine.execVinSag vin s
  | .inputPowerMeasure vin watts => Sys2Proof.Machine.execInputPowerMeasure vin watts s
  | .branchOff vin => Sys2Proof.Machine.execBranchOff vin s
  | .signingStop => Sys2Proof.Machine.execSigningStop s
  | .startRecord => Sys2Proof.Machine.execStartRecord s
  | .counters => Sys2Proof.Machine.execCounters s
  | .sundialFlush => Sys2Proof.Machine.execSundialFlush s
  | .power => Sys2Proof.Machine.execPower s
  | .warm => Sys2Proof.Machine.execWarm s
  | .full => Sys2Proof.Machine.execFull s
  | .gatehouse => Sys2Proof.Machine.execGatehouse s
  | .inputQualify => Sys2Proof.Machine.execInputQualify s
  | .alwaysOnUp stable slot => Sys2Proof.Machine.execAlwaysOnUp stable slot s
  | .orangerySelfTest r => Sys2Proof.Machine.execOrangerySelfTest r s
  | .memoryTraining good => Sys2Proof.Machine.execMemoryTraining good s
  | .computeUp => Sys2Proof.Machine.execComputeUp s
  | .complete => Sys2Proof.Machine.execComplete s
  | .startWatchdog => Sys2Proof.Machine.execStartWatchdog s
  | .startFailure reason => Sys2Proof.Machine.execStartFailure reason s
  | .coreRecordRead hbA hbB equal => Sys2Proof.Machine.execCoreRecordRead hbA hbB equal s
  | .knownAnswerTest passA passB => Sys2Proof.Machine.execKnownAnswerTest passA passB s
  | .swapTakeOver => Sys2Proof.Machine.execSwapTakeOver s
  | .swap => Sys2Proof.Machine.execSwap s
  | .pairSwap mb tag => Sys2Proof.Machine.execPairSwap mb tag s
  | .readmit core => Sys2Proof.Machine.execReadmit core s
  | .pairReadmit mb tag core => Sys2Proof.Machine.execPairReadmit mb tag core s
  | .coreSelfTestEnd core passed => Sys2Proof.Machine.execCoreSelfTestEnd core passed s
  | .coreMemoryPatrol core => Sys2Proof.Machine.execCoreMemoryPatrol core s
  | .sensorReferenceTest failed => Sys2Proof.Machine.execSensorReferenceTest failed s
  | .hazardComparatorTest passed => Sys2Proof.Machine.execHazardComparatorTest passed s
  | .sundialTrigger t ctx => Sys2Proof.Machine.execSundialTrigger t ctx s
  | .sundialWrite => Sys2Proof.Machine.execSundialWrite s
  | .listChangeRecord l => Sys2Proof.Machine.execListChangeRecord l s
  | .freeze v => Sys2Proof.Machine.execFreeze v s
  | .freezeExpiry => Sys2Proof.Machine.execFreezeExpiry s
  | .sunSoft v => Sys2Proof.Machine.execSunSoft v s
  | .sunRdSeq v => Sys2Proof.Machine.execSunRdSeq v s
  | .sundialLookupEnd => Sys2Proof.Machine.execSundialLookupEnd s
  | .healthGet mb tag => Sys2Proof.Machine.execHealthGet mb tag s
  | .sunInfo mb tag => Sys2Proof.Machine.execSunInfo mb tag s
  | .sunRead mb tag sq off len => Sys2Proof.Machine.execSunRead mb tag sq off len s
  | .sunFreeze mb tag on => Sys2Proof.Machine.execSunFreeze mb tag on s
  | .sunTrigger mb tag t ctx => Sys2Proof.Machine.execSunTrigger mb tag t ctx s
  | .inventoryGet mb tag item idx => Sys2Proof.Machine.execInventoryGet mb tag item idx s
  | .rcFieldRead off size => Sys2Proof.Machine.execRcFieldRead off size s
  | .bar0RefusedAccess off size wr => Sys2Proof.Machine.execBar0RefusedAccess off size wr s
  | .registerWrite off v size => Sys2Proof.Machine.execRegisterWrite off v size s
  | .linkAtL0 mode => Sys2Proof.Machine.execLinkAtL0 mode s
  | .vinSagClear vin => Sys2Proof.Machine.execVinSagClear vin s
  | .startRelease => Sys2Proof.Machine.execStartRelease s
  | .messageRetry p id => Sys2Proof.Machine.execMessageRetry p id s
  | .detectTimeout port lane => Sys2Proof.Machine.execDetectTimeout port lane s
  | .privateJtagInstruction op => Sys2Proof.Machine.execPrivateJtagInstruction op s
  | .attachedChange attached => Sys2Proof.Machine.execAttachedChange attached s
  | .entdaa addr => Sys2Proof.Machine.execEntdaa addr s

end Sys2Proof.Machine
end

