-- ==== Sys2Proof/Machine/Tick.lean ====
section
/-! DEFINITION. One microsecond of the block's own activity, which a step on an empty queue performs (log 2): a round of the Fountain
(R528), the command watchdog (R529), the Trellis ports, due acknowledgements and refused messages, the start of frames on the thermal bus, the time-out of network time (R577), the trace records (R609), the records of
triggers that fired (R667), the judgement on the crystal (R614), the end of the host link's
Detect phase and of its recovery, and its L1 (log 75), the global observation of posted host writes (log 76), and
one instruction of a steward. -/

namespace Sys2Proof.Machine

/-- The next Pavilion from the steward pointer on, round all 160, that may issue. -/
def Dev.nextSteward (d : Dev) : Option Nat := ((List.range 160).map (fun k => (d.steward + k) % 160)).find? d.canIssue

/-- One steward fetches the word at its program counter and issues it; the pointer moves past it. How many bed errors are corrected on
the way is free (R112, log 12). -/
def Dev.stewardTurn (d : Dev) : Dev :=
  match d.nextSteward with
  | none => d
  | some p =>
    let (d, k) := d.takeFree
    ({ d with steward := (p + 1) % 160 }).issueWord p (Config.bedErrors k) (d.pav p).word

/-- Shares that run are a microsecond older (R190). -/
def Dev.ageShares (d : Dev) : Dev :=
  { d with pavs := Tab.mapV Pav.reset (fun p x => if d.running p then { x with runUs := x.runUs + 1 } else x) d.pavs }

/-- One tick. Without the always-on island, or a clock for it, nothing runs. -/
def Dev.tick (d : Dev) : Dev :=
  let d : Dev := { d with clock := d.clock + 1 }.ageShares
  if d.islandOn then
    let d := d.judgeCrystal.linkDetect.linkSettles.observeWrites.fountain.watchdog.portsSend.ackStreams.resendRefused.checkRoutes
    let d := d.busQuiet.refLost.trace
    (((d.busStart 0).busStart 1).sunAll).stewardTurn
  else d

end Sys2Proof.Machine
end

