-- ==== Sys2Proof/WellFormed.lean ====
section
/-! DEFINITION. Which commands a sender on the interfaces can form: operands whose lengths and ranges the manual fixes. The meanings
are total on every command; these checks say which terms spell a real one. -/

namespace Sys2Proof

/-- A Trellis frame: LENGTH is 0 to 1,024 and a multiple of 16 (Table 9-4). -/
def Frame.wf (f : Frame) : Bool := decide (f.payload.length ≤ 1024) && f.payload.length % 16 == 0

/-- A link flit: 8 bytes of header and 496 of frame data (R440). -/
def Flit.wf (f : Flit) : Bool := f.hdr.length == 8 && f.data.length == 496

/-- A CAN frame: 11 bits of a base identifier, 8 data bytes, or 64 with FD (R552). -/
def CanFrame.wf (f : CanFrame) : Bool :=
  (f.ide || decide (f.id.toNat < 2048)) && decide (f.data.length ≤ if f.fdf then 64 else 8)

/-- A host line written back: 64 bytes at a multiple of 64 (R305). -/
def LineWb.wf (w : LineWb) : Bool := w.ma % 64 == 0 && w.data.length == 64

/-- The operands of a command. -/
def Instr.wf (i : Instr) : Bool :=
  match i with
  | .hostMemRead hpa => hpa.hpa % 64 == 0
  | .hostMemWrite hpa data _ => hpa % 64 == 0 && data.length == 64
  | .oweBackInvalidateEnd _ wb => wb.all LineWb.wf
  | .linkFlit _ f => f.wf
  | .frameForward _ f _ | .streamOpen f | .streamOpenAck f | .streamFull f | .streamAck f | .streamNak f | .streamReset f
  | .sequencedFrame f | .bedData f | .event f | .contrib f | .plotData f | .sendData f | .msgAck f | .probe f | .probeReply f
  | .done f | .doneReply f | .replay f | .ready f | .restart f | .rearm f => f.wf
  | .canFrameReceive _ rx => match rx with | .frame f _ => f.wf | .error _ _ | .overload => true
  | .bind _ l | .unbind _ l | .clear _ l => decide (l.length ≤ 65535)
  | .configRequest _ o _ => o % 4 == 0 && decide (o < 4096)
  | .registerWrite o _ n => (n == 4 || n == 8) && o % n == 0
  | .rcFieldRead o n => (n == 4 || n == 8) && o % n == 0
  | .bar0RefusedAccess o n _ => decide (o < 0x4000000) && !((n == 4 || n == 8) && o % n == 0)
  | .scrubStripe errs | .memoryRead _ _ errs | .memoryWrite _ _ errs => errs.all (fun e => e.x != 0)
  | _ => true

end Sys2Proof
end

