-- ==== Sys2Proof/Safety.lean ====
section
/-! DEFINITION. The terms claims use: how a command ends, when a steward is ready to issue, what a safe run is, and the
canonical form of the block's tables. -/

namespace Sys2Proof.Machine

/-- The command ends with the block as `d`, and the queue of waiting commands as it was. -/
def Ends (i : Instr) (s : State) (d : Dev) : Prop := exec i s = .next { s with dev := d }

/-- The command ends with a block of which `P` holds, and the queue of waiting commands as it was. -/
def EndsIn (i : Instr) (s : State) (P : Dev → Prop) : Prop := ∃ d, Ends i s d ∧ P d

/-- The steward of Pavilion `p` issues the next instruction it is given: a share runs and nothing blocks or stalls it (R35,
R50, R52), no deferred fault waits (R186), and the program counter lies in the code image (R125). -/
def Ready (d : Dev) (p : Nat) : Prop := d.canIssue p = true ∧ (d.pav p).deferred = none ∧ (d.pav p).pcOk = true

/-- The command in which the steward of `p` issues a kernel instruction (Tables 3-5 to 3-17). -/
def kernelCmd (p : Sw) (ce : Nat) : KInsn → Option Instr
  | .scalar op f =>
    match op.toNat with
    | 0x1 => some (.add p f) | 0x2 => some (.sub p f) | 0x3 => some (.mul p f) | 0x4 => some (.and p f) | 0x5 => some (.or p f)
    | 0x6 => some (.xor p f) | 0x7 => some (.shl p f) | 0x8 => some (.shr p f) | 0x9 => some (.sar p f) | 0xa => some (.slt p f)
    | 0xb => some (.sltu p f) | 0x10 => some (.addi p f) | 0x11 => some (.andi p f) | 0x12 => some (.ori p f) | 0x13 => some (.xori p f)
    | 0x14 => some (.shli p f) | 0x15 => some (.shri p f) | 0x16 => some (.lui p f) | 0x20 => some (.lds p f ce) | 0x21 => some (.sts p f)
    | 0x30 => some (.beq p f) | 0x31 => some (.bne p f) | 0x32 => some (.blt p f) | 0x33 => some (.bge p f) | 0x38 => some (.jmp p f)
    | 0x3d => some (.setib p f) | 0x3e => some (.rdsr p f) | 0x3f => some (.endShare p f)
    | _ => none
  | .desc op f =>
    match op.toNat with
    | 0x1 => some (.dld p f ce) | 0x2 => some (.dst p f) | 0x3 => some (.dadd p f) | 0x4 => some (.dsetf p f) | 0x5 => some (.dmov p f)
    | _ => none
  | .tmul f => some (.tmul p f ce)
  | .tread f => some (.tread p f)
  | .tclr f => some (.tclr p f)
  | .tsave f => some (.tsave p f)
  | .tload f => some (.tload p f)
  | .vec op f =>
    match op.toNat with
    | 0x1 => some (.vld p f ce) | 0x2 => some (.vst p f) | 0x3 => some (.vsplat p f) | 0x4 => some (.vmovs p f) | 0x10 => some (.vadd p f)
    | 0x11 => some (.vsub p f) | 0x12 => some (.vmul p f) | 0x13 => some (.vfma p f) | 0x14 => some (.vmax p f) | 0x15 => some (.vmin p f)
    | 0x16 => some (.vabs p f) | 0x17 => some (.vneg p f) | 0x20 => some (.vrsum p f) | 0x21 => some (.vrmax p f) | 0x30 => some (.vcvt p f)
    | 0x31 => some (.volog2 p f) | 0x32 => some (.voexp2 p f) | 0x33 => some (.vtab p f)
    | _ => none
  | .move op f =>
    match op.toNat with
    | 0x1 => some (.mld p f) | 0x2 => some (.mst p f ce) | 0x3 => some (.csend p f ce) | 0x4 => some (.rsend p f ce)
    | _ => none
  | .esig f => some (.esig p f)
  | .ewait f => some (.ewait p f)
  | .mfence f => some (.mfence p f)
  | .hint f => some (.hint p f)

/-- A share stops at its steward's instruction with `code` before any effect: the fault is recorded with the code, the program counter
and the word, PAV_FAULT_EVT is set, the steward stands faulted, and its registers, bed, slots and counters are as they were. -/
def Dev.stopped (d r : Dev) (p : Nat) (code : Nat) (word : Word64) : Prop :=
  let x := d.pav p
  let y := r.pav p
  r.fld (Reg.PAV_FAULT p) F.PAV_FAULT_CODE = code ∧ r.fld (Reg.PAV_FAULT p) F.PAV_FAULT_PC = x.pc.toNat % 2 ^ 22 ∧
  r.reg (Reg.PAV_FAULT_INSN_LO p) = BitVec.ofNat 32 (word.toNat % 2 ^ 32) ∧ r.reg (Reg.PAV_FAULT_INSN_HI p) = BitVec.ofNat 32 (word.toNat / 2 ^ 32) ∧
  r.fld (Reg.PAV_FAULT_EVT p) ⟨0, 1⟩ = 1 ∧ y.faulted = true ∧ y.block = none ∧ y.pc = x.pc ∧ y.s = x.s ∧ y.d = x.d ∧ y.v = x.v ∧ y.bed = x.bed ∧
  y.slot0 = x.slot0 ∧ y.slot1 = x.slot1 ∧ y.ev = x.ev ∧ y.share = x.share

/-- What no tensor or vector instruction changes of its Pavilion: its binding, its share, descriptors, counters, transfers, messages
and the governor. -/
def Pav.keeps (x y : Pav) : Prop :=
  y.allot = x.allot ∧ y.logical = x.logical ∧ y.share = x.share ∧ y.faulted = x.faulted ∧ y.stopped = x.stopped ∧
  y.d = x.d ∧ y.ibase = x.ibase ∧ y.ev = x.ev ∧ y.block = x.block ∧ y.xfers = x.xfers ∧ y.srcs = x.srcs ∧ y.dsts = x.dsts ∧
  y.pend = x.pend ∧ y.deferred = x.deferred ∧ y.freq = x.freq ∧ y.lease = x.lease

/-- What issuing a message leaves unchanged of its Pavilion: registers, bed, slots, counters, flags and share. -/
def Pav.keepsIssue (x y : Pav) : Prop :=
  y.allot = x.allot ∧ y.logical = x.logical ∧ y.share = x.share ∧ y.s = x.s ∧ y.d = x.d ∧ y.v = x.v ∧ y.ibase = x.ibase ∧
  y.slot0 = x.slot0 ∧ y.slot1 = x.slot1 ∧ y.ev = x.ev ∧ y.flags = x.flags ∧ y.bed = x.bed ∧ y.block = x.block ∧
  y.nextId = x.nextId + 1 ∧ y.srcs = x.srcs ∧ y.pend = x.pend ∧ y.faulted = x.faulted

/-- A step that neither faults nor refuses. -/
def Goes (s : State) : Prop := ∃ t, step s = .next t

/-- A safe run of `n` steps: every step goes on. -/
def SafeRun : Nat → State → Prop
  | 0, _ => True
  | n + 1, s => ∃ t, step s = .next t ∧ SafeRun n t

/-- Every command that waits is one a sender can form. -/
def QueueWf (s : State) : Prop := ∀ c ∈ s.pending, c.wf = true

/-- The canonical form of module memory: the bursts, the clearance map, the poison table, lost plots and packages. -/
def Mem.wf (m : Mem) : Bool :=
  Tab.wf (fun _ => (0 : Byte)) m.raw && Tab.wf (fun _ => false) m.clean && Tab.wf (fun _ => false) m.poison && Tab.wf (fun _ => false) m.lost &&
  Tab.wf (fun _ => Pkg.reset) m.pkgs

/-- Every table of the block is in its canonical form: keys rising, no value listed that an unlisted key reads as. -/
def Dev.canonical (d : Dev) : Bool :=
  Tab.wf regReset d.regs && Tab.wf Pav.reset d.pavs && Tab.wf (fun _ => CisBlk.reset) d.blks &&
  d.mem.wf && Tab.wf (fun _ => Queue.reset) d.qs && Tab.wf (fun _ => Allot.reset) d.allots

/-- The SEQ of the flash journal's records rises strictly (R589: each append takes SEQ one above the last). -/
def Gate.journalRises (g : Gate) : Prop := g.journal.Pairwise (fun a b => a.seq < b.seq)

/-- Of every valid record of one journal the other holds a valid one of the same key and kind with the same or a later SEQ (R591). -/
def Gate.recordsKept (g h : Gate) : Prop :=
  ∀ r ∈ g.journal, r.ok = true → ∃ x ∈ h.journal, x.ok = true ∧ x.key = r.key ∧ x.kind = r.kind ∧ r.seq ≤ x.seq

/-- A write at `off` does what the access codes of its register say and nothing more: no register of the tables of chapter 16 whose
write is a command of its own stands there. -/
def plainWrite (off : Nat) : Prop :=
  (specials1 ++ specials2).find? (fun (m : Special) => decide (m.base ≤ off) && dimsMatch m.dims (off - m.base)) = none ∧ mbDataAt off = none

/-- A write or read at `off` reaches the register there: an aligned 32-bit access to BAR0, when the function is ready, outside Lodge, of a block that
runs. -/
def Dev.reaches (d : Dev) (off : Nat) : Prop := d.hp.ready = true ∧ d.inLodge = false ∧ off % 4 = 0 ∧ off < 0x4000000 ∧ d.hidden off = false

/-- Core `k` has been declared FAILED, or OUT at the third declaration within 24 hours: its count is cleared, the standby core takes
over when it is STANDBY_OK, the event is set and the loops, valves, Pavilions and memory stay as they are. -/
def Dev.declared (d r : Dev) (k : Nat) : Prop :=
  r.coreSt k = (if 2 ≤ ((d.coreRec k).fails.filter (fun t => decide (d.clock < t + 86400000000))).length then 4 else 3) ∧
  r.coreSt (otherCore k) = d.coreSt (otherCore k) ∧ (r.coreRec k).miss = 0 ∧
  (d.coreSt k = 0 → d.coreSt (otherCore k) = 1 → r.pair.takeOver = some (otherCore k)) ∧
  (¬ (d.coreSt k = 0 ∧ d.coreSt (otherCore k) = 1) → r.pair.takeOver = d.pair.takeOver.filter (· != k)) ∧
  r.fld (Reg.SUN_PAIR_EVT 2) ⟨0, 1⟩ = 1 ∧ r.org = d.org ∧ r.vdr = d.vdr ∧ r.pavs = d.pavs ∧ r.mem = d.mem ∧ r.outbox = d.outbox

end Sys2Proof.Machine
end

