-- ==== Sys2Proof/Certificates/Slice0/Obligations.lean ====
section
/-! DEFINITION. The statements about the model, one `def Obligations.<Name> : Prop` each, chapter by chapter. `Ends c s d`
says that command `c` at state `s` answers the next state with the block `d` and the queue as it was, so an equation is
both the result and the frame: everything that `d` does not name is unchanged. `EndsIn c s P` says that `c` answers a next state whose
block satisfies `P`. -/

open Sys2Proof Sys2Proof.Machine

/-! ### The queue of commands -/

/-- A step of a state whose queue has `c` in front is `c`'s meaning at the state with the queue's rest; a step on an empty
queue is one tick (the model's choice, log 1 and log 2). -/
def Obligations.StepRunsFrontCommand : Prop :=
  (∀ (c : Instr) (s : State), step { s with pending := c :: s.pending } = exec c s) ∧
  (∀ s : State, s.pending = [] → step s = .next { s with dev := s.dev.tick })

/-- The model stops at no state: every step answers a next state, which has consumed exactly the front command, and
keeps a queue of well-formed commands well formed. Runs of any length from any state are safe. -/
def Obligations.EveryStepGoesOn : Prop :=
  (∀ s : State, ∃ t : State, step s = .next t ∧ t.pending = s.pending.tail ∧ (QueueWf s → QueueWf t)) ∧
  (∀ (n : Nat) (s : State), SafeRun n s)

/-! ### Kernel instruction words (chapter 3) -/

/-- Every kernel instruction of a defined operation, with every field at every value, is what its word decodes to. -/
def Obligations.KernelDecodeOfEncode : Prop :=
  ∀ k : KInsn, k.wf = true → decodeK k.encode = some k

/-- A word decodes to at most one instruction, and that instruction encodes back to every bit of the word; a word decodes to none exactly when
it is the word of no instruction of a defined operation. -/
def Obligations.KernelEncodeOfDecode : Prop :=
  (∀ (w : Word64) (k : KInsn), decodeK w = some k → k.wf = true ∧ k.encode = w) ∧
  (∀ w : Word64, decodeK w = none ↔ ¬ ∃ k : KInsn, k.wf = true ∧ k.encode = w)

/-- ADD, SUB, MUL, AND, OR, XOR, SHL, SHR, SAR, SLT and SLTU issued by a ready steward: SD takes the result modulo 2^64 (a write to S0 is
discarded), the program counter moves to the next word, corrected bed errors met at the fetch are counted, and nothing else changes. ADDI, ANDI, ORI, XORI, SHLI, SHRI, LUI, SETIB and RDSR issued by a ready steward: the immediate is sign-extended for all
but LUI, which puts it above the low half of SA; SETIB writes IBASE; RDSR reads the nine special registers of Table 3-6; the rest is as for the
register forms. -/
def Obligations.ScalarOps : Prop :=
  (∀ (s : State) (p : Sw) (f : ScalarF), Ready s.dev p.val → f.rsv = 0 →
    let x := s.dev.pav p.val
    let a := x.sreg f.sa
    let b := x.sreg f.sb
    let n := b.toNat % 64
    let gives := fun (i : Instr) (v : Word64) => Ends i s ((s.dev.bedCorrected p.val p.ce).setPav p.val (x.setS f.sd v).next)
    gives (.add p f) (a + b) ∧ gives (.sub p f) (a - b) ∧ gives (.mul p f) (a * b) ∧
    gives (.and p f) (a &&& b) ∧ gives (.or p f) (a ||| b) ∧ gives (.xor p f) (a ^^^ b) ∧
    gives (.shl p f) (a <<< n) ∧ gives (.shr p f) (a >>> n) ∧ gives (.sar p f) (a.sshiftRight n) ∧
    gives (.slt p f) (if a.toInt < b.toInt then 1 else 0) ∧
    gives (.sltu p f) (if a.toNat < b.toNat then 1 else 0)) ∧
  (∀ (s : State) (p : Sw) (f : ScalarF), Ready s.dev p.val → f.rsv = 0 →
    let d := s.dev.bedCorrected p.val p.ce
    let x := s.dev.pav p.val
    let a := x.sreg f.sa
    let i : Word64 := f.imm.signExtend 64
    let n := i.toNat % 64
    let gives := fun (i : Instr) (v : Word64) => Ends i s (d.setPav p.val (x.setS f.sd v).next)
    gives (.addi p f) (a + i) ∧ gives (.andi p f) (a &&& i) ∧ gives (.ori p f) (a ||| i) ∧
    gives (.xori p f) (a ^^^ i) ∧ gives (.shli p f) (a <<< n) ∧ gives (.shri p f) (a >>> n) ∧
    gives (.lui p f) ((f.imm.setWidth 64 <<< 32) ||| (a &&& 0xFFFFFFFF)) ∧
    Ends (.setib p f) s (d.setPav p.val ({ x with ibase := a + i } : Pav).next) ∧
    (∀ sh : Share, x.share = some sh →
      (f.imm = 0 → gives (.rdsr p f) (BitVec.ofNat 64 sh.rank)) ∧
      (f.imm = 1 → gives (.rdsr p f) (BitVec.ofNat 64 sh.nshare)) ∧
      (f.imm = 2 → gives (.rdsr p f) (BitVec.ofNat 64 sh.lpav)) ∧
      (f.imm = 3 → gives (.rdsr p f) (sh.args.setWidth 64)) ∧
      (f.imm = 4 → gives (.rdsr p f) (sh.code.setWidth 64)) ∧
      (f.imm = 5 → gives (.rdsr p f) sh.seed) ∧
      (f.imm = 6 → gives (.rdsr p f) (BitVec.ofNat 64 sh.lmod)) ∧
      (f.imm = 7 → gives (.rdsr p f) (BitVec.ofNat 64 sh.nmod)) ∧
      (f.imm = 8 → gives (.rdsr p f) (sh.group.setWidth 64))))

/-- S0 reads as 0 in every state; after a write to a register, S0 still reads as 0, that register reads what was written and every other
reads as before; a write to S0 changes nothing. -/
def Obligations.ScalarZeroRegister : Prop :=
  ∀ (x : Pav) (i j : BitVec 5) (v : Word64), x.sreg 0 = 0 ∧
    ((x.setS i v).sreg j = if j = 0 then 0 else if j = i then v else x.sreg j) ∧ (x.setS 0 v) = x

/-- LDS and STS at an address that is a multiple of 8 and lies in the bed (for STS outside the code image), and the branches
BEQ, BNE, BLT, BGE and JMP, issued by a ready steward: LDS writes SD with the word of the bed, STS writes the word at its address, a branch
taken goes to PC + 8 × IMM, one not taken to the next word; corrected bed errors are counted and nothing else changes. -/
def Obligations.BedWordsAndBranches : Prop :=
  ∀ (s : State) (p : Sw) (f : ScalarF) (ce : Nat), Ready s.dev p.val → f.rsv = 0 →
    let d := s.dev.bedCorrected p.val p.ce
    let x := s.dev.pav p.val
    let a := x.sreg f.sa
    let b := x.sreg f.sb
    let i : Word64 := f.imm.signExtend 64
    let at_ := (a + i).toNat
    let target : Pav := { x with pc := x.pc + 8 * i }
    let goes := fun (k : Instr) (c : Prop) [Decidable c] => Ends k s (d.setPav p.val (if c then target else x.next))
    (at_ % 8 = 0 → at_ + 8 ≤ bedSize →
      Ends (.lds p f ce) s ((s.dev.bedCorrected p.val (p.ce + ce)).setPav p.val
        (x.setS f.sd (BitVec.ofNat 64 (leNat (x.bedRead at_ 8)))).next) ∧
      (x.hitsCode at_ (at_ + 8 : Nat) = false →
        Ends (.sts p f) s (d.setPav p.val (x.bedWrite at_ (leBytes 8 b.toNat)).next))) ∧
    goes (.beq p f) (a = b) ∧ goes (.bne p f) (a ≠ b) ∧ goes (.blt p f) (a.toInt < b.toInt) ∧
    goes (.bge p f) (b.toInt ≤ a.toInt) ∧ Ends (.jmp p f) s (d.setPav p.val target)

/-- Where a kernel instruction stops the share (`Dev.stopped`): any kernel instruction with a nonzero reserved field, or with a zero COUNT of ESIG, with
RESERVED_FIELD; LDS and STS whose address is not a multiple of 8, with ALIGNMENT, and whose word leaves the bed, with BED_RANGE; STS into the code
image, with BED_RANGE; RDSR of a selector outside Table 3-6, with RESERVED_FIELD. -/
def Obligations.ScalarFaults : Prop :=
  ∀ (s : State) (p : Sw) (f : ScalarF) (ce : Nat), Ready s.dev p.val →
    let x := s.dev.pav p.val
    let at_ := (x.sreg f.sa + f.imm.signExtend 64).toNat
    let stops := fun (k : KInsn) (i : Instr) (code : Nat) => EndsIn i s (fun d => s.dev.stopped d p.val code k.encode)
    let lds := stops (.scalar 0x20 f) (.lds p f ce)
    let sts := stops (.scalar 0x21 f) (.sts p f)
    (∀ k i, kernelCmd p ce k = some i → k.rsvBad = true → stops k i 0x02) ∧
    (f.rsv = 0 → at_ % 8 ≠ 0 → lds 0x06 ∧ sts 0x06) ∧
    (f.rsv = 0 → at_ % 8 = 0 → bedSize < at_ + 8 → lds 0x05 ∧ sts 0x05) ∧
    (f.rsv = 0 → at_ % 8 = 0 → at_ + 8 ≤ bedSize → x.hitsCode at_ (at_ + 8 : Nat) = true → sts 0x05) ∧
    (f.rsv = 0 → 9 ≤ f.imm.toNat → stops (.scalar 0x3E f) (.rdsr p f) 0x02)

/-- DLD, DST, DADD, DSETF and DMOV issued by a ready steward. DLD and DST use the bed address SA + IMM, a multiple of 32 whose 32 bytes lie in the bed
(for DST outside the code image); DADD moves BASE to a byte of the bed; DSETF changes the one field of D that IMM names; corrected bed errors are counted
and nothing else changes. Where they stop the share: DLD and DST at another address, DADD beyond the bed, DLD of 32 bytes with a nonzero
reserved field, DST into the code image, DSETF of a selector outside Table 3-9. The 32 bytes that DST writes for a descriptor read back as that descriptor, and bytes written to the bed read back. -/
def Obligations.DescriptorOps : Prop :=
  (∀ (s : State) (p : Sw) (f : DescF) (ce : Nat), Ready s.dev p.val → f.rsv = 0 →
    let d := s.dev.bedCorrected p.val p.ce
    let x := s.dev.pav p.val
    let a := x.sreg f.sa
    let at_ := (a + f.imm.signExtend 64).toNat
    let g := x.dreg f.da
    let v := a.toNat
    let takes := fun (i : Instr) (e : BedDesc) => Ends i s (d.setPav p.val (x.setDreg f.dd e).next)
    let stops := fun (op : BitVec 8) (i : Instr) (code : Nat) => EndsIn i s (fun r => s.dev.stopped r p.val code (KInsn.desc op f).encode)
    (at_ % 32 = 0 → at_ + 32 ≤ bedSize →
      (∀ e : BedDesc, BedDesc.ofBytes (x.bedRead at_ 32) = some e →
        Ends (.dld p f ce) s ((s.dev.bedCorrected p.val (p.ce + ce)).setPav p.val (x.setDreg f.dd e).next)) ∧
      (BedDesc.ofBytes (x.bedRead at_ 32) = none → stops 0x01 (.dld p f ce) 0x02) ∧
      (x.hitsCode at_ (at_ + 32 : Nat) = false →
        Ends (.dst p f) s (d.setPav p.val (x.bedWrite at_ g.bytes).next)) ∧
      (x.hitsCode at_ (at_ + 32 : Nat) = true → stops 0x02 (.dst p f) 0x05)) ∧
    (at_ % 32 ≠ 0 → stops 0x01 (.dld p f ce) 0x06 ∧ stops 0x02 (.dst p f) 0x06) ∧
    (at_ % 32 = 0 → bedSize < at_ + 32 → stops 0x01 (.dld p f ce) 0x05 ∧ stops 0x02 (.dst p f) 0x05) ∧
    (∀ b : Nat, (g.base.toNat : Int) + (a + f.imm.signExtend 64).toInt = b → b < bedSize →
      takes (.dadd p f) { g with base := BitVec.ofNat 22 b }) ∧
    (∀ b : Int, (g.base.toNat : Int) + (a + f.imm.signExtend 64).toInt = b → b < 0 ∨ (bedSize : Int) ≤ b → stops 0x03 (.dadd p f) 0x05) ∧
    (11 ≤ f.imm.toNat → stops 0x04 (.dsetf p f) 0x02) ∧
    takes (.dmov p f) g ∧
    (f.imm = 0 → takes (.dsetf p f) { g with base := BitVec.ofNat 22 v }) ∧
    (f.imm = 1 → takes (.dsetf p f) { g with fmt := BitVec.ofNat 4 v }) ∧
    (f.imm = 2 → takes (.dsetf p f) { g with scaled := BitVec.ofNat 1 v }) ∧
    (f.imm = 3 → takes (.dsetf p f) { g with scaleBase := BitVec.ofNat 22 v }) ∧
    (f.imm = 4 → takes (.dsetf p f) { g with ext0 := BitVec.ofNat 16 v }) ∧
    (f.imm = 5 → takes (.dsetf p f) { g with ext1 := BitVec.ofNat 16 v }) ∧
    (f.imm = 6 → takes (.dsetf p f) { g with ext2 := BitVec.ofNat 16 v }) ∧
    (f.imm = 7 → takes (.dsetf p f) { g with ext3 := BitVec.ofNat 16 v }) ∧
    (f.imm = 8 → takes (.dsetf p f) { g with stride1 := BitVec.ofNat 32 v }) ∧
    (f.imm = 9 → takes (.dsetf p f) { g with stride2 := BitVec.ofNat 32 v }) ∧
    (f.imm = 10 → takes (.dsetf p f) { g with stride3 := BitVec.ofNat 32 v })) ∧
  ((∀ g : BedDesc, g.bytes.length = 32 ∧ BedDesc.ofBytes g.bytes = some g) ∧
  (∀ (x : Pav) (a : Nat) (bs : Bytes), (x.bedWrite a bs).bedRead a bs.length = bs))

/-- TMUL of any operand pair of Table 2-5, in either orientation of each operand, with shapes, pair, placement and range as the manual asks, issued by a
ready steward: cell (i, j) of the slot takes its products in rising k on top of what ACC keeps (with ACC = 0, or into an empty slot, on top of zero), the
slot has the shape of the operands and a pair of them, the flags of all cells are added, and nothing else changes but the program counter and the
corrected-error count. With TA = 0, dimension 0 of A is K and dimension 1 is M, with TA = 1 the other way round; B likewise with N. -/
def Obligations.TmulCells : Prop :=
  ∀ (s : State) (p : Sw) (f : TmulF) (ce : Nat) (fa fb : Fmt) (kd : AccKind), Ready s.dev p.val → f.rsv = 0 →
    let x := s.dev.pav p.val
    let a := x.dreg f.da
    let b := x.dreg f.db
    let ta := f.ta == 1
    let tb := f.tb == 1
    let sa := a.scaled == 1
    let sb := b.scaled == 1
    let m := if ta then a.e0 else a.e1
    let n := if tb then b.e0 else b.e1
    let k := if ta then a.e1 else a.e0
    let old := fun (c : Nat) => match x.slot f.slot with
      | some o => if f.acc = 1 then Tab.get Cell.zero o.cells c else Cell.zero
      | none => Cell.zero
    let r := fun (i j : Nat) => Cell.mulAcc kd (old (i * n + j)) (x.cellProds a b fa fb ta tb k i j)
    Fmt.ofCode a.fmt.toNat = some fa → Fmt.ofCode b.fmt.toNat = some fb →
    fa.scaleOk sa = true → fb.scaleOk sb = true → pairKind fa sa fb sb = some kd →
    (a.scaled = 1 → f.ta = 0 ∧ a.e0 % 32 = 0) → (b.scaled = 1 → f.tb = 0 ∧ b.e0 % 32 = 0) →
    k = (if tb then b.e1 else b.e0) → k ≤ min fa.kt fb.kt → m ≤ 128 → n ≤ 64 → a.e2 = 1 → a.e3 = 1 → b.e2 = 1 → b.e3 = 1 →
    x.fillBad f.slot kd = false → a.out fa.bits sa = false → b.out fb.bits sb = false →
    (∀ o : Slot, x.slot f.slot = some o → f.acc = 1 → o.samePair fa sa fb sb = true ∧ o.kind = kd ∧ o.m = m ∧ o.n = n) →
    ∃ t : Slot, Ends (.tmul p f ce) s ((s.dev.bedCorrected p.val (p.ce + ce)).setPav p.val
        ((x.setSlot f.slot (some t)).addFlags
          (((List.range (m * n)).map (fun c => (r (c / n) (c % n)).2)).foldl (· ||| ·) 0)).next) ∧
      t.samePair fa sa fb sb = true ∧ t.kind = kd ∧ t.m = m ∧ t.n = n ∧
      ∀ i j, i < m → j < n → Tab.get Cell.zero t.cells (i * n + j) = (r i j).1

/-- TCLR, TREAD, TSAVE and TLOAD issued by a ready steward on a slot that R145 lets them name. TCLR empties the slot. TREAD, with a defined rounding mode and a
destination of the slot's shape that lies in the bed outside the code image, rounds the cells in linear order into it, and empties the slot when CLR is
1. TSAVE at a multiple of 64, the image within the bed and outside the code image, writes the image of the slot. TLOAD of bytes whose header names a
pair, a shape and the map, and whose cells restore, fills the slot with them. Corrected bed errors are counted and nothing else changes. -/
def Obligations.TensorSlotOps : Prop :=
  ∀ (s : State) (p : Sw) (fc : TclrF) (fr : TreadF) (fi : TimgF) (t : Slot) (fmt : Fmt), Ready s.dev p.val →
    let d := s.dev.bedCorrected p.val p.ce
    let x := s.dev.pav p.val
    let g := x.dreg fr.dd
    let a := (x.dreg fi.dd).base.toNat
    (fc.rsv1 = 0 → fc.rsv2 = 0 → x.slotBad fc.slot = false →
      Ends (.tclr p fc) s (d.setPav p.val (x.setSlot fc.slot none).next)) ∧
    (fr.rsv1 = 0 → fr.rsv2 = 0 → fr.rmode.toNat ≤ 4 → x.slotBad fr.slot = false → x.slot fr.slot = some t →
      g.check = .ok fmt → g.e0 = t.n → g.e1 = t.m → g.e2 = 1 → g.e3 = 1 → (g.scaled = 1 → t.n % 32 = 0) →
      x.writeHits g fmt.bits 0 g.count = false →
      Ends (.tread p fr) s (d.setPav p.val
        (let y := x.roundInto g fmt fr.rmode.toNat 0 ((List.range (t.m * t.n)).map (fun c =>
            ((Tab.get Cell.zero t.cells c).val t.kind, stochR x.seed ((x.ibase.toNat + c) % 2 ^ 64))))
         if fr.clr = 1 then y.setSlot fr.slot none else y).next)) ∧
    (fi.rsv1 = 0 → fi.rsv2 = 0 → x.slotBad fi.slot = false → x.slot fi.slot = some t → a % 64 = 0 → a + t.image.length ≤ bedSize →
      x.hitsCode a (a + t.image.length : Nat) = false →
      Ends (.tsave p fi) s (d.setPav p.val (x.bedWrite a t.image).next)) ∧
    (∀ (kd : AccKind) (map : Bool), fi.rsv1 = 0 → fi.rsv2 = 0 → a % 64 = 0 →
      a + 64 + kd.cellBytes * (t.m * t.n) + (if map then (t.m * t.n + 3) / 4 else 0) ≤ bedSize →
      t.fa.scaleOk t.sa = true → t.fb.scaleOk t.sb = true → pairKind t.fa t.sa t.fb t.sb = some kd → x.fillBad fi.slot kd = false →
      1 ≤ t.m → t.m ≤ 128 → 1 ≤ t.n → t.n ≤ 64 → t.kind = kd →
      x.bedRead a 64 = [BitVec.ofNat 8 (t.fa.code + 16 * t.fb.code), BitVec.ofNat 8 (bit t.sa + 2 * bit t.sb), BitVec.ofNat 8 (t.m - 1),
        BitVec.ofNat 8 (t.n - 1), BitVec.ofNat 8 (bit map)] ++ List.replicate 59 0 →
      restoreCells kd (t.m * t.n) (x.bedRead (a + 64) (kd.cellBytes * (t.m * t.n)))
        (x.bedRead (a + 64 + kd.cellBytes * (t.m * t.n)) (if map then (t.m * t.n + 3) / 4 else 0)) map = some t.cells →
      Ends (.tload p fi) s (d.setPav p.val (x.setSlot fi.slot (some t)).next))

/-- VADD, VSUB, VMUL, VFMA, VMAX, VMIN, VABS, VNEG, VCVT, VOLOG2, VOEXP2 and VSPLAT issued by a ready steward, with at most 256 active lanes and a defined
rounding mode (stochastic only in VCVT): each of the NLANE + 1 active lanes of VD takes its result, its lanes above and all other vector registers keep
their values, the lanes' flags are added, corrected bed errors are counted, and nothing else changes but the program counter. VST, VRSUM, VRMAX, VMOVS, VLD and VTAB issued by a ready steward, with at most 256 active lanes and a defined rounding mode (stochastic only in VST). VRSUM
and VRMAX write lane 0 of VD alone with the tree of Add or of Max over the active lanes; VMOVS, with NLANE 0, writes SX from lane 0 of VA; VLD converts the
elements from index SX on into the active lanes; VST rounds the active lanes into the elements from index SX on; VTAB evaluates the table of 528
bytes at a multiple of 16 for each active lane. The lanes' flags are added, corrected bed errors counted, and nothing else changes. -/
def Obligations.VectorOps : Prop :=
  (∀ (s : State) (p : Sw) (f : VecF) (fmt : Fmt), Ready s.dev p.val → f.rsv = 0 → f.nlane.toNat ≤ 255 → f.rmode.toNat ≤ 4 →
    let d := s.dev.bedCorrected p.val p.ce
    let x := s.dev.pav p.val
    let a := x.lane f.va
    let b := x.lane f.vb
    let m := f.rmode.toNat
    let lanes := fun (i : Instr) (g : Nat → Nat × Flags) => ∃ w : Tab Word32,
      Ends i s (d.setPav p.val (({ x with v := w } : Pav).addFlags (((List.range (f.nlane.toNat + 1)).map (fun k => (g k).2)).foldl (· ||| ·) 0)).next) ∧
      ∀ r k, k < 256 → ({ x with v := w } : Pav).lane r k = if r = f.vd ∧ k ≤ f.nlane.toNat then (g k).1 % 2 ^ 32 else x.lane r k
    (Fmt.ofCode f.d.toNat = some fmt → fmt.mustScale = false →
      lanes (.vcvt p f) (fun k => vcvtLane fmt m (stochR x.seed ((x.ibase.toNat + k) % 2 ^ 64)) (a k))) ∧
    (f.rmode.toNat ≤ 3 →
      lanes (.vadd p f) (fun k => fpAdd m (a k) (b k)) ∧ lanes (.vsub p f) (fun k => fpSub m (a k) (b k)) ∧
      lanes (.vmul p f) (fun k => fpMul m (a k) (b k)) ∧
      lanes (.vfma p f) (fun k => fpFma m (a k) (b k) (x.lane f.vc k)) ∧
      lanes (.vmax p f) (fun k => fpMax (a k) (b k)) ∧ lanes (.vmin p f) (fun k => fpMin (a k) (b k)) ∧
      lanes (.vabs p f) (fun k => fpAbs (a k)) ∧ lanes (.vneg p f) (fun k => fpNeg (a k)) ∧
      lanes (.volog2 p f) (fun k => volog2 m (a k)) ∧
      lanes (.voexp2 p f) (fun k => ((convTo .fp32 0 0 (elemVal .os12 0x7F (oexp2 m (a k)).1).1).1, (oexp2 m (a k)).2)) ∧
      lanes (.vsplat p f) (fun _ => ((x.sreg f.sx).toNat, 0)))) ∧
  (∀ (s : State) (p : Sw) (f : VecF) (ce : Nat) (fmt : Fmt), Ready s.dev p.val → f.rsv = 0 → f.nlane.toNat ≤ 255 → f.rmode.toNat ≤ 4 →
    let x := s.dev.pav p.val
    let g := x.dreg f.d
    let n0 := (x.sreg f.sx).toNat
    let done := fun (i : Instr) (y : Pav) => Ends i s ((s.dev.bedCorrected p.val p.ce).setPav p.val y.next)
    let sum := treeFold (fpAdd 0) 8 (x.lanesOf f)
    let top := treeFold fpMax 8 (x.lanesOf f)
    (x.vecDesc f = .ok fmt → ¬ (g.scaled = 1 ∧ (n0 % 32 ≠ 0 ∨ vLanes f % 32 ≠ 0)) → x.writeHits g fmt.bits n0 (vLanes f) = false →
      done (.vst p f) ((x.roundInto g fmt f.rmode.toNat n0 ((List.range (vLanes f)).map (fun i =>
          ((fpVal (x.lane f.va i)).1, stochR x.seed ((x.ibase.toNat + n0 + i) % 2 ^ 64))))).addFlags
        ((List.range (vLanes f)).foldl (fun a i => a ||| (fpVal (x.lane f.va i)).2) 0))) ∧
    (f.rmode.toNat ≤ 3 →
      done (.vrsum p f) ((x.setLane f.vd 0 sum.1).addFlags sum.2) ∧
      done (.vrmax p f) ((x.setLane f.vd 0 top.1).addFlags top.2) ∧
      (f.nlane = 0 → done (.vmovs p f) (x.setS f.sx (BitVec.ofNat 64 (x.lane f.va 0)))) ∧
      (x.vecDesc f = .ok fmt →
        Ends (.vld p f ce) s ((s.dev.bedCorrected p.val (p.ce + ce)).setPav p.val (x.mapLanes f (fun i =>
          let o := x.elem g fmt (n0 + i)
          let v := elemVal o.fmt o.scale o.code
          ((convTo .fp32 f.rmode.toNat 0 v.1).1, v.2 ||| (convTo .fp32 f.rmode.toNat 0 v.1).2))).next)) ∧
      (g.base.toNat % 16 = 0 → g.base.toNat + 528 ≤ bedSize →
        done (.vtab p f) (x.mapLanes f (fun i => x.vtabLane g.base.toNat (x.lane f.va i))))))

/-- Which bed bytes a store changes: one of bytes at an address (STS, DST, TSAVE) only those bytes; one of rounded values through a descriptor
(TREAD, VST) only the bytes that hold an element or a scale that the descriptor places. -/
def Obligations.BedStoreFrame : Prop :=
  (∀ (x : Pav) (a b : Nat) (bs : Bytes), (b < a ∨ a + bs.length ≤ b) → (x.bedWrite a bs).bedRead b 1 = x.bedRead b 1) ∧
  (∀ (x : Pav) (g : BedDesc) (fmt : Fmt) (mode n0 c : Nat) (vs : List (Val × Nat)),
    (∀ k, k < vs.length → ¬ ((g.bitAt fmt.bits (n0 + k)).toNat / 8 ≤ c ∧ c < ((g.bitAt fmt.bits (n0 + k)).toNat + fmt.bits + 7) / 8)) →
    (g.scaled = 1 → ∀ k, k < vs.length → c ≠ g.scaleAt (n0 + 32 * (k / 32))) →
    (x.roundInto g fmt mode n0 vs).bedRead c 1 = x.bedRead c 1)

/-- MLD, MST, RSEND, ESIG, EWAIT, MFENCE and HINT issued by a ready steward. A movement joins the list of outstanding transfers and the steward goes on to the
next word; MST and RSEND take their bytes at issue; RSEND and ESIG take the next landing and event ordinals toward their destination. EWAIT subtracts its
value from the counter and goes on, or blocks with nothing subtracted; MFENCE goes on when every movement has completed, or blocks; HINT goes out to the
predictor and sets or ends the phase hint. Corrected bed errors are counted and nothing else changes. A descriptor that fails the checks of R164, a
range outside the allotment and a destination not of the form of R167 stop the share. CSEND issued by a ready steward, from elements of the bed or from the cells of a slot, with a number of values that is a multiple of 64, to blocks of a
module of the binding: its packets stand in the list of outstanding transfers in linear order, their part and block numbers rising by one from the
operands', each with the share's group, queue and sequence; saturation of a cell adds its flags; the steward goes on and nothing else changes. Elements
not a multiple of 64, and a block or module outside the binding, stop the share. -/
def Obligations.MovementStarts : Prop :=
  (∀ (s : State) (p : Sw) (f : MoveF) (g : SyncF) (fe : FenceF) (h : HintF) (ce : Nat), Ready s.dev p.val →
    let d := s.dev.bedCorrected p.val p.ce
    let d1 := s.dev.bedCorrected p.val (p.ce + ce)
    let x := d.pav p.val
    let b := x.dreg f.d
    let word := fun (op : BitVec 8) => (KInsn.move op f).encode
    let plain := f.rsv = 0 ∧ f.sb = 0 ∧ f.srcAcc = 0 ∧ f.slot = 0
    let v := (x.sreg g.sa).setWidth 32 + g.imm
    let stops := fun (i : Instr) (code : Nat) (w : Word64) => EndsIn i s (fun r => s.dev.stopped r p.val code w)
    (∀ w n ma, plain → b.checkMove = .ok (w, n) → d.plotMA x.allot (x.sreg f.sa) n = some ma →
      (x.scatterHits b w = false → Ends (.mld p f) s
        (d.setPav p.val (x.pushXfer { x.mkXfer .mld (word 1) b (f.ev == 1) f.evn with ma := ma, len := n }))) ∧
      (x.scatterHits b w = true → stops (.mld p f) 0x05 (word 1)) ∧
      Ends (.mst p f ce) s
        (d1.setPav p.val (x.pushXfer { x.mkXfer .mst (word 2) b (f.ev == 1) f.evn with ma := ma, len := n, data := x.gather b w }))) ∧
    (∀ w n m l a, plain → b.checkMove = .ok (w, n) → d.destOf x.allot (x.sreg f.sa) = some (m, l, a) →
      let k : DstMark := x.dstMark m l
      let k' : DstMark := { k with landOrd := k.landOrd + 1, ord := if f.ev = 1 then k.ord + 1 else k.ord }
      Ends (.rsend p f ce) s (d1.setPav p.val ((x.setDst k').pushXfer { x.mkXfer .rsend (word 4) b (f.ev == 1) f.evn with
        data := x.gather b w, len := n, dstMod := m, dstPav := l, bedAddr := a, ord := k'.ord, landOrd := k'.landOrd }))) ∧
    (∀ c, plain → b.checkMove = .error c →
      stops (.mld p f) (faultNum c) (word 1) ∧ stops (.mst p f ce) (faultNum c) (word 2) ∧ stops (.rsend p f ce) (faultNum c) (word 4)) ∧
    (∀ w n, plain → b.checkMove = .ok (w, n) →
      (d.plotMA x.allot (x.sreg f.sa) n = none → stops (.mld p f) 0x07 (word 1) ∧ stops (.mst p f ce) 0x07 (word 2)) ∧
      (d.destOf x.allot (x.sreg f.sa) = none → stops (.rsend p f ce) 0x07 (word 4))) ∧
    (g.rsv1 = 0 → g.rsv2 = 0 → g.imm ≠ 0 →
      (∀ m l a, d.destOf x.allot (x.sreg g.sa) = some (m, l, a) →
        let k : DstMark := x.dstMark m l
        let k' : DstMark := { k with ord := k.ord + 1 }
        Ends (.esig p g) s (d.setPav p.val ((x.setDst k').pushXfer { x.mkXfer .esig (KInsn.esig g).encode BedDesc.zero true g.evn with
          count := g.imm, dstMod := m, dstPav := l, ord := k'.ord }))) ∧
      (d.destOf x.allot (x.sreg g.sa) = none → stops (.esig p g) 0x07 (KInsn.esig g).encode)) ∧
    (g.rsv1 = 0 → g.rsv2 = 0 →
      (v.toNat ≤ (x.evc g.evn).toNat → Ends (.ewait p g) s (d.setPav p.val (x.setEvc g.evn (x.evc g.evn - v)).next)) ∧
      ((x.evc g.evn).toNat < v.toNat → Ends (.ewait p g) s (d.setPav p.val { x with block := some (.ewait g.evn.toNat v) }))) ∧
    (fe.rsv = 0 →
      (x.moved = true → Ends (.mfence p fe) s (d.setPav p.val x.next)) ∧
      (x.moved = false → Ends (.mfence p fe) s (d.setPav p.val { x with block := some .fence }))) ∧
    (h.rsv = 0 → (h.kind = 0 → Ends (.hint p h) s
        ((d.setPav p.val ({ x with phaseHint := some ⟨h.power.toNat, d.clock + h.dur.toNat, d.clock⟩ } : Pav).next).emit
          (.hint p.val 0 h.power.toNat h.dur.toNat))) ∧
      (h.kind = 1 → Ends (.hint p h) s
        ((d.setPav p.val ({ x with phaseHint := none } : Pav).next).emit (.hint p.val 1 h.power.toNat h.dur.toNat))))) ∧
  (∀ (s : State) (p : Sw) (f : MoveF) (ce : Nat) (sh : Share) (pk : List Packet) (fl : Flags), Ready s.dev p.val → f.rsv = 0 →
    let d := s.dev.bedCorrected p.val (p.ce + ce)
    let x := d.pav p.val
    let b := x.dreg f.d
    let addr := (x.sreg f.sa).toNat
    let m := addr / 2 ^ 32
    let blk := addr % 1024
    let part : Word32 := (x.sreg f.sb).setWidth 32
    let al := d.allot x.allot
    let word := (KInsn.move 3 f).encode
    let stops := fun (code : Nat) => EndsIn (.csend p f ce) s (fun r => s.dev.stopped r p.val code word)
    let inRange := addr % 2 ^ 32 < 1024 ∧ m < al.nmod ∧ m < 2 ^ 16 ∧ blk + pk.length ≤ 1024 ∧
      (m = d.lmod al → ∀ k ∈ pk, (d.blkOf x.allot k.blk).isSome)
    x.share = some sh →
    (((f.srcAcc = 0 ∧ f.slot = 0 ∧ fl = 0 ∧
          ∃ fm, b.check = .ok fm ∧ b.count % 64 = 0 ∧ pk = d.bedPackets x sh b fm part blk) ∨
        (f.srcAcc = 1 ∧ f.d = 0 ∧ x.slotBad f.slot = false ∧
          ∃ t, x.slot f.slot = some t ∧ t.m * t.n % 64 = 0 ∧ (pk, fl) = d.slotPackets sh t part blk)) →
      (inRange → Ends (.csend p f ce) s (d.setPav p.val ((x.addFlags fl).pushXfer { x.mkXfer .csend word b (f.ev == 1) f.evn with
        dstMod := m, pkts := (List.range pk.length).zip pk }))) ∧
      (¬ inRange → stops 0x07) ∧
      ∀ i k, pk[i]? = some k → k.part = part + BitVec.ofNat 32 i ∧ k.blk = blk + i ∧ k.group = sh.group ∧ k.queue = sh.q ∧ k.seq = sh.seq ∧
        k.srcModule = d.moduleId) ∧
    (f.srcAcc = 0 → f.slot = 0 → ∀ fm, b.check = .ok fm → b.count % 64 ≠ 0 → stops 0x04) ∧
    (f.srcAcc = 0 → f.slot = 0 → ∀ c, b.check = .error c → stops (faultNum c)) ∧
    (f.srcAcc = 1 → f.d = 0 → (x.slotBad f.slot = true ∨ x.slot f.slot = none) → stops 0x03))

/-- A movement ends. MLD_COMPLETE places what memory returns under the transfer's descriptor, MST_COMPLETE stores what was taken, CSEND_COMPLETE asks that no packet
is left; each then leaves the list of outstanding transfers and, with EV 1, adds 1 to its local counter, or stops the share where the counter would pass its end. A read whose answer waits changes nothing in the Pavilion (log 69); one or a write that memory fails brings MEMORY. An acknowledged message of this module leaves the
list. DEFERRED_FAULT_REPORT of a fault that a report can bring takes the transfer off the list and defers the fault, unless one is deferred already, or takes it at once where the steward
waits. EWAIT_RELEASE and MFENCE_RELEASE resume a steward whose wait is over. For a transfer that is not outstanding, or of another kind, and for a wait that is not over, nothing happens. -/
def Obligations.MovementEnds : Prop :=
  ∀ (s : State) (p : Pv) (id : Nat) (t : Xfer) (code : FaultCode) (d1 : Dev),
    let d := s.dev
    let x := d.pav p.val
    let reports := [FaultCode.memory, .access, .format, .bedRange, .remote]
    (x.xfer? id = none → ∀ i ∈ [Instr.mldComplete p id, .mstComplete p id, .csendComplete p id, .rsendLanding p id, .eventMessage p id, .eventMessageAck p id,
      .messageRetry p id, .deferredFaultReport p id code], Ends i s d) ∧
    (code ∉ reports → Ends (.deferredFaultReport p id code) s d) ∧
    (x.xfer? id = some t →
      (t.kind ≠ .mld → Ends (.mldComplete p id) s d) ∧ (t.kind ≠ .mst → Ends (.mstComplete p id) s d) ∧
      (t.kind ≠ .csend ∨ t.pkts ≠ [] → Ends (.csendComplete p id) s d) ∧
      (∀ bs, t.kind = .mld → d.memRead (.xfer p.val id) t.ma t.len = (d1, .ok bs) →
        Ends (.mldComplete p id) s ((d1.updPav p.val (fun y => y.scatter t.desc
          (match Fmt.ofCode t.desc.fmt.toNat with | some f => f.bits | none => 8) bs)).xferDone p.val t)) ∧
      (t.kind = .mld → d.memRead (.xfer p.val id) t.ma t.len = (d1, .bad) → Ends (.mldComplete p id) s (d1.deferFault p.val id .memory)) ∧
      (t.kind = .mld → d.memRead (.xfer p.val id) t.ma t.len = (d1, .wait) → Ends (.mldComplete p id) s d1) ∧
      (∀ bs, t.kind = .mst → d.memWrite (.xfer p.val id) t.ma t.data = (d1, .ok bs) → Ends (.mstComplete p id) s (d1.xferDone p.val t)) ∧
      (t.kind = .mst → d.memWrite (.xfer p.val id) t.ma t.data = (d1, .wait) → Ends (.mstComplete p id) s d1) ∧
      (t.kind = .mst → d.memWrite (.xfer p.val id) t.ma t.data = (d1, .bad) → Ends (.mstComplete p id) s (d1.deferFault p.val id .memory)) ∧
      (t.kind = .csend → t.pkts = [] → Ends (.csendComplete p id) s (d.xferDone p.val t)) ∧
      (t.sent = true → t.ev = true → t.dstMod = d.lmod (d.allot x.allot) →
        Ends (.eventMessageAck p id) s (d.setPav p.val (x.dropXfer id))) ∧
      (t.sent = false ∨ t.ev = false ∨ t.dstMod ≠ d.lmod (d.allot x.allot) → Ends (.eventMessageAck p id) s d) ∧
      (code ∈ reports → Ends (.deferredFaultReport p id code) s (d.deferFault p.val id code))) ∧
    (let y := d1.pav p.val
     y.xfer? id = some t →
      (y.faulted = true → d1.deferFault p.val id code = d1.setPav p.val (y.dropXfer id)) ∧
      (y.faulted = false → y.block = none ∨ y.deferred.isSome = true → d1.deferFault p.val id code =
        d1.setPav p.val { y.dropXfer id with deferred := some (y.deferred.getD (code, t.pc, t.word)) }) ∧
      (y.faulted = false → y.block.isSome = true → y.deferred = none → d1.deferFault p.val id code =
        (d1.setPav p.val (y.dropXfer id)).takeFault p.val code t.pc t.word)) ∧
    (∀ (u : Xfer), let y := d1.pav p.val
      let e := d1.setPav p.val (y.dropXfer u.id)
      (u.ev = false ∨ y.share = none ∨ y.faulted = true → d1.xferDone p.val u = e) ∧
      (u.ev = true → y.share.isSome = true → y.faulted = false →
        ((y.evc u.evn).toNat + 1 < 2 ^ 32 → d1.xferDone p.val u = e.setPav p.val ((y.dropXfer u.id).setEvc u.evn (y.evc u.evn + 1))) ∧
        (2 ^ 32 ≤ (y.evc u.evn).toNat + 1 → d1.xferDone p.val u = e.takeFault p.val .eventOverflow y.pc22 y.word))) ∧
    (d.stalled = true → ∀ i ∈ [Instr.ewaitRelease p, .mfenceRelease p, .rsendLanding p id, .eventMessage p id, .messageRetry p id], Ends i s d) ∧
    (∀ n v, d.stalled = false → x.block = some (.ewait n v) →
      (v.toNat ≤ (x.evc (BitVec.ofNat 6 n)).toNat → Ends (.ewaitRelease p) s (d.setPav p.val
        (({ x with block := none } : Pav).setEvc (BitVec.ofNat 6 n) (x.evc (BitVec.ofNat 6 n) - v)).next)) ∧
      ((x.evc (BitVec.ofNat 6 n)).toNat < v.toNat → Ends (.ewaitRelease p) s d)) ∧
    (x.block = none ∨ x.block = some .fence → Ends (.ewaitRelease p) s d) ∧
    (d.stalled = false → x.block = some .fence → x.moved = true → Ends (.mfenceRelease p) s (d.setPav p.val ({ x with block := none } : Pav).next)) ∧
    (x.block ≠ some .fence ∨ x.moved = false → Ends (.mfenceRelease p) s d)

/-- A message of one Pavilion to a Pavilion of this module, none to it ahead. While their allotment is CLEARING it is refused with retry. RSEND_LANDING, or MESSAGE_RETRY of data not landed, places the bytes in the bed of a
destination that runs a share of the same group, when its landing ordinal is above the last that landed from that source, and otherwise leaves
the destination as it is; the transfer then waits with its event, or leaves the list. EVENT_MESSAGE, or MESSAGE_RETRY after the data, adds COUNT to the
counter EVN of a destination that runs a share of the same group, when the message's ordinal is above the last counted from that source, and
otherwise leaves the destination as it is; the message is then marked sent. -/
def Obligations.LocalMessages : Prop :=
  ∀ (s : State) (p : Pv) (id q : Nat) (t : Xfer) (i : Instr),
    let d := s.dev
    let x := d.pav p.val
    let y := d.pav q
    let mark := y.srcMark d.moduleId (x.logical.getD 0)
    let same := ∃ sh, y.share = some sh ∧ sh.group = x.group
    x.xfer? id = some t → t.sent = false → t.dstMod = d.lmod (d.allot x.allot) → d.pavOf x.allot t.dstPav = some q →
    x.evAhead t = false → x.landAhead t = false → x.retryAhead t = false → d.stalled = false →
    ((d.allot x.allot).st = .clearing →
      (t.kind = .rsend → t.landed = false → i = .rsendLanding p id ∨ i = .messageRetry p id) →
      (t.kind = .esig ∨ t.kind = .rsend ∧ t.ev = true ∧ t.landed = true → i = .eventMessage p id ∨ i = .messageRetry p id) →
      (t.kind = .esig ∨ t.kind = .rsend ∧ (t.landed = false ∨ t.ev = true)) →
      Ends i s (d.updPav p.val (fun x => x.updXfer id (fun t => { t with retried := true })))) ∧
    ((d.allot x.allot).st ≠ .clearing → t.kind = .rsend → t.landed = false → i = .rsendLanding p id ∨ i = .messageRetry p id →
      t.bedAddr.toNat + t.data.length ≤ bedSize → y.hitsCode t.bedAddr.toNat (t.bedAddr.toNat + t.data.length : Nat) = false →
      EndsIn i s (fun e =>
        (same → mark.landOrd < t.landOrd →
          (e.pav q).bedRead t.bedAddr.toNat t.data.length = t.data ∧
          (∀ a, (a < t.bedAddr.toNat ∨ t.bedAddr.toNat + t.data.length ≤ a) → (e.pav q).bedRead a 1 = y.bedRead a 1)) ∧
        (¬ same ∨ t.landOrd ≤ mark.landOrd → (e.pav q).bed = y.bed ∧ (q ≠ p.val → e.pav q = y)) ∧
        (e.pav p.val).xfer? id = (if t.ev then some { t with landed := true } else none) ∧
        (e.pav q).s = y.s ∧ (e.pav q).ev = y.ev ∧ (q ≠ p.val → (e.pav p.val).bed = x.bed) ∧ ∀ r, r ≠ p.val → r ≠ q → e.pav r = d.pav r)) ∧
    ((d.allot x.allot).st ≠ .clearing → (t.kind = .esig ∧ (i = .eventMessage p id ∨ i = .messageRetry p id)) ∨
        (t.kind = .rsend ∧ t.ev = true ∧ t.landed = true ∧ (i = .eventMessage p id ∨ i = .messageRetry p id)) →
      same → (mark.evOrd < t.ord → mark.evOrd = 0 → (y.srcs.filter (fun j => j.evOrd != 0)).length < 256) →
      (y.evc t.evn).toNat + t.count.toNat < 2 ^ 32 →
      EndsIn i s (fun e =>
        (mark.evOrd < t.ord → (e.pav q).evc t.evn = y.evc t.evn + t.count) ∧
        (t.ord ≤ mark.evOrd → (e.pav q).ev = y.ev ∧ (q ≠ p.val → e.pav q = y)) ∧
        (∀ k, k ≠ t.evn → (e.pav q).evc k = y.evc k) ∧ (e.pav q).bed = y.bed ∧ (e.pav q).s = y.s ∧
        (e.pav p.val).xfer? id = some { t with sent := true } ∧ ∀ r, r ≠ p.val → r ≠ q → e.pav r = d.pav r))

/-- SHARE_START of a share that waits for this Pavilion and has its turn, whose code image and arguments can be read: the share starts with the steward's
state of Table 3-2: scalar, descriptor and vector registers, IBASE and flags 0, both slots empty, the program counter at the code image; the image and then
the arguments stand in the bed, and the counters are 0 unless events of its group were held for it. While a read waits the share waits; where the code image or the
arguments lie outside the allotment or cannot be read, the descriptor's shares stop and it completes with MEMORY_ERROR. How shares end. END of a ready steward blocks it until its transfers are done; SHARE_END then frees the Pavilion and gives the descriptor the share's flags
and energy; SHARE_LIMIT of a running share beyond its limit, and ILLEGAL_INSTRUCTION with a word that decodes to none, stop it with their codes, while a
word that decodes is the instruction's command; PROGRAM_FAULT_STOP stops the descriptor's other shares and completes it with the status kept;
IDLE_HARDWARE_CHECK records the fault and withdraws the Pavilion. A hardware fault of a share that has received nothing from another Pavilion, where no share of its descriptor has reported a program fault: the Pavilion is
withdrawn, its share waits to be replayed alone, and the descriptor stays accepted (R41). A free hot spare, if one is, takes its logical index; which spare is
taken stays open. Without one the index keeps the withdrawn Pavilion and an operator event is sent (R42, R43). -/
def Obligations.ShareLife : Prop :=
  (∀ (s : State) (p : Pv) (q : Qx) (e : Exec) (l : Nat) (cs args : Bytes),
    let d := s.dev
    let x := d.pav p.val
    let a := d.qAllot q.val
    let codeLen := e.f 0x38 0 32
    let argsLen := e.f 0x3C 0 32
    let issue := fun (d : Dev) (part src len : Nat) => match d.plotMA a (BitVec.ofNat 64 src) len with
      | some ma => if len = 0 then d else d.issueRead (.start p.val q.val e.seq part) ma len
      | none => d
    let d2 := issue (issue d 0 (e.f 0x20 0 64) codeLen) 1 (e.f 0x28 0 64) argsLen
    let none_ := fun (src len : Nat) => d.plotMA a (BitVec.ofNat 64 src) len = none
    let gives := fun (part src len : Nat) (r : RdRes) => (len = 0 ∧ r = .ok []) ∨ (len ≠ 0 ∧ none_ src len ∧ r = .bad) ∨
      (len ≠ 0 ∧ ¬ none_ src len ∧ d2.mem.resultOf (.start p.val q.val e.seq part) = r)
    let code := gives 0 (e.f 0x20 0 64) codeLen
    let args_ := gives 1 (e.f 0x28 0 64) argsLen
    let left := d2.usersGone (fun u => match u with | .start k _ _ _ => k == p.val | .xfer k _ => k == p.val | _ => false)
    d.exec? q.val e.seq = some e → x.logical = some l → e.started = true → e.complete = false → e.typ = 1 →
    e.shares.contains (l, .waiting) = true → x.allot = a → a ≠ 0 → d.pavOf a l = some p.val → x.share = none → x.withdrawn = false →
    x.clearing = false → e.gangPh = .none → e.faultRank = none → (d.queue q.val).sharesRun = true → d.shareTurn a l e.ord = true →
    d.computeOn = true → d.quiesced = false →
    (code .wait ∨ args_ .wait → Ends (.shareStart p q e.seq) s d2) ∧
    (code (.ok cs) → args_ (.ok args) →
      EndsIn (.shareStart p q e.seq) s (fun r =>
        let y := r.pav p.val
        y.share = some {
          q := q.val, seq := e.seq, rank := (e.shares.map Prod.fst).idxOf l, nshare := e.shares.length, lpav := l,
          args := BitVec.ofNat 22 (e.f 0x34 0 22), code := BitVec.ofNat 22 (e.f 0x30 0 22), codeLen := codeLen, argsLen := argsLen,
          seed := BitVec.ofNat 64 (e.f 0x40 0 64), lmod := d.lmod (d.allot a), nmod := (d.allot a).nmod, group := e.group } ∧
        y.pc = (BitVec.ofNat 22 (e.f 0x30 0 22)).setWidth 64 ∧ y.s = [] ∧ y.d = [] ∧ y.v = [] ∧ y.ibase = 0 ∧ y.slot0 = none ∧ y.slot1 = none ∧
        y.flags = 0 ∧ y.bed = (((d2.pav p.val).bedWrite (e.f 0x30 0 22) cs).bedWrite (e.f 0x34 0 22) args).bed ∧
        ((∀ m ∈ x.pend, m.group ≠ e.group) → y.ev = [] ∧ y.block = none ∧ y.faulted = false))) ∧
    (¬ code .wait → ¬ args_ .wait → code .bad ∨ args_ .bad →
      Ends (.shareStart p q e.seq) s ((left.stopShares q.val e.seq).finish q.val e.seq 0x50))) ∧
  (∀ (s : State) (p : Pv) (w : Sw) (q : Qx) (seq energy : Nat) (word : Word64) (code : FaultCode) (e : Exec) (sh : Share) (f : ScalarF),
    let d := s.dev
    let x := d.pav p.val
    (Ready d w.val → f.rsv = 0 → Ends (.endShare w f) s
      ((d.bedCorrected w.val w.ce).setPav w.val { d.pav w.val with block := some .ending })) ∧
    (x.share = some sh → x.block = some .ending → x.xfers = [] → x.faulted = false → x.stopped = false →
      Ends (.shareEnd p energy) s (((d.setPav p.val x.dropShare).updExec sh.q sh.seq (fun e =>
        { e.setShare sh.lpav .ended with flags := e.flags ||| x.flags, energy := e.energy + energy, rxOther := e.rxOther || x.rxOther })).sharesDone
          sh.q sh.seq)) ∧
    (d.running p.val = true → d.fld (Reg.PAV_SHARE_LIMIT p.val) F.PAV_SHARE_LIMIT_LIMIT ≠ 0 →
      1000 * d.fld (Reg.PAV_SHARE_LIMIT p.val) F.PAV_SHARE_LIMIT_LIMIT < x.runUs →
      EndsIn (.shareLimit p) s (fun r => d.stopped r p.val 0x09 x.word)) ∧
    (d.exec? q.val seq = some e → e.faultRank.isSome = true → e.complete = false →
      Ends (.programFaultStop q seq) s ((d.stopShares q.val seq).updExec q.val seq (fun e =>
        Exec.finish { e with shares := e.shares.map (fun k => (k.1, ShareSt.stopped)) } e.status))) ∧
    (Ready d w.val → decodeK word = none → EndsIn (.illegalInstruction w word) s (fun r => d.stopped r w.val 0x01 word)) ∧
    (∀ k i, decodeK word = some k → kernelCmd w 0 k = some i → exec (.illegalInstruction w word) s = exec i s) ∧
    (isHardware code = true → x.share = none → x.withdrawn = false →
      Ends (.idleHardwareCheck p code) s ((((((d.setFld (Reg.PAV_FAULT p.val) F.PAV_FAULT_PC 0).setFld (Reg.PAV_FAULT p.val)
        F.PAV_FAULT_CODE (faultNum code)).raise (Reg.PAV_FAULT_EVT p.val)).fire 37 (p.val + 65536 * faultNum code)).withdraw p.val)))) ∧
  (∀ (s : State) (p : Pv) (code : FaultCode) (sh : Share) (e : Exec) (l : Nat),
    let d := s.dev
    let x := d.pav p.val
    isHardware code = true → x.share = some sh → x.rxSame = false → x.rxOther = false → x.spare = false → x.logical = some l →
    d.exec? sh.q sh.seq = some e → e.faultRank = none →
    EndsIn (.pavilionHardwareFault p code) s (fun r =>
      (r.pav p.val).withdrawn = true ∧ (r.pav p.val).share = none ∧
      (d.spares ≠ [] → (r.pav p.val).logical = none ∧ ∃ t ∈ d.spares, (r.pav t).logical = some l ∧ (r.pav t).allot = x.allot ∧
        (r.pav t).spare = false ∧ Tab.get none (r.allot x.allot).pavs l = some t) ∧
      (d.spares = [] → (r.pav p.val).logical = some l ∧ r.allots = d.allots ∧ r.outbox = d.outbox ++ [.operatorEvent 0x43 p.val]) ∧
      (∃ e', r.exec? sh.q sh.seq = some e' ∧ e'.replayed = true ∧ e'.complete = e.complete ∧
        e'.shares = e.shares.map (fun k => if k.1 = sh.lpav then (sh.lpav, .waiting) else k)) ∧
      r.mem = d.mem ∧ r.blks = d.blks))

/-- The governor: a grant sets the lease and its time; an expiry, once that time has passed, sets the floor cap; each sets the frequency and, unless the rail settles, the rail that goes with
it. RAIL_SETTLED of a settling rail leaves it at the floor and lets the steward issue. NEW_PAVILION_LEASE gives a newly bound Pavilion its first grant, by its
demand and what the others leave of the period's budget, the floor cap under a clamp; a higher one waits 10 µs after the latest lower one. Under a clamp, and while the rail settles, the frequency of any lease is the floor, 400 MHz;
otherwise it lies within 400 to 2,400 MHz in steps of 25. -/
def Obligations.GovernorLeases : Prop :=
  ∀ (s : State) (p : Pv) (grant : BitVec 12),
    let d := s.dev
    let x := d.pav p.val
    let f := fun n => d.leaseFreq p.val n
    let rail := fun n => if x.settling then x.rail else f n
    Ends (.leaseGrant p grant) s (d.setPav p.val
      { x with lease := grant.toNat, freq := f grant.toNat, rail := rail grant.toNat, leaseEnd := d.clock + 1000 * d.leaseTime, newLease := false }) ∧
    (x.leaseEnd ≤ d.clock → Ends (.leaseExpiry p) s (d.setPav p.val { x with lease := d.floorCap, freq := f d.floorCap, rail := rail d.floorCap, leaseEnd := 0 })) ∧
    (d.clock < x.leaseEnd → Ends (.leaseExpiry p) s d) ∧
    (x.newLease = true → d.activeCore.isSome = true →
      let l := d.limitOf p.val (d.orgPav p.val).tlim
      let d1 := d.updOrgPav p.val (fun y => { y with limit := l, demand := d.demandOf p.val l })
      let dm := d.demandOf p.val l
      let g := d1.firstGrant p.val dm
      let others := (((List.range 160).filter (· != p.val)).map d.enforced).sum
      (d.org.higher = [] → (∀ t, d.org.lowAt = some t → t + 10 ≤ d.clock) ∨ g ≤ x.lease → Ends (.newPavilionLease p) s (d1.setPav p.val
        { x with lease := g, freq := f g, rail := rail g, leaseEnd := d.clock + 1000 * d.leaseTime, newLease := false })) ∧
      (∀ t, d.org.lowAt = some t → d.clock < t + 10 → x.lease < g →
        EndsIn (.newPavilionLease p) s (fun r => r.pavs = d.pavs ∧ r.enforced p.val = g)) ∧
      (d.clamp = true → g = d.floorCap) ∧ (d.grantsHeld = false → others + x.lease ≤ d.org.budget → others + g ≤ d.org.budget)) ∧
    (x.settling = true → Ends (.railSettled p) s (d.setPav p.val { x with settling := false, rail := 400 })) ∧
    (∀ n, (d.clamp = true ∨ x.settling = true → f n = 400) ∧ 400 ≤ f n ∧ f n ≤ 2400 ∧ f n % 25 = 0)

/-! ### Cisterns (chapter 4) -/

/-- REDUCE that may start. Its checks passed and its blocks all ready to be armed, every block it names is ARMING with the REDUCE's group and parameters, its
ledgers, arrival map, count and flags clear, no other block changes, and the descriptor is started and not complete. A REDUCE that fails a check completes with
the check's status; one that meets a FAULTED block with DEVICE_FAULT, one that meets a block it may not arm with BAD_DESCRIPTOR, no block changed. The block commands, none of which acts while the Cisterns stall. ARMING_END makes an ARMING block ARMED. BLOCK_READOUT of a POSTING SUM block rounds its ledgers once and sends the result to every target of
another module. POST_LANDED of a local target without an event writes the block's data there and is done with the target once no write waits; of a remote target whose messages are
all acknowledged it is done with the target, and one whose post failed completes the REDUCE with the outcome's status; the last target makes the block POSTED.
LEDGER_ECC_ERROR counts corrected bits, or makes the block FAULTED and completes its uncommitted REDUCE with DEVICE_FAULT. COMMIT_PROBE_TIMER sends a probe for
every remote block that a complete descriptor still waits on. -/
def Obligations.CisternCommands : Prop :=
  (∀ (s : State) (q : Qx) (e : Exec),
    let d := s.dev
    let a := d.qAllot q.val
    let phys := fun i => (d.blkOf a (e.f 0x20 2 10 + i)).getD 0
    let nb := e.f 0x20 12 7
    let what := fun i => (d.blk (phys i)).armCase e.group q.val e.seq
    d.startable q.val e.seq 3 = some e →
    (∀ st, d.reduceBad a e = some st → Ends (.reduce q e.seq) s (d.finish q.val e.seq st)) ∧
    (d.reduceBad a e = none →
      ((∃ i, i < nb ∧ what i = .faulted) → Ends (.reduce q e.seq) s ((d.start q.val e.seq).finish q.val e.seq 0x7F)) ∧
      ((∀ i, i < nb → what i ≠ .faulted) → (∃ i, i < nb ∧ what i = .bad) →
        Ends (.reduce q e.seq) s ((d.start q.val e.seq).finish q.val e.seq 0x21)) ∧
      ((∀ i, i < nb → what i = .arm) → (∀ i j, i < nb → j < nb → phys i = phys j → i = j) →
        EndsIn (.reduce q e.seq) s (fun r =>
          (∀ i, i < nb → let b := r.blk (phys i)
            b.st = .arming ∧ b.group = e.group ∧ b.params = some (e.armParams q.val i) ∧ b.ledgers = [] ∧ b.arrived = [] ∧ b.count = 0 ∧
            b.flags = 0 ∧ b.allot = (d.blk (phys i)).allot) ∧
          (∀ b, (∀ i, i < nb → b ≠ phys i) → r.blk b = d.blk b) ∧ r.mem = d.mem ∧
          ∃ e', r.exec? q.val e.seq = some e' ∧ e'.started = true ∧ e'.complete = e.complete)))) ∧
  (∀ (s : State) (b : Bx) (q : Qx) (corrected seq : Nat) (pr : ArmParams) (e : Exec) (tgt : Fin 4) (t : Target) (o : Outcome8),
    let d := s.dev
    let x := d.blk b.val
    let ecc := fun n => d.bump (Reg.CIS_LEDGER_ECC (b.val / 64)) F.CIS_LEDGER_ECC_CORRECTED n
    (d.stalled = true → ∀ i ∈ [Instr.armingEnd b, .blockReadout b corrected, .postLanded b tgt o], Ends i s d) ∧
    (d.stalled = false → x.st = .arming → Ends (.armingEnd b) s (d.blkState b.val .armed)) ∧
    (d.stalled = false → x.st = .posting → x.params = some pr → pr.gather = false → x.out = [] →
      let y : CisBlk := { x with out := (x.readout pr).1, flags := x.flags ||| (x.readout pr).2 }
      Ends (.blockReadout b corrected) s ((pr.targets.zip (List.range pr.targets.length)).foldl (fun r k =>
        if r.isLocal x.allot k.1 then r else r.postPieces x.allot b.val k.2 k.1 (y.pieces pr) true) ((ecc corrected).setBlk b.val y))) ∧
    (d.stalled = false → x.st = .posting → x.params = some pr → pr.targets[tgt.val]? = some t → x.postLeft.contains tgt.val = true → pr.gather = true ∨ x.out ≠ [] →
      (d.isLocal x.allot t = true → (d.allot x.allot).st = .clearing → Ends (.postLanded b tgt o) s d) ∧
      (∀ d1, d.isLocal x.allot t = true → (d.allot x.allot).st ≠ .clearing → t.ev = false → pr.gather = false → x.dataDone.contains tgt.val = false →
        ((x.pieces pr).zip (List.range 2)).foldl (fun (r : Dev × Nat) k => if r.2 ≠ 0 then r else r.1.postLocal x.allot b.val tgt.val k.2 t k.1.1 k.1.2) (d, 0) = (d1, 0) →
        (d1.postLands b.val tgt.val = .wait → Ends (.postLanded b tgt o) s d1) ∧
        (d1.postLands b.val tgt.val = .bad → Ends (.postLanded b tgt o) s
          (((d1.updBlk b.val (fun y => { y with dataDone := tgt.val :: y.dataDone })).postFails b.val 0x50).postDone b.val tgt.val)) ∧
        (d1.postLands b.val tgt.val = .ok [] → Ends (.postLanded b tgt o) s ((d1.updBlk b.val (fun y => { y with dataDone := tgt.val :: y.dataDone })).postDone b.val tgt.val))) ∧
      (d.isLocal x.allot t = false →
        (postStatus o = none → o ≠ .retry → (∀ k ∈ x.evLeft, k.1 ≠ tgt.val) → Tab.get 0 x.sendOut tgt.val = 0 →
          Ends (.postLanded b tgt o) s (d.postDone b.val tgt.val)) ∧
        (∀ st, postStatus o = some st → Ends (.postLanded b tgt o) s ((d.postFails b.val st).postDone b.val tgt.val)))) ∧
    (x.params = some pr → x.postLeft = [tgt.val] → ((d.postDone b.val tgt.val).blk b.val).st = .posted) ∧
    Ends (.ledgerEccError ⟨b, .corrected corrected⟩) s (ecc corrected) ∧
    (x.st ≠ .clearing → x.st ≠ .committed → x.params = some pr →
      Ends (.ledgerEccError ⟨b, .uncorrectable⟩) s (((d.blkState b.val .faulted).fire 45 b.val).finishReduce pr.q pr.seq 0x7F)) ∧
    (d.exec? q.val seq = some e → e.complete = true →
      let al := d.allot (d.qAllot q.val)
      Ends (.commitProbeTimer q seq) s ((e.contribs.filter (fun k => !k.done && k.module != d.lmod al)).foldl
        (fun d k => d.control (d.modId al k.module) al.token 1 0 k.blk q.val k.group seq) d)))

/-- CONTRIBUTION_PACKET, or CONTRIBUTION_RETRY of a kept packet, of this module at an ARMED SUM block that has not had its part yet, below EXPECT: element j is
added to ledger j exactly, the flags of the inputs are added, the count rises by one and makes the block POSTING when it reaches EXPECT, the packet leaves
the CSEND, and the descriptor of the CSEND, accepted on a queue of the allotment, has contributed to the block; other blocks, Pavilions and module memory are
unchanged. How a block decides a packet, by the first matching row of Table 4-6: refused with ACCESS for another allotment or a CLEARING block; refused with retry while
the block is IDLE, ARMING or of an older group; discarded when the packet's group is older or the block collects no more; refused with ACCESS for a part outside
EXPECT or of an earlier descriptor of the REDUCE's queue; refused for its format by a GATHER block; discarded and counted once as a duplicate. The equations give
the whole block of the module: a refused packet changes a count of refusals at most, and a discarded one CIS_DUP_EVT at most, so no ledger, no count, no
target and no flag. A new packet at a GATHER block of one target on this module writes its payload there and is counted. -/
def Obligations.PacketArrivals : Prop :=
  (∀ (s : State) (p : Pv) (id k b : Nat) (t : Xfer) (pk : Packet) (pr : ArmParams) (i : Instr),
    let d := s.dev
    let x := d.pav p.val
    let y := d.blk b
    let n := (pk.part - pr.partBase - BitVec.ofNat 32 pr.i).toNat
    i = .contributionPacket p id k ∨ i = .contributionRetry p id k →
    x.xfer? id = some t → t.kind = .csend → t.pkts.find? (fun e => e.1 == k) = some (k, pk) → t.dstMod = d.lmod (d.allot x.allot) →
    d.blkOf x.allot pk.blk = some b → x.allot ≠ 0 → y.allot = x.allot → y.st = .armed → y.params = some pr → pk.group = y.group →
    d.stalled = false → (d.allot x.allot).st ≠ .clearing → pr.gather = false → ¬ (pk.queue = pr.q ∧ pk.srcModule = d.moduleId ∧ pk.seq < pr.seq) → n < pr.expect → Tab.get false y.arrived n = false →
    EndsIn i s (fun r =>
      (r.blk b).count = y.count + 1 ∧ Tab.get false (r.blk b).arrived n = true ∧
      (r.blk b).st = (if y.count + 1 = pr.expect then .posting else .armed) ∧
      (r.blk b).flags = y.flags ||| ((List.range 64).map (fun j => (pk.value j).2)).foldl (· ||| ·) 0 ∧
      (∀ j, j < 64 →
        let old := Tab.get ⟨0, false⟩ y.ledgers j
        Tab.get ⟨0, false⟩ (r.blk b).ledgers j =
          match (pk.value j).1 with
          | .nan => { old with nan := true }
          | .num neg mag => { old with v := old.v + (Val.num neg mag).int }) ∧
      (∀ c, c ≠ b → r.blk c = d.blk c) ∧ (∀ o, o ≠ p.val → r.pav o = d.pav o) ∧ r.mem = d.mem ∧
      (∃ u, (r.pav p.val).xfer? id = some u ∧ u.pkts = t.pkts.filter (fun e => e.1 != k)) ∧
      (∀ e, d.qAllot pk.queue = x.allot → d.exec? pk.queue pk.seq = some e → e.contribs = [] →
        ∃ e', r.exec? pk.queue pk.seq = some e' ∧ e'.contribs = [⟨t.dstMod, pk.blk, some b, pk.group, false⟩]))) ∧
  (∀ (d d1 : Dev) (a b : Nat) (k : Packet) (pr : ArmParams) (t : Target),
    let x := d.blk b
    let n := (k.part - pr.partBase - BitVec.ofNat 32 pr.i).toNat
    let y : CisBlk := { x with arrived := Tab.set false x.arrived n true, count := x.count + 1 }
    (∀ d2, d.decidePacket a b k = (d2, .discarded) → d2.blks = d.blks ∧ d2.pavs = d.pavs ∧ d2.qs = d.qs ∧ d2.mem = d.mem) ∧
    (a = 0 ∨ x.allot ≠ a ∨ x.st = .clearing → d.decidePacket a b k = (d, .access)) ∧
    (a ≠ 0 → x.allot = a → x.st ≠ .clearing →
      ((x.st = .idle ∨ groupNewer k.group x.group = true ∨ x.st = .arming →
        d.decidePacket a b k = (d.bump (Reg.CIS_REFUSED (b / 64)) F.CIS_REFUSED_RETRIES 1, .retry)) ∧
      (x.st ≠ .idle → x.st ≠ .arming → groupNewer k.group x.group = false →
        groupOlder k.group x.group = true ∨ x.st = .posting ∨ x.st = .posted ∨ x.st = .committed ∨ x.st = .faulted →
        d.decidePacket a b k = (d, .discarded)) ∧
      (x.st = .armed → x.params = some pr → k.group = x.group →
        (k.queue = pr.q ∧ k.srcModule = d.moduleId ∧ k.seq < pr.seq → d.decidePacket a b k = (d, .access)) ∧
        (¬ (k.queue = pr.q ∧ k.srcModule = d.moduleId ∧ k.seq < pr.seq) →
          (pr.expect ≤ n → d.decidePacket a b k = (d, .access)) ∧
          (n < pr.expect → (pr.gather = true ∧ (k.kind ≠ 0 ∨ k.fmtA ≠ pr.fmt ∨ k.scaled = true) → d.decidePacket a b k = (d, .format)) ∧
            (pr.gather = false ∨ (k.kind = 0 ∧ k.fmtA = pr.fmt ∧ k.scaled = false) → Tab.get false x.arrived n = true →
              d.decidePacket a b k = (d.raise (Reg.CIS_DUP_EVT (b / 64)), .discarded)) ∧
            (pr.gather = true → k.kind = 0 → k.fmtA = pr.fmt → k.scaled = false → Tab.get false x.arrived n = false → pr.targets = [t] →
              d.isLocal a t = true →
              (d.setBlk b y).postLocal a b 0 n t ((pr.i * pr.expect + n) * k.payload.length) k.payload = (d1, 0) → d1.postLands b 0 ≠ .bad →
              d.decidePacket a b k = (if x.count + 1 = pr.expect then
                (d1.updBlk b (fun z => { z with postLeft := [0] })).blkState b .posting else d1, .landed))))))))

/-! ### Memory (chapter 5) -/

/-- The stripe code: a codeword of any 16 data bytes decodes to itself with no error found, and corrects any one wrong symbol. -/
def Obligations.StripeCodeCorrects : Prop :=
  ∀ (data : List Nat), data.length = 16 → (∀ b ∈ data, b < 256) →
    let w := rsEncode data
    w.length = 20 ∧ w.take 16 = data ∧ rsDecode [] w = some (w, []) ∧
    (∀ i v, i < 20 → v < 256 → v ≠ w.getD i 0 → rsDecode [] (w.set i v) = some (w, [i]))

/-- MEMORY_WRITE of a whole stripe of a clean granule of a plot that is not lost, where nothing waits, the host holds no line of it and all packages are GOOD, and
then MEMORY_READ of it: the write lands in the bursts of that stripe alone and takes the stripe out of the poison table, and the read returns the bytes
written. -/
def Obligations.MemoryReadAfterWrite : Prop :=
  ∀ (s : State) (k : Nat) (bs : Bytes) (errs : List SymErr),
    let d := s.dev
    let ma := 512 * k
    bs.length = 512 → (∀ p, p < 20 → (d.mem.pkg p).st = .good) → d.maExists ma 512 = true → d.blocked ma 512 = false →
    d.heldLines ma 512 = [] → d.mem.isLost (plotAt ma) = false → d.mem.owed (granuleOf ma) = false →
    EndsIn (.memoryWrite ma bs errs) s (fun r =>
      r.mem.isPoison k = false ∧ (∀ a, (a < 640 * k ∨ 640 * k + 640 ≤ a) → Tab.get 0 r.mem.raw a = Tab.get 0 d.mem.raw a) ∧
      r.mem.waiting = d.mem.waiting ∧ r.pavs = d.pavs ∧ r.regs = d.regs ∧
      Ends (.memoryRead ma 512 []) { s with dev := r } (r.emit (.memData ma (some bs))))

/-- Owed granules, where the host holds no line of the range. MEMORY_READ of owed granules of plots that are not lost returns zeros and changes nothing else,
whatever the packages and the poison table hold; one of a lost plot is uncorrectable and sets MEM_UE_EVT; a read that an owe, a fill or an earlier access holds up waits.
MEMORY_WRITE to an owed granule of a plot that is not lost starts its fill and waits; FILL_COMPLETE ends the fill, after which the granule is not owed and the write
that waited for it waits no more, or, where the plot was lost meanwhile, is dropped and its user told. A read of a user inside the module is performed or waits likewise. The phases of owing a plot. Drain ends once no fill of the plot and no access from before the request is left; back-invalidate lands the lines that the host
writes back, here none or one of a clean granule, and leaves the host no line of the plot; the set phase leaves every granule of the plot owed, none of its
stripes poisoned and the plot not lost, here with no access that waits; of two owes of a plot the second follows the first. -/
def Obligations.OwedGranules : Prop :=
  (∀ (s : State) (g ma len : Nat) (errs : List SymErr) (bs : Bytes),
    let d := s.dev
    ((∀ k, k < len → d.mem.owed ((ma + k) / 65536) = true ∧ d.mem.isLost (plotAt (ma + k)) = false) →
      d.performRead errs ma len = (d, .ok (List.replicate len 0))) ∧
    ((∀ k, k < len → d.mem.isLost (plotAt (ma + k)) = true) → 0 < len → (d.performRead errs ma len).2 = .bad) ∧
    (d.maExists ma len = true → d.heldLines ma len = [] →
      (d.blocked ma len = false → (∀ k, k < len → d.mem.owed ((ma + k) / 65536) = true ∧ d.mem.isLost (plotAt (ma + k)) = false) →
        Ends (.memoryRead ma len errs) s (d.emit (.memData ma (some (List.replicate len 0))))) ∧
      (d.blocked ma len = false → 0 < len → (∀ k, k < len → d.mem.isLost (plotAt (ma + k)) = true) →
        EndsIn (.memoryRead ma len errs) s (fun r => r.outbox = d.outbox ++ [.memData ma none] ∧ r.mem = d.mem ∧ r.fld Reg.MEM_UE_EVT ⟨0, 1⟩ = 1)) ∧
      (d.blocked ma len = true → Ends (.memoryRead ma len errs) s
        { d with mem := { d.mem with waiting := d.mem.waiting ++ [.read ma len .port (d.mem.owesIn ma len)] } })) ∧
    (∀ (u : MemUser) (e : Dev) (r : RdRes), d.mem.begun u = false → u ≠ .host → u ≠ .port → u ≠ .jtag → u ≠ .line →
      (d.blocked ma len = false → d.tryRead [] ma len u = (e, r) → r ≠ .wait → d.memRead u ma len = (e, r)) ∧
      (d.blocked ma len = true → d.memRead u ma len = (d.issueRead u ma len, .wait) ∧
        (d.issueRead u ma len).mem.waiting = d.mem.waiting ++ [.read ma len u (d.mem.owesIn ma len)])) ∧
    (bs ≠ [] → ma / 65536 = g → (ma + bs.length - 1) / 65536 = g → d.maExists ma bs.length = true → d.heldLines ma bs.length = [] →
      d.blocked ma bs.length = false → d.mem.isLost (plotAt ma) = false → d.mem.owed g = true →
      EndsIn (.memoryWrite ma bs errs) s (fun r => r.mem = { d.mem with
          filling := d.mem.filling ++ [g], waiting := d.mem.waiting ++ [.write ma bs false .port 0] } ∧ r.regs = d.regs ∧ r.pavs = d.pavs)) ∧
    (d.stalled = false → d.mem.filling = [g] → bs ≠ [] → ma / 65536 = g → (ma + bs.length - 1) / 65536 = g → d.mem.isLost (g / 16384) = true → ∀ p id,
      d.mem.waiting = [.write ma bs false (.xfer p id) 0] → EndsIn (.fillComplete g) s (fun r => r.mem.waiting = [] ∧ (MemUser.xfer p id, RdRes.bad) ∈ r.mem.results ∧ r.mem.raw = d.mem.raw)) ∧
    (d.stalled = false → d.mem.filling.contains g = true → d.mem.isLost (g / 16384) = false →
      (d.mem.waiting = [] → EndsIn (.fillComplete g) s (fun r => r.mem.owed g = false ∧ r.mem.filling.contains g = false ∧
        (∀ h, h ≠ g → r.mem.owed h = d.mem.owed h) ∧ r.pavs = d.pavs ∧ r.regs = d.regs)) ∧
      (∀ u, d.mem.waiting = [.write ma bs false u 0] → bs ≠ [] → ma / 65536 = g → (ma + bs.length - 1) / 65536 = g → d.mem.filling = [g] →
        EndsIn (.fillComplete g) s (fun r => r.mem.owed g = false ∧ r.mem.filling = [] ∧ r.mem.waiting = [] ∧ r.mem.owing = d.mem.owing)))) ∧
  (∀ (s : State) (plot : Nat) (w : LineWb),
    let d := s.dev
    let m := d.mem
    let gone := fun (r : Dev) => ∀ e ∈ r.hp.held, e.1 * 64 < plot * 2 ^ 30 ∨ (plot + 1) * 2 ^ 30 ≤ e.1 * 64
    (m.oweOf plot = some .drain → (∀ g ∈ m.filling, g / 16384 ≠ plot) →
      (∀ a ∈ m.waiting, a.place.2.2 = 0 → a.meets (plot * 2 ^ 30) (2 ^ 30) = false) →
      Ends (.oweDrainEnd plot) s { d with mem := m.owePhase plot .backInv }) ∧
    (m.oweOf plot = some .backInv →
      EndsIn (.oweBackInvalidateEnd plot []) s (fun r => r.mem = m.owePhase plot .set ∧ gone r ∧ r.regs = d.regs ∧ r.pavs = d.pavs) ∧
      (plotAt w.ma = plot → m.isLost plot = false → m.owed (granuleOf w.ma) = false →
        EndsIn (.oweBackInvalidateEnd plot [w]) s (fun r =>
          r.mem = ((d.performWrite [] w.ma w.data false).1.mem.owePhase plot .set) ∧ gone r ∧ r.pavs = d.pavs))) ∧
    (m.oweOf plot = some .set → m.waiting = [] →
      EndsIn (.oweSetEnd plot) s (fun r =>
        (∀ i, i < 16384 → r.mem.owed (16384 * plot + i) = true) ∧ (∀ i, i < 2097152 → r.mem.isPoison (2097152 * plot + i) = false) ∧
        r.mem.isLost plot = false ∧ r.mem.owing = (m.oweEnds plot).owing ∧ ((m.owing.filter (fun e => e.1 == plot)).length = 1 → r.mem.isOwing plot = false) ∧ r.mem.raw = m.raw ∧
        (∀ g, g / 16384 ≠ plot → r.mem.owed g = m.owed g) ∧ r.regs = d.regs ∧ r.pavs = d.pavs)))

/-- The controller's own work. The clearer zeroes the next owed granule from its cursor, which wraps; the scrubber reads the next clean stripe from its position, which
wraps, and corrects what it can or reports it; a package that fails is FAILED with reason 4 unless it is RETIRED; a FAILED one that trains while the memory branch is
powered is REBUILDING; a rebuild rewrites the next stripe, stays at one that does not decode, and past the last leaves the package GOOD; RETIREMENT_RECORD
notes that flash holds the retirement; a map word that cannot be corrected owes its granules and loses its plot. RETIRE_PACKAGE with GO = 1 shows its result: the
first of the reasons against it, or the package is RETIRED with reason 3. CORRECTION_WINDOW_END starts every package's count afresh. With automatic retirement off, or no package above the threshold, and fewer than two erased, nothing
else changes; with one package above it and none erased, that package is RETIRED with reason 2; with two erased, HEALTH reads 3 and the operator is told where
a third is above the threshold, and 2 where none is. MR4_TEMPERATURE_READ keeps a package's reading. -/
def Obligations.MemoryUpkeep : Prop :=
  (∀ (s : State) (g t k : Nat) (pkg : Fin 20) (v : Word32) (data : Bytes) (fixed : List Nat) (errs : List SymErr),
    let d := s.dev
    let m := d.mem
    let x := m.pkg pkg.val
    let set := fun (y : Pkg) => (m.setPkg pkg.val y)
    let pos := (d.reg Reg.MEM_SCRUB_POS).toNat
    let moved := d.setReg Reg.MEM_SCRUB_POS (BitVec.ofNat 32 (if t + 1 < d.nplots * 2097152 then t + 1 else 0))
    let look := m.nextOwed (d.nplots * 16384) (m.clean.length + m.filling.length + m.lost.length + m.owing.length + 1)
    (d.stalled = false → look m.clearCursor = some g ∨ look m.clearCursor = none ∧ look 0 = some g →
      Ends .clearerGranule s { d with mem := { m.zeroGranule g with clearCursor := g + 1 } }) ∧
    (d.fld Reg.MEM_CTRL F.MEM_CTRL_SCRUB_EN = 1 → m.nextScrub pos = some t ∨ m.nextScrub pos = none ∧ m.nextScrub 0 = some t →
      d.stalled = false → m.isOwing (plotAt (512 * t)) = false →
      (m.decode errs t = some (data, fixed) → Ends (.scrubStripe errs) s
        (let d1 := moved.countFixed t fixed
         if fixed = [] then d1 else { d1 with mem := d1.mem.encode t data })) ∧
      (m.decode errs t = none → Ends (.scrubStripe errs) s (moved.reportUE t))) ∧
    (x.st ≠ .retired → Ends (.packageFailure pkg) s
      (let m1 := set { x with st := .failed, reason := 4, cursor := 0 }
       (d.setMem (if x.st.erased then m1 else m1.freshHealth)).fire 40 pkg.val)) ∧
    (x.st = .failed → (d.sup.memory = true → Ends (.packageRetrainRetry pkg true) s { d with mem := set { x with st := .rebuilding, cursor := 0 } }) ∧
      Ends (.packageRetrainRetry pkg false) s d) ∧
    (x.st = .rebuilding → m.nextClean x.cursor = none →
      Ends (.rebuildStripe pkg) s (d.setMem (set { x with st := .good, reason := 0, cursor := 0 }).freshHealth)) ∧
    (x.st = .rebuilding → m.nextClean x.cursor = some t → d.stalled = false → m.isOwing (plotAt (512 * t)) = false →
      (m.decode [] t = some (data, fixed) → EndsIn (.rebuildStripe pkg) s (fun r => r.mem.raw = (m.encode t data).raw ∧
        (r.mem.pkg pkg.val).cursor = t + 1 ∧ (r.mem.pkg pkg.val).st = .rebuilding ∧ (fixed = [] → r.regs = d.regs))) ∧
      (m.decode [] t = none → Ends (.rebuildStripe pkg) s (d.reportUE t))) ∧
    (x.st = .retired → Ends (.retirementRecord pkg) s { d with mem := set { x with recorded := true } }) ∧
    (k < d.nplots * 256 → EndsIn (.mapWordUncorrectable k) s (fun r => r.mem.isLost (k / 256) = true ∧
      (∀ i, i < 64 → r.mem.owed (64 * k + i) = true) ∧ (∀ h, h / 64 ≠ k → r.mem.owed h = m.owed h) ∧
      (∀ i, i < 8192 → r.mem.isPoison (8192 * k + i) = false) ∧ r.mem.raw = m.raw)) ∧
    (F.MEM_RETIRE_CMD_GO.get v = 1 →
      EndsIn (.retirePackage v) s (fun r =>
        let n := F.MEM_RETIRE_CMD_PKG.get v
        let res := r.fld Reg.MEM_RETIRE_STS F.MEM_RETIRE_STS_RESULT
        r.fld Reg.MEM_RETIRE_STS F.MEM_RETIRE_STS_PKG = n ∧
        (20 ≤ n → res = 2 ∧ r.mem = m) ∧
        (n < 20 → (m.pkg n).st = .retired → res = 3 ∧ r.mem = m) ∧
        (n < 20 → (m.pkg n).st ≠ .retired → 2 ≤ m.nErased → res = 2 ∧ r.mem = m) ∧
        (n < 20 → (m.pkg n).st ≠ .retired → m.nErased < 2 → res = 1 ∧ (r.mem.pkg n).st = .retired ∧ (r.mem.pkg n).reason = 3)))) ∧
  (∀ (s : State) (k : Fin 20) (temp : BitVec 16),
    let d := s.dev
    let m := d.mem
    Ends (.mr4TemperatureRead k temp) s { d with org := { d.org with pkgTemp := Tab.set 0 d.org.pkgTemp k.val temp } } ∧
    (d.overThresh = [] ∨ d.fld Reg.MEM_CTRL F.MEM_CTRL_AUTO_RETIRE = 0 → m.nErased < 2 →
      EndsIn .correctionWindowEnd s (fun r => (∀ j, j < 20 → r.mem.pkg j = { m.pkg j with window := 0 }) ∧ r.mem.raw = m.raw ∧
        r.mem.health = m.health ∧ r.regs = d.regs)) ∧
    (d.overThresh = [k.val] → m.nErased = 0 → d.fld Reg.MEM_CTRL F.MEM_CTRL_AUTO_RETIRE = 1 →
      EndsIn .correctionWindowEnd s (fun r => (r.mem.pkg k.val).st = .retired ∧ (r.mem.pkg k.val).reason = 2 ∧ r.mem.raw = m.raw ∧
        ∀ j, j < 20 → j ≠ k.val → (r.mem.pkg j).st = (m.pkg j).st ∧ (r.mem.pkg j).window = 0)) ∧
    (m.nErased = 2 → EndsIn .correctionWindowEnd s (fun r =>
      r.mem.health = (if d.overThresh = [] then 2 else 3) ∧ (∀ j, j < 20 → r.mem.pkg j = { m.pkg j with window := 0 }) ∧ r.mem.raw = m.raw ∧
      r.outbox = (if d.overThresh = [] ∨ m.health = 3 then d.outbox else d.outbox ++ [.operatorEvent 0x258 (d.overThresh.headD 0)]))))

/-! ### Host port (chapter 6) -/

/-- HOST_MEM_READ and HOST_MEM_WRITE, after the error met with the access, if any, is recorded in its RAS status bit. A line that no decoder claims changes nothing
more. A plot bound without host access, unbound or being cleared answers zeros with poison to a read, completes and drops a write, and the denial is
recorded with its address. A plot bound with host access is read, with poison where it cannot be, or waits for an owe, a fill, a relock or an earlier access; a write goes to
memory, and one to a clean granule of a plot that is not lost, where nothing waits, is performed and answered. HDM_DECODER_COMMIT, once the function is ready, of a decoder that is not locked commits exactly when the request has BI set, an interleaving of R299, a DPA base and a DPA size of whole GiB within
usable memory, every lower decoder committed, and the link in 256-byte flit mode with memory active; otherwise Error Not Committed is 1. It takes BI Enable, whose
clearing empties the snoop filter; the other decoders, memory and registers stay. A locked decoder ignores it, and so does a function that is not ready. -/
def Obligations.HostMemory : Prop :=
  (∀ (s : State) (hpa ma : Nat) (data bs : Bytes) (poison : Bool) (err : Option RasErr) (d1 : Dev),
    let d := s.dev.rasRecord err
    let read := Instr.hostMemRead ⟨hpa, err⟩
    let write := Instr.hostMemWrite hpa data ⟨poison, err⟩
    (err = none → d = s.dev) ∧
    (∀ e, err = some e → (if e.uncorrectable then rasUeBits else rasCeBits).testBit e.bit.toNat = true →
      (d.comp (if e.uncorrectable then rasUe else rasCe)).toNat.testBit e.bit.toNat = true) ∧
    (d.hpaMA hpa = none → Ends read s d ∧ Ends write s d) ∧
    (d.hpaMA hpa = some ma →
      (d.hostMay (plotAt ma) = false →
        Ends read s ((d.deny ma).emit (.cxlData ma (List.replicate 64 0) true)) ∧
        Ends write s ((d.deny ma).emit (.cxlWriteDone ma)) ∧
        (d.deny ma).fld Reg.GLB_HOSTM_DENY_EVT ⟨0, 1⟩ = 1 ∧ (d.deny ma).mem = d.mem ∧ (d.deny ma).hp = d.hp ∧
        (d.deny ma).reg Reg.GLB_HOSTM_DENY_ADDR_LO = BitVec.ofNat 32 (ma / 64 * 64) ∧
        (d.deny ma).reg Reg.GLB_HOSTM_DENY_ADDR_HI = BitVec.ofNat 32 (ma / 2 ^ 32)) ∧
      (d.hostMay (plotAt ma) = true →
        (d.blocked ma 64 = false → d.performRead [] ma 64 = (d1, .ok bs) →
          Ends read s ((d1.snoopAdd (ma / 64)).emit (.cxlData ma bs false))) ∧
        (d.blocked ma 64 = false → d.performRead [] ma 64 = (d1, .bad) →
          Ends read s (d1.emit (.cxlData ma (List.replicate 64 0) true))) ∧
        (d.blocked ma 64 = true → Ends read s
          { d with mem := { d.mem with waiting := d.mem.waiting ++ [.read ma 64 .host (d.mem.owesIn ma 64)] } }) ∧
        (data.length = 64 → Ends write s (d.writeArrives [] ma data poison .host)) ∧
        (data.length = 64 → ma % 64 = 0 → d.blocked ma 64 = false → d.mem.isLost (plotAt ma) = false → d.mem.owed (granuleOf ma) = false →
          Ends write s ((d.performWrite [] ma data poison).1.emit (.cxlWriteDone ma)))))) ∧
  (∀ (s : State) (n : Fin 4) (r : HdmReq),
    let d := s.dev
    let base := d.dpaEnd n.val + r.skip.toNat
    let fits := r.bi = true ∧ 1 ≤ r.ig.toNat ∧ r.ig.toNat ≤ 6 ∧ r.iw.toNat ≤ 4 ∧ base % 2 ^ 30 = 0 ∧ r.size.toNat % hdmWays r = 0 ∧
      hdmDpaSize r % 2 ^ 30 = 0 ∧ base + hdmDpaSize r ≤ d.nplots * 2 ^ 30 ∧ (∀ k, k < n.val → ∃ h, d.hdm k = some h ∧ h.committed = true) ∧
      d.hp.mode = .flit256 ∧ d.hp.memActive = true
    (d.hp.ready = false → Ends (.hdmDecoderCommit n r) s d) ∧
    (∀ h, d.hdm n.val = some h → h.committed = true → h.req.lock = true → Ends (.hdmDecoderCommit n r) s d) ∧
    (d.hp.ready = true → (∀ h, d.hdm n.val = some h → ¬ (h.committed = true ∧ h.req.lock = true)) →
      EndsIn (.hdmDecoderCommit n r) s (fun e => ∃ h, e.hdm n.val = some h ∧ h.req = r ∧ h.dpaBase = base ∧ (h.committed = true ↔ fits) ∧
        h.err = !h.committed ∧ (∀ k, k ≠ n.val → e.hdm k = d.hdm k) ∧ e.hp.biEnable = r.biEnable ∧ (r.biEnable = false → e.hp.held = []) ∧
        e.mem = d.mem ∧ e.regs = d.regs)))

/-- Link bring-up: PERST_N deasserted starts the Detect phase; with the link branch on and its reference clock in use the link reaches L0 at a mode of Table 6-1, with
CXL.cache and CXL.mem unless the mode is PCIe or the module is in Lodge; the function becomes ready with the link branch, Memory_Active follows the training of
the memory, and a link recovery shows in the state field alone, from which the link returns to L0 by itself, as L1 does, where the link stays only with ASPM L1 enabled or in D3hot (log 75). LINK_DOWN, HOT_RESET, PERST_N_ASSERT, FLR_PF, PF_D3HOT and, with IDE in use, IDE_INTEGRITY_FAILURE empty the snoop filter, disarm the doorbell lines, pause every queue and
set GLB_HP_DOWN_EVT; memory contents, Pavilions and allotments stay. PERST_N takes the function's readiness; D3hot keeps every configuration word but the power
state; the others clear configuration space, the component registers and VF Enable, and a descriptor whose host data was not observed starts again; a lost link is no
longer up; an IDE failure is recorded in AER. FLR_VF pauses the queues of its
allotment alone and clears its configuration. -/
def Obligations.HostLink : Prop :=
  (∀ (s : State) (m : LinkMode),
    let d := s.dev
    let h := d.hp
    (h.perst = true → Ends .perstNDeassert s (({ d with hp := { h with perst := false } }).setLink 0 0 0 0 0 0)) ∧
    (h.perst = false → linkModeOk m = true → d.linkUp = false → d.sup.link = true → d.refOk 0 = true →
      EndsIn (.linkAtL0 m) s (fun r => r.linkUp = true ∧ r.fld Reg.GLB_HP_LINK F.GLB_HP_LINK_WIDTH = m.width.toNat ∧
        r.fld Reg.GLB_HP_LINK F.GLB_HP_LINK_SPEED = m.speed.toNat ∧
        (m.flit = 3 → r.hp.mode = .pcie ∧ r.cacheOn = false) ∧ (m.flit = 2 → r.hp.mode = .flit256) ∧ (m.flit = 1 → r.hp.mode = .flit68) ∧
        (m.flit ≠ 3 → r.cacheOn = !d.lodge) ∧ r.pavs = d.pavs ∧ r.mem = d.mem ∧ r.qs = d.qs)) ∧
    (h.perst = false → d.sup.link = true → Ends .functionReady s { d with hp := { h with ready := true } }) ∧
    (h.ready = true → d.mem.trained = true → Ends .memoryActive s { d with hp := { h with memActive := true } }) ∧
    (d.linkUp = true → Ends .linkRecovery s (d.setFld Reg.GLB_HP_LINK F.GLB_HP_LINK_STATE 3) ∧
      (d.setFld Reg.GLB_HP_LINK F.GLB_HP_LINK_STATE 3).linkUp = true) ∧
    (d.linkUp = false → Ends .linkRecovery s d) ∧
    (d.linkUp = true → d.l1May = false → d.linkSettles = d.setFld Reg.GLB_HP_LINK F.GLB_HP_LINK_STATE 2) ∧
    (d.linkUp = true → d.l1May = true → ∃ st, (st = 2 ∨ st = 4) ∧
      d.linkSettles = ({ d with freeIx := d.freeIx + 1 } : Dev).setFld Reg.GLB_HP_LINK F.GLB_HP_LINK_STATE st) ∧
    (d.linkUp = false → d.linkSettles = d)) ∧
  (∀ (s : State) (i : Instr) (n : Fin 256),
    let d := s.dev
    let base := if i = .pfD3hot then d else d.redoData
    (i = .linkDown ∧ d.hp.perst = false ∨ i = .hotReset ∧ d.hp.perst = false ∨ i = .perstNAssert ∨ i = .flrPf ∨ i = .pfD3hot ∨
        i = .ideIntegrityFailure ∧ (d.hp.io.on = true ∨ d.hp.cm.on = true) →
      EndsIn i s (fun r =>
        r.hp.held = [] ∧ r.fld Reg.GLB_HP_DOWN_EVT ⟨0, 1⟩ = 1 ∧ r.mem.raw = d.mem.raw ∧ r.mem.clean = d.mem.clean ∧ r.pavs = d.pavs ∧
        r.allots = d.allots ∧ (∀ q, (r.queue q) = (base.queue q).pause ∧ (r.queue q).st ≠ .running ∧ (r.queue q).lineArmed = false) ∧
        (i = .perstNAssert → r.hp.perst = true ∧ r.hp.ready = false ∧ r.hp.memActive = false) ∧
        (i = .pfD3hot → (∀ key, key ≠ 0x44 → Tab.getD cfgInit r.hp.cfg key = Tab.getD cfgInit d.hp.cfg key) ∧ r.cfgWord 0 0x44 = 3 ∧
          r.hp.d3hot = true) ∧
        (i ≠ .pfD3hot → r.hp.cfg = [] ∧ r.hp.comp = [] ∧ r.hp.vfEnable = false ∧ r.hp.writes = [] ∧
          ∀ q seq e, HostWait.data q seq ∈ d.hp.writes → r.exec? q seq = some e → e.started = false ∧ e.complete = false) ∧ (i = .ideIntegrityFailure → r.hp.aerUe = true) ∧
        (i = .linkDown ∨ i = .hotReset ∨ i = .ideIntegrityFailure → r.linkUp = false ∧ r.hp.ready = d.hp.ready))) ∧
    (n.val ≠ 0 → EndsIn (.flrVf n) s (fun r =>
      (∀ q, r.queue q = if (d.queue q).allot = n.val then (d.queue q).pause else d.queue q) ∧ r.allots = d.allots ∧ r.pavs = d.pavs ∧
      r.mem = d.mem ∧ r.regs = d.regs ∧ ∀ off, off < 4096 → r.cfgWord n.val off = (cfgInit (4096 * n.val + off)).toNat)))

/-- Doorbells of a queue whose function still has the translations it needs. A snoop of an armed line disarms it and is answered, and a running or held queue asks for it
again; line data that the queue asked for arms the line and delivers its cursors; on an MMIO page the write of a low dword joins the latched high half and delivers both
cursors. A running or held queue takes PRODUCER and CQ_HEAD together where R332 allows them; a PRODUCER out of range puts it in ERROR with reason 5, else a CQ_HEAD out of
range with reason 6. A line read that ends without permission or in a host fault, or for which ATS has been switched off, puts it in ERROR with reason 7, 8 or 7. Before the function is ready the page
takes nothing. Cursors of a queue: in a queue with CQ_HEAD ≤ C ≤ ACCEPT, doorbells that are taken keep CQ_HEAD ≤ C ≤ ACCEPT ≤ PRODUCER ≤ CQ_HEAD + N. -/
def Obligations.Doorbells : Prop :=
  (∀ (s : State) (q : Qx) (pr ch : Nat) (v : Word32) (ras : Option RasErr),
    let d := s.dev
    let x := d.queue q.val
    let good := x.accept ≤ pr ∧ pr ≤ ch + d.ringN q.val ∧ ch ≤ x.c ∧ x.cqHead ≤ ch
    let errs := fun (i : Instr) (n : Nat) => EndsIn i s (fun r => (r.queue q.val).st = .error ∧ (r.queue q.val).reason = n)
    let breaks := fun (i : Instr) (p c : Nat) =>
      (p < x.accept ∨ c + d.ringN q.val < p → errs i 5) ∧
      (x.accept ≤ p → p ≤ c + d.ringN q.val → x.c < c ∨ c < x.cqHead → errs i 6)
    (x.lineArmed = true →
      let d1 := ((d.rasRecord ras).setQueue q.val { x with lineArmed := false }).emit (.snoopDone q.val)
      (x.usesLine = false → Ends (.doorbellSnoop ⟨q, ras⟩) s d1) ∧
      (x.usesLine = true → d.atsLost q.val = false → Ends (.doorbellSnoop ⟨q, ras⟩) s (d1.readLine q.val)) ∧
      (x.usesLine = true → d.atsLost q.val = true → errs (.doorbellSnoop ⟨q, ras⟩) 7)) ∧
    (x.usesLine = true → x.lineArmed = false →
      (d.atsLost q.val = false →
        (good → EndsIn (.doorbellLineData ⟨q, .ok, ras⟩ pr ch) s (fun r =>
          r.queue q.val = { x with lineArmed := true, producer := pr, cqHead := ch } ∧ (∀ k, k ≠ q.val → r.queue k = d.queue k) ∧
          r.regs = d.regs ∧ r.mem = d.mem ∧ r.pavs = d.pavs)) ∧
        breaks (.doorbellLineData ⟨q, .ok, ras⟩ pr ch) pr ch ∧
        errs (.doorbellLineData ⟨q, .noPermission, ras⟩ pr ch) 7 ∧ errs (.doorbellLineData ⟨q, .fault, ras⟩ pr ch) 8) ∧
      (d.atsLost q.val = true → ∀ e, errs (.doorbellLineData ⟨q, e, ras⟩ pr ch) 7)) ∧
    (d.hp.ready = false → Ends (.dbpProducerLo q v) s d ∧ Ends (.dbpCqHeadLo q v) s d) ∧
    (d.hp.ready = true → x.useLine = false → x.st = .running ∨ x.st = .held →
      (x.accept ≤ (d.reg (Reg.DBP_PRODUCER_HI q.val) ++ v).toNat → (d.reg (Reg.DBP_PRODUCER_HI q.val) ++ v).toNat ≤ x.dbCqHead.toNat + d.ringN q.val →
        x.dbCqHead.toNat ≤ x.c → x.cqHead ≤ x.dbCqHead.toNat →
        EndsIn (.dbpProducerLo q v) s (fun r => r.queue q.val = { x with
          dbProducer := d.reg (Reg.DBP_PRODUCER_HI q.val) ++ v, producer := (d.reg (Reg.DBP_PRODUCER_HI q.val) ++ v).toNat,
          cqHead := x.dbCqHead.toNat } ∧ (∀ k, k ≠ q.val → r.queue k = d.queue k))) ∧
      breaks (.dbpProducerLo q v) (d.reg (Reg.DBP_PRODUCER_HI q.val) ++ v).toNat x.dbCqHead.toNat ∧
      breaks (.dbpCqHeadLo q v) x.dbProducer.toNat (d.reg (Reg.DBP_CQ_HEAD_HI q.val) ++ v).toNat ∧
      (x.accept ≤ x.dbProducer.toNat → x.dbProducer.toNat ≤ (d.reg (Reg.DBP_CQ_HEAD_HI q.val) ++ v).toNat + d.ringN q.val →
        (d.reg (Reg.DBP_CQ_HEAD_HI q.val) ++ v).toNat ≤ x.c → x.cqHead ≤ (d.reg (Reg.DBP_CQ_HEAD_HI q.val) ++ v).toNat →
        EndsIn (.dbpCqHeadLo q v) s (fun r => r.queue q.val = { x with
          dbCqHead := d.reg (Reg.DBP_CQ_HEAD_HI q.val) ++ v, cqHead := (d.reg (Reg.DBP_CQ_HEAD_HI q.val) ++ v).toNat,
          producer := x.dbProducer.toNat } ∧ (∀ k, k ≠ q.val → r.queue k = d.queue k))))) ∧
  (∀ (d : Dev) (q pr ch : Nat),
    let x := d.queue q
    x.cqHead ≤ x.c → x.c ≤ x.accept → (x.st = .running ∨ x.st = .held) →
    let y := (d.takeDoorbell q pr ch).queue q
    y.st ≠ .error → y.cqHead ≤ y.c ∧ y.c ≤ y.accept ∧ y.accept ≤ y.producer ∧ y.producer ≤ y.cqHead + d.ringN q ∧
      x.cqHead ≤ y.cqHead ∧ y.accept = x.accept ∧ y.c = x.c)

/-- CACHE_WRITEBACK_INVALIDATE, with ATS still on for every queue that uses its line, drops every doorbell line, completes, and asks again, at the translated address, for the line
of every such queue.
ATS_INVALIDATION, none other under way, drops the function's translations; it is answered at once where no access of the function is under way, and else waits for those
that are. MSIX_UNMASK clears an entry's mask, and sends a message that pends while the function signals; the write is dropped before the function is ready and while its allotment
clears. CONFIG_REQUEST gets Request Retry Status until the function is ready. Afterwards a read of the PF, or of a VF that exists, answers with the configuration word and changes
nothing, a request to another VF answers all ones, and a write of the PF's command register stores its writable bits. Every function reads the same Vendor ID, the PF the
device ID of its mode and a VF that of VFs. -/
def Obligations.HostServices : Prop :=
  (∀ (s : State) (fn : Fin 256) (tag entry v : Nat),
    let d := s.dev
    let atc := d.hp.atc.filter (fun e => e.fn != fn.val)
    ((∀ e ∈ d.qs, e.2.usesLine = true → d.atsOn (d.queue e.1).allot = true) →
      EndsIn .cacheWritebackInvalidate s (fun r => (∀ q, r.queue q = { d.queue q with lineArmed := false }) ∧ Output.cacheDone ∈ r.outbox ∧
        (∀ e ∈ d.qs, e.2.usesLine = true → ∃ t, r.translated (d.queue e.1).allot (d.pasidOf e.1) ((d.dbAddr e.1).toNat / 4096) = some t ∧
          Output.hostRead (d.hostReq e.1 .rdShared) (BitVec.ofNat 64 (t.frame * 4096 + (d.dbAddr e.1).toNat % 4096)) 64 ∈ r.outbox) ∧ r.regs = d.regs ∧
        r.mem = d.mem)) ∧
    (d.hp.inval = [] →
      (d.hostWaits fn.val = [] →
        Ends (.atsInvalidation fn tag) s (({ d with hp := { d.hp with atc := atc } } : Dev).emit (.invalidateDone fn.val tag))) ∧
      (d.hostWaits fn.val ≠ [] →
        Ends (.atsInvalidation fn tag) s { d with hp := { d.hp with atc := atc, inval := [⟨fn.val, tag, d.hostWaits fn.val⟩] } })) ∧
    (d.hp.ready = false ∨ (d.allot fn.val).st = .clearing → Ends (.msixUnmask fn entry) s d) ∧
    (d.hp.ready = true → (d.allot fn.val).st ≠ .clearing → d.vectorOf fn.val entry = some v →
      let send := (d.msix v).pending = true ∧ d.msixCtl fn.val = (true, false)
      (send → Ends (.msixUnmask fn entry) s ((d.setMsix v { d.msix v with masked := false, pending := false }).emit (.msix fn.val entry))) ∧
      (¬ send → Ends (.msixUnmask fn entry) s (d.setMsix v { d.msix v with masked := false })))) ∧
  (∀ (s : State) (fn : Fin 256) (off : Nat) (v : Word32) (wr : Option Word32),
    let d := s.dev
    (d.hp.ready = false → Ends (.configRequest fn off wr) s (d.emit (.cfgReply fn.val off none))) ∧
    (d.hp.ready = true →
      (fn = 0 ∨ (d.inLodge = false ∧ d.hp.vfEnable = true) →
        Ends (.configRequest fn off none) s (d.emit (.cfgReply fn.val off (some (d.cfgRead fn.val off))))) ∧
      (fn ≠ 0 → (d.inLodge = true ∨ d.hp.vfEnable = false) →
        Ends (.configRequest fn off wr) s (d.emit (.cfgReply fn.val off (some 0xFFFFFFFF)))) ∧
      Ends (.configRequest 0 0x04 (some v)) s
        ((d.setCfg 0 0x04 ((BitVec.ofNat 32 (d.cfgWord 0 0x04) &&& ~~~0x0547) ||| (v &&& 0x0547))).emit (.cfgReply 0 0x04 (some 0)))) ∧
    (d.cfgRead 0 0).toNat / 65536 = (if d.inLodge then 0x0A9F else 0x0A90) ∧
    (d.cfgRead fn.val 0).toNat % 65536 = (d.cfgRead 0 0).toNat % 65536 ∧
    (fn ≠ 0 → (d.cfgRead fn.val 0).toNat / 65536 = 0x0A91))

/-! ### Queues and the guarantee (chapter 7) -/

/-- Acceptance, of a queue whose host accesses end as the command says. DESCRIPTOR_READ of the next slot below PRODUCER reads it at its place in the ring; when its SEQUENCE is the one expected it is taken, else the
queue enters ERROR with reason 4; a read that ends without permission, or for which ATS has been switched off, puts it in ERROR with reason 7, one that ends in a host fault
with reason 8. A sequence that must be executed again joins the queue's descriptors, marked as replayed, without a change of ACCEPT. Any other read changes nothing.
DESCRIPTOR_ACCEPT accepts everything read: ACCEPT passes it, each descriptor joins in order, decided as at acceptance, and the header line is written; HEADER_LINE_REFRESH
writes it again, in RUNNING and HELD, and after a commit in ERROR, CLEARING or an arm that has found C, from which the host is reached. -/
def Obligations.DescriptorAcceptance : Prop :=
  ∀ (s : State) (q : Qx) (seq : Nat) (data : BitVec 1024) (err : HostEnd) (ras : Option RasErr),
    let d := s.dev
    let x := d.queue q.val
    let next := x.accept + x.read.length
    let sq := bitsOf data.toNat 128 64
    let errs := fun (i : Instr) (n : Nat) => EndsIn i s (fun r => (r.queue q.val).st = .error ∧ (r.queue q.val).reason = n ∧
      (r.queue q.val).accept = x.accept ∧ (r.queue q.val).c = x.c ∧ (r.queue q.val).execs = x.execs ∧ r.fld (Reg.QCT_ERR_EVT q.val) ⟨0, 1⟩ = 1)
    let host := fun (i : Instr) =>
      (d.atsLost q.val = true ∨ err = .noPermission → errs i 7) ∧ (d.atsLost q.val = false → err = .fault → errs i 8)
    (x.accepts = true → next < x.producer →
      (d.atsLost q.val = false →
        (sq = next → next ∉ x.redo → Ends (.descriptorRead ⟨q, .ok, ras⟩ next data) s
          (((d.hostFetch q.val (d.slotAddr q.val next) 128).cacheErr ⟨q, .ok, ras⟩).updQueue q.val (fun x => { x with read := x.read ++ [(next, data)] }))) ∧
        (sq ≠ next → errs (.descriptorRead ⟨q, .ok, ras⟩ next data) 4)) ∧
      host (.descriptorRead ⟨q, err, ras⟩ next data)) ∧
    (seq ∈ x.redo → d.ringsOpen q.val = true → d.atsLost q.val = false → sq = seq →
      EndsIn (.descriptorRead ⟨q, .ok, ras⟩ seq data) s (fun r => (r.queue q.val).accept = x.accept ∧ seq ∉ (r.queue q.val).redo ∧
        (∀ k, k ≠ seq → (k ∈ (r.queue q.val).redo ↔ k ∈ x.redo)) ∧
        ∃ e ∈ (r.queue q.val).execs, e.seq = seq ∧ e.data = data ∧ e.replayed = true ∧ e.redo = true)) ∧
    (¬ (x.accepts = true ∧ seq = next ∧ seq < x.producer) → ¬ (seq ∈ x.redo ∧ d.ringsOpen q.val = true) →
      Ends (.descriptorRead ⟨q, err, ras⟩ seq data) s d) ∧
    (x.accepts = true → x.read ≠ [] →
      (d.atsLost q.val = false → EndsIn (.descriptorAccept ⟨q, .ok, ras⟩) s (fun r =>
        (r.queue q.val).read = [] ∧
        (r.queue q.val).execs = x.execs ++ x.read.zipIdx.map (fun k => (Exec.new k.1.1 k.1.2 (d.acceptIx + k.2)).atAccept q.val) ∧
        x.read.getLast?.map (fun k => k.1 + 1) = some (r.queue q.val).accept ∧ HostWait.header q.val ∈ r.hp.writes ∧
        (∀ k, k ≠ q.val → r.queue k = d.queue k) ∧ r.pavs = d.pavs ∧ r.regs = d.regs ∧ r.mem = d.mem)) ∧
      host (.descriptorAccept ⟨q, err, ras⟩)) ∧
    (d.headerOpen q.val = true →
      (d.atsLost q.val = false → Ends (.headerLineRefresh ⟨q, .ok, ras⟩) s ((d.cacheErr ⟨q, .ok, ras⟩).writeHeader q.val)) ∧
      (x.st ≠ .error → x.st ≠ .clearing → host (.headerLineRefresh ⟨q, err, ras⟩)))

/-- The tenant descriptors that may start. One that fails its checks completes with their status. KERNEL puts one share for each named Pavilion in waiting; a member of a gang under replay
is ready at once, and one executed again calls for its gang's replay. COPY: from host memory its bytes go to the plot, opened page by page when
protected; from a plot they go to a plot, or to host memory in a state that may write it; a dropped write or a source that cannot be read is MEMORY; one whose access to a plot waits goes on when the command comes again; a host access that errs puts the queue in ERROR.
SEND and SEND_RESEND_TIMEOUT read their data and apply it once, or send it to the other module, or find it unreachable. A FENCE whose conditions hold completes, else it waits for FENCE_RELEASE; HINT completes. A SEND is applied at most once: data that is not fresh in the window of its source is discarded and changes nothing, and a SEND just applied is not fresh any more. -/
def Obligations.TenantDescriptors : Prop :=
  (∀ (s : State) (q : Qx) (e : Exec) (host bs : Bytes) (tags : List TagEntry) (ma mb st : Nat) (err : HostEnd) (ras : Option RasErr) (d1 d2 : Dev),
    let d := s.dev
    let a := d.qAllot q.val
    let al := d.allot a
    let src := e.f 0x20 0 64
    let dst := e.f 0x28 0 64
    let len := e.f 0x30 0 32
    let erring := fun (i : Instr) =>
      (d.atsLost q.val = true ∨ err = .noPermission → EndsIn i s (fun r => (r.queue q.val).st = .error ∧ (r.queue q.val).reason = 7)) ∧
      (d.atsLost q.val = false → err = .fault → EndsIn i s (fun r => (r.queue q.val).st = .error ∧ (r.queue q.val).reason = 8))
    (d.startable q.val e.seq 1 = some e →
      (d.kernelBad a e = some st → Ends (.kernel q e.seq) s (d.finish q.val e.seq st)) ∧
      (d.kernelBad a e = none →
        let later := e.isGang && al.replays.contains e.group
        let d1 := d.updExec q.val e.seq (fun e =>
          { e with started := true, shares := e.pavs.map (fun l => (l, .waiting)), gangPh := if later then .ready else .none })
        (e.isGang = false ∨ e.redo = false ∨ later = true → Ends (.kernel q e.seq) s d1) ∧
        (e.isGang = true → e.redo = true → later = false → Ends (.kernel q e.seq) s (d1.initReplay a e.group)))) ∧
    (∀ ma bs st, bs ≠ [] →
      (∀ bs', d1.memWrite (.exec q.val e.seq 1) ma bs = (d2, .ok bs') → d1.copyIn q.val e.seq ma bs st = d2.finish q.val e.seq st) ∧
      (d1.memWrite (.exec q.val e.seq 1) ma bs = (d2, .bad) → d1.copyIn q.val e.seq ma bs st = d2.finish q.val e.seq 0x50) ∧
      (d1.memWrite (.exec q.val e.seq 1) ma bs = (d2, .wait) → d1.copyIn q.val e.seq ma bs st = d2)) ∧
    (∀ ma, (d1.allot a).sendFresh d1.moduleId q.val e.seq = true →
      (∀ bs', d1.memWrite (.exec q.val e.seq 1) ma bs = (d2, .ok bs') →
        d1.applySend a q.val e.seq ma bs = (d2.updAllot a (fun x => x.sendApplied d2.moduleId q.val e.seq)).finish q.val e.seq 0) ∧
      (d1.memWrite (.exec q.val e.seq 1) ma bs = (d2, .bad) → d1.applySend a q.val e.seq ma bs = d2.finish q.val e.seq 0x50) ∧
      (d1.memWrite (.exec q.val e.seq 1) ma bs = (d2, .wait) → d1.applySend a q.val e.seq ma bs = d2)) ∧
    (d.startable q.val e.seq 2 = some e →
      (d.copyBad a e = some st → Ends (.copy ⟨q, err, ras⟩ e.seq host tags) s (d.finish q.val e.seq st)) ∧
      (d.copyBad a e = none → d.mem.begun (.exec q.val e.seq 1) = false → e.f 0x34 0 2 = 0 → host.length = len → d.mayReadHost q.val = true →
        d.plotMA a (BitVec.ofNat 64 dst) len = some ma →
        (d.atsLost q.val = false → e.f 0x34 4 2 = 0 →
          Ends (.copy ⟨q, .ok, ras⟩ e.seq host tags) s (((d.hostReads q.val (al.sourceReads src len false)).cacheErr ⟨q, .ok, ras⟩).copyIn q.val e.seq ma host 0)) ∧
        (d.atsLost q.val = false → e.f 0x34 4 2 = 1 → d.copyOpen a src host tags = (bs, st) →
          Ends (.copy ⟨q, .ok, ras⟩ e.seq host tags) s (((d.hostReads q.val (al.sourceReads src len true)).cacheErr ⟨q, .ok, ras⟩).copyIn q.val e.seq ma bs st)) ∧
        ((d.queue q.val).st ≠ .error → erring (.copy ⟨q, err, ras⟩ e.seq host tags))) ∧
      (d.copyBad a e = none → e.f 0x34 0 2 = 1 → d.mem.begun (.exec q.val e.seq 1) = true → d.plotMA a (BitVec.ofNat 64 dst) len = some mb →
        Ends (.copy ⟨q, err, ras⟩ e.seq host tags) s (d.copyIn q.val e.seq mb [0] 0)) ∧
      (d.copyBad a e = none → e.f 0x34 0 2 = 1 → d.mem.begun (.exec q.val e.seq 1) = false → d.plotMA a (BitVec.ofNat 64 src) len = some ma →
        (d.memRead (.exec q.val e.seq 0) ma len = (d1, .wait) → Ends (.copy ⟨q, err, ras⟩ e.seq host tags) s d1) ∧
        (d.memRead (.exec q.val e.seq 0) ma len = (d1, .bad) → Ends (.copy ⟨q, err, ras⟩ e.seq host tags) s (d1.finish q.val e.seq 0x50)) ∧
        (d.memRead (.exec q.val e.seq 0) ma len = (d1, .ok bs) →
          (e.f 0x34 2 2 = 1 → d.plotMA a (BitVec.ofNat 64 dst) len = some mb →
            Ends (.copy ⟨q, err, ras⟩ e.seq host tags) s (d1.copyIn q.val e.seq mb bs 0)) ∧
          (e.f 0x34 2 2 = 0 → d.mayWriteHost q.val = false → Ends (.copy ⟨q, err, ras⟩ e.seq host tags) s d) ∧
          (e.f 0x34 2 2 = 0 → d.mayWriteHost q.val = true → d1.atsLost q.val = false →
            (e.f 0x34 4 2 = 0 → Ends (.copy ⟨q, .ok, ras⟩ e.seq host tags) s
              ((((d1.cacheErr ⟨q, .ok, ras⟩).hostWrite q.val true (BitVec.ofNat 64 dst) bs).await (.data q.val e.seq)).finish q.val e.seq 0)) ∧
            (e.f 0x34 4 2 = 2 → (d1.cacheErr ⟨q, .ok, ras⟩).copyOut q.val a e.seq dst true bs = (d2, st) →
              Ends (.copy ⟨q, .ok, ras⟩ e.seq host tags) s (d2.finish q.val e.seq st)))))) ∧
    (∀ i, (i = .send q e.seq ∧ d.startable q.val e.seq 4 = some e) ∨
        (i = .sendResendTimeout q e.seq ∧ d.exec? q.val e.seq = some e ∧ e.typ = 4 ∧ e.sendLeft = true ∧ e.complete = false) →
      (d.sendBad a e = some st → i = .send q e.seq → Ends i s (d.finish q.val e.seq st)) ∧
      (d.sendBad a e = none → d.mem.begun (.exec q.val e.seq 1) = true → d.plotMA a (BitVec.ofNat 64 src) (e.f 0x34 0 32) = some ma →
        d.plotMA a (BitVec.ofNat 64 dst) (e.f 0x34 0 32) = some mb → Ends i s (d.applySend a q.val e.seq mb [])) ∧
      (d.sendBad a e = none → d.mem.begun (.exec q.val e.seq 1) = false → d.plotMA a (BitVec.ofNat 64 src) (e.f 0x34 0 32) = some ma →
        (d.memRead (.exec q.val e.seq 0) ma (e.f 0x34 0 32) = (d1, .wait) → Ends i s d1) ∧
        (d.memRead (.exec q.val e.seq 0) ma (e.f 0x34 0 32) = (d1, .bad) → Ends i s (d1.finish q.val e.seq 0x50)) ∧
        (d.memRead (.exec q.val e.seq 0) ma (e.f 0x34 0 32) = (d1, .ok bs) →
          (e.f 0x30 0 16 = d.lmod al → d.plotMA a (BitVec.ofNat 64 dst) (e.f 0x34 0 32) = some mb →
            Ends i s (d1.applySend a q.val e.seq mb bs)) ∧
          (e.f 0x30 0 16 ≠ d.lmod al →
            let m := d1.modId al (e.f 0x30 0 16)
            (d1.routeDead m = true → Ends i s ((d1.noteUnreach m).finish q.val e.seq 0x40)) ∧
            (d1.routeDead m = false → Ends i s ((d1.updExec q.val e.seq (fun e => { e with started := true, sendLeft := true })).trlSend m
              (d1.mkMessage ftSendData m al.token (dst + q.val * 2 ^ 41 + e.seq * 2 ^ 64) bs) (.send q.val e.seq))))))) ∧
    (d.startable q.val e.seq 5 = some e →
      let bad := e.headBad = true ∨ e.f 0x20 13 19 ≠ 0 ∨ e.f 0x24 0 32 ≠ 0 ∨ e.f 0x30 0 640 ≠ 0
      (bad → Ends (.fence q e.seq) s (d.finish q.val e.seq 0x21)) ∧
      (¬ bad → e.f 0x20 12 1 = 1 → d.fenceQueue q.val e = none → Ends (.fence q e.seq) s (d.finish q.val e.seq 0x31)) ∧
      (¬ bad → ¬ (e.f 0x20 12 1 = 1 ∧ d.fenceQueue q.val e = none) →
        (d.fenceMet q.val e = true → Ends (.fence q e.seq) s (d.finish q.val e.seq 0)) ∧
        (d.fenceMet q.val e = false → Ends (.fence q e.seq) s (d.start q.val e.seq)))) ∧
    (d.exec? q.val e.seq = some e → e.typ = 5 → e.started = true → e.complete = false →
      (d.fenceMet q.val e = true → Ends (.fenceRelease q e.seq) s (d.finish q.val e.seq 0)) ∧
      (d.fenceMet q.val e = false → Ends (.fenceRelease q e.seq) s d)) ∧
    (d.startable q.val e.seq 6 = some e → Ends (.hintDescriptor q e.seq) s
      (d.finish q.val e.seq (if e.headBad = true ∨ e.f 0x20 0 768 ≠ 0 then 0x21 else 0)))) ∧
  ((∀ (d : Dev) (a q seq ma : Nat) (bs : Bytes), (d.allot a).sendFresh d.moduleId q seq = false →
    d.applySend a q seq ma bs = d.finish q seq 0) ∧
  (∀ (x : Allot) (m : BitVec 16) (q seq : Nat), (x.sendApplied m q seq).sendFresh m q seq = false) ∧
  (∀ (x : Allot) (m : BitVec 16) (q seq k : Nat), x.sendFresh m q k = false → (x.sendApplied m q seq).sendFresh m q k = false))

/-- Completion records. A record that may be issued is written to its completion slot while the queue is RUNNING, HELD, or in an ERROR from which the host is reached and in which no record is held; it carries, for a REDUCE, the flags of its blocks too; it is held while the queue is PAUSED with fewer than 4,096 records held,
and waits otherwise; a write that errs puts a RUNNING or HELD queue in ERROR. COMPLETION_LANDED for the first uncommitted sequence, its record issued and not held, commits it: C passes it and it leaves the
queue, and a descriptor with IRQ set signals its interrupt. HELD_RECORDS_FLUSH lets a queue being released, the host reached and its data observed, write its held records and then those of descriptors revoked after them. No record is issued out of sequence or too early: while the descriptor is not complete, or an earlier accepted one has no record, or an earlier sequence is to be executed again, or its host data, posts or
remote messages are not all observed, or a contribution is not committed, or its gang is not done, or, in ERROR, records are held, COMPLETION_RECORD changes nothing. -/
def Obligations.CompletionRecords : Prop :=
  (∀ (s : State) (q : Qx) (e : Exec) (err : HostEnd) (ras : Option RasErr) (k : Record),
    let d := s.dev
    let x := d.queue q.val
    let landed := d.updQueue q.val (fun x =>
      { x with c := max x.c (e.seq + 1), execs := x.execs.filter (fun k => k.seq != e.seq), acc := x.acc.filter (fun k => k.seq != e.seq), sinceHdr := x.sinceHdr + 1 })
    (d.exec? q.val e.seq = some e → d.mayIssue q.val e = true →
      (x.st = .running ∨ x.st = .held ∨ x.st = .error ∧ d.reach q.val = true ∧ x.held = [] → d.atsLost q.val = false → Ends (.completionRecord ⟨q, .ok, ras⟩ e.seq) s
        (((d.cacheErr ⟨q, .ok, ras⟩).hostWrite q.val false (d.cqAddr q.val e.seq) (d.recordOf q.val e).bytes).updExec q.val e.seq (fun e => { e with issued := true }))) ∧
      (x.st = .running ∨ x.st = .held →
        (d.atsLost q.val = true ∨ err = .noPermission → EndsIn (.completionRecord ⟨q, err, ras⟩ e.seq) s (fun r =>
          (r.queue q.val).st = .error ∧ (r.queue q.val).reason = 7 ∧ (r.queue q.val).execs = x.execs)) ∧
        (d.atsLost q.val = false → err = .fault → EndsIn (.completionRecord ⟨q, err, ras⟩ e.seq) s (fun r =>
          (r.queue q.val).st = .error ∧ (r.queue q.val).reason = 8 ∧ (r.queue q.val).execs = x.execs))) ∧
      (x.st = .paused → x.held.length < 4096 → EndsIn (.completionRecord ⟨q, err, ras⟩ e.seq) s (fun r =>
        (r.queue q.val).held = x.held ++ [d.recordOf q.val e] ∧ r.outbox = d.outbox ∧ (∀ k, k ≠ q.val → r.queue k = d.queue k))) ∧
      (x.st = .paused ∧ 4096 ≤ x.held.length ∨ x.st = .error ∧ (d.reach q.val = false ∨ x.held ≠ []) ∨ x.st = .disabled ∨ x.st = .arming ∨ x.st = .clearing →
        Ends (.completionRecord ⟨q, err, ras⟩ e.seq) s d)) ∧
    d.recordOf q.val e = { e.record with flags := if e.typ = 3 then e.flags ||| d.reduceFlags q.val e.seq else e.flags } ∧
    (d.exec? q.val e.seq = some e → e.issued = true → x.c = e.seq → (∀ r ∈ x.held, r.seq ≠ e.seq) →
      EndsIn (.completionLanded q e.seq) s (fun r => (r.queue q.val).c = e.seq + 1 ∧ ∀ k ∈ (r.queue q.val).execs, k.seq ≠ e.seq) ∧
      (e.typ ≠ 3 → x.sinceHdr + 1 < 64 → d.hp.inval = [] →
        Ends (.completionLanded q e.seq) s (if e.f 1 0 1 = 1 then landed.signalQueue q.val else landed))) ∧
    (x.st = .clearing → d.dataOut q.val = true → Ends (.heldRecordsFlush ⟨q, .ok, ras⟩) s d) ∧
    (x.st = .clearing → x.released = true → d.reach q.val = true → d.dataOut q.val = false →
      (∀ op, d.clearOp = some op → ¬ (op.allot = x.allot ∧ op.revokeDone = true)) → x.held = [k] → k.seq = x.c →
      EndsIn (.heldRecordsFlush ⟨q, .ok, ras⟩) s (fun r => (r.queue q.val).held = [] ∧ (r.queue q.val).c = x.c + 1)) ∧
    (x.st = .clearing → x.released = true → d.reach q.val = true → d.dataOut q.val = false →
      (∀ op, d.clearOp = some op → op.allot = x.allot → op.revokeDone = true → Ends (.heldRecordsFlush ⟨q, .ok, ras⟩) s (((d.cacheErr ⟨q, .ok, ras⟩).flushHeld q.val).revokeQueue q.val)))) ∧
  (∀ (s : State) (q : Qx) (e k : Exec) (err : HostEnd) (ras : Option RasErr), let d := s.dev
    d.exec? q.val e.seq = some e →
    (e.complete = false ∨ (k ∈ (d.queue q.val).execs ∧ k.seq < e.seq ∧ k.issued = false) ∨ (∃ n ∈ (d.queue q.val).redo, n < e.seq) ∨
      HostWait.data q.val e.seq ∈ d.hp.writes ∨ d.stillPosts q.val e.seq = true ∨ d.remoteOut q.val e.seq = true ∨
      (∃ c ∈ e.contribs, d.contribDone (d.qAllot q.val) c = false) ∨ (e.isGang = true ∧ e.gangDone = false) ∨
      ((d.queue q.val).st = .error ∧ (d.queue q.val).held ≠ [])) →
    Ends (.completionRecord ⟨q, err, ras⟩ e.seq) s d)

/-- Gangs. A complete member whose home is this module counts DONE there and, when all its gang's members have, is done; with its home elsewhere it tells its home. The phases of a replay go stop, drain, and, when no message of the member is under way and its shares await none, ready; a
ready member at home is counted, and elsewhere tells its home. -/
def Obligations.GangMembers : Prop :=
  ∀ (s : State) (q : Qx) (e : Exec) (d1 : Dev),
    let d := s.dev
    let a := d.qAllot q.val
    let home := d.homeOf a e.group
    d.exec? q.val e.seq = some e →
    (e.isGang = true → e.complete = true → e.gangDone = false → e.gangPh = .none →
      (home = d.moduleId → d.homeDone a e.group (d.moduleId, q.val, e.seq) = (d1, true) →
        Ends (.gangDoneTimer q e.seq) s (d1.updExec q.val e.seq (fun e => { e with gangDone := true }))) ∧
      (home = d.moduleId → d.homeDone a e.group (d.moduleId, q.val, e.seq) = (d1, false) → Ends (.gangDoneTimer q e.seq) s d1) ∧
      (home ≠ d.moduleId → Ends (.gangDoneTimer q e.seq) s (d.control home (d.allot a).token 3 0 0 q.val e.group e.seq))) ∧
    (e.gangPh = .stop → Ends (.gangStopEnd q e.seq) s (d.gangPhase q.val e.seq .drain)) ∧
    (e.gangPh = .drain →
      let clear := d.remoteOut q.val e.seq = false ∧ ∀ p ∈ d.sharePavs q.val e.seq, ∀ t ∈ (d.pav p).xfers, t.kind = .mld ∨ t.kind = .mst
      (clear → Ends (.gangDrainEnd q e.seq) s (d.gangPhase q.val e.seq .ready)) ∧ (¬ clear → Ends (.gangDrainEnd q e.seq) s d)) ∧
    (e.gangPh = .ready →
      (home = d.moduleId → Ends (.gangReadyTimer q e.seq) s (d.homeReady a e.group (d.moduleId, q.val, e.seq))) ∧
      (home ≠ d.moduleId → Ends (.gangReadyTimer q e.seq) s (d.control home (d.allot a).token 6 0 0 q.val e.group e.seq)))

/-- A queue's states. It is HELD while R374 says so and returns to RUNNING by itself. ARM starts the phases of Table 7-18, errs with STORE or CONFIG, or is held while CLEARING. The
phases read the header, erring with reason 3 on one out of range, commit what the slots show as landed up to its ACCEPT, and resume: a queue with its binding goes RUNNING with what has neither record nor execution to be executed again; one
without is unbound, reason 9; one being released waits CLEARING; a stale one ends every sequence up to ACCEPT first; host data not yet observed delays the records. DISABLE stops acceptance and ends in DISABLED when C is ACCEPT and nothing is left. The queue store is
named in a plot that is not bound, and its plot changes only while every queue is DISABLED. -/
def Obligations.QueueStates : Prop :=
  ∀ (s : State) (q : Qx) (hdr : HeaderLine) (slots : List Nat) (pr ch : Nat) (ring : List (BitVec 1024)) (v : Word32) (ras : Option RasErr),
    let d := s.dev
    let x := d.queue q.val
    let log2n := bitsOf (d.reg (Reg.QCT_CFG q.val)).toNat 16 5
    let plot := if ∀ e ∈ d.qs, e.2.st = .disabled then F.GLB_QE_STORE_PLOT.get v else d.fld Reg.GLB_QE_STORE F.GLB_QE_STORE_PLOT
    let erring := fun (i : Instr) (n : Nat) => EndsIn i s (fun r => (r.queue q.val).st = .error ∧ (r.queue q.val).reason = n)
    (x.st = .running → d.holdCause q.val = true →
      Ends (.queueHeld q) s (((d.setQueue q.val { x with st := .held }).raise Reg.GLB_QE_HOLD_EVT).fire 47 q.val)) ∧
    (x.st = .held → d.holdCause q.val = false → Ends (.queueHeld q) s (d.setQueue q.val { x with st := .running })) ∧
    (x.st = .disabled ∨ x.st = .paused ∨ x.st = .error →
      (d.storeValid = true → 6 ≤ log2n → log2n ≤ 16 → Ends (.qctArm q) s (d.setQueue q.val
        { x with st := .arming, reason := 0, arm := some .header, armHeld := false, useLine := false })) ∧
      (d.storeValid = false → erring (.qctArm q) 1) ∧ (d.storeValid = true → log2n < 6 ∨ 16 < log2n → erring (.qctArm q) 2)) ∧
    (x.st = .clearing → Ends (.qctArm q) s (d.setQueue q.val { x with armHeld := true })) ∧
    (x.st = .arming → x.arm = some .header → d.atsLost q.val = false →
      (hdr.commit.toNat ≤ hdr.accept.toNat → hdr.accept.toNat - hdr.commit.toNat ≤ d.ringN q.val →
        EndsIn (.armHeaderRead ⟨q, .ok, ras⟩ hdr) s (fun r => ∃ st, r.queue q.val =
          { x with armAccept := hdr.accept.toNat, armCommit := hdr.commit.toNat, armStale := st, hdrId := (hdr.incarnation, hdr.binding), arm := some .scan } ∧
          (st = true ↔ hdr.incarnation ≠ d.reg Reg.GLB_INCARNATION ∨ hdr.binding.toNat ≠ d.serialOf q.val) ∧
          (∀ k, k ≠ q.val → r.queue k = d.queue k) ∧ r.regs = d.regs)) ∧
      (hdr.accept.toNat < hdr.commit.toNat ∨ d.ringN q.val < hdr.accept.toNat - hdr.commit.toNat → erring (.armHeaderRead ⟨q, .ok, ras⟩ hdr) 3) ∧
      erring (.armHeaderRead ⟨q, .noPermission, ras⟩ hdr) 7 ∧ erring (.armHeaderRead ⟨q, .fault, ras⟩ hdr) 8) ∧
    (x.st = .arming → x.arm = some .scan → d.atsLost q.val = false →
      let c := scanC x.armAccept x.armCommit slots
      EndsIn (.armScan ⟨q, .ok, ras⟩ slots) s (fun r =>
        (r.queue q.val).st = .arming ∧ (r.queue q.val).arm = some .heldRecords ∧ (r.queue q.val).accept = x.armAccept ∧ (r.queue q.val).c = c ∧
        (r.queue q.val).execs = x.execs.filter (fun e => c ≤ e.seq) ∧ (r.queue q.val).held = x.held.filter (fun r => c ≤ r.seq))) ∧
    (x.st = .arming → x.arm = some .heldRecords → d.dataOut q.val = true → Ends (.armHeldRecords ⟨q, .ok, ras⟩ pr ch ring) s d) ∧
    (x.st = .arming → x.arm = some .heldRecords → d.dataOut q.val = false → d.atsLost q.val = false →
      (x.released = true → EndsIn (.armHeldRecords ⟨q, .ok, ras⟩ pr ch ring) s (fun r => (r.queue q.val).st = .clearing ∧ (r.queue q.val).armHeld = true)) ∧
      (x.released = false → x.allot = 0 → q.val ≠ 0 → erring (.armHeldRecords ⟨q, .ok, ras⟩ pr ch ring) 9) ∧
      (x.released = false → x.allot ≠ 0 → q.val ≠ 0 → x.armStale = true → x.c ≤ x.accept →
        EndsIn (.armHeldRecords ⟨q, .ok, ras⟩ pr ch ring) s (fun r => (r.queue q.val).c = x.accept ∧ (r.queue q.val).redo = [])) ∧
      (x.released = false → x.held = [] → x.armStale = false → x.allot ≠ 0 ∨ q.val = 0 → d.cacheOn = false ∨ d.atsOn x.allot = false →
        x.accept ≤ x.dbProducer.toNat → x.dbProducer.toNat ≤ x.dbCqHead.toNat + d.ringN q.val → x.dbCqHead.toNat ≤ x.c → x.cqHead ≤ x.dbCqHead.toNat →
        EndsIn (.armHeldRecords ⟨q, .ok, ras⟩ pr ch ring) s (fun r => (r.queue q.val).st = .running ∧ (r.queue q.val).arm = none ∧
          (r.queue q.val).producer = x.dbProducer.toNat ∧ (r.queue q.val).accept = x.accept ∧ (r.queue q.val).c = x.c ∧
          (∀ n, n ∈ (r.queue q.val).redo ↔ x.c ≤ n ∧ n < x.accept ∧ ∀ e ∈ x.execs, e.seq ≠ n) ∧ ∀ k, k ≠ q.val → r.queue k = d.queue k))) ∧
    (x.st ≠ .disabled → Ends (.queueDisable q) s (d.setQueue q.val { x with disableReq := true, read := [] })) ∧
    (x.st = .disabled → Ends (.queueDisable q) s d) ∧
    (let done := x.disableReq = true ∧ x.st ≠ .clearing ∧ x.st ≠ .arming ∧ x.c = x.accept ∧ x.execs = [] ∧ x.held = [] ∧ x.redo = []
      let dropped := if x.lineArmed then d.emit (.evict (d.hostReq q.val .cleanEvict) (d.dbAddr q.val)) else d;
      (done → Ends (.queueDisabled q) s (dropped.setQueue q.val
        { x with st := .disabled, disableReq := false, arm := none, cqHead := 0, lineArmed := false, useLine := false, acc := [] })) ∧
      (¬ done → Ends (.queueDisabled q) s d)) ∧
    (let ok := F.GLB_QE_STORE_VALID.get v = 0 ∨ d.plotBound plot = false ∧ plot < d.nplots;
      (ok → Ends (.glbQeStore v) s (d.setReg Reg.GLB_QE_STORE (BitVec.ofNat 32 (F.GLB_QE_STORE_VALID.get v * 2 ^ 31 + plot)))) ∧
      (¬ ok → Ends (.glbQeStore v) s d))

/-! ### Allotments (chapter 8) -/

/-- BIND of one entry to a BOUND allotment, while queue 0 can read the list. A free Pavilion takes the allotment and the logical index, clear of everything a share left, its lease at the floor; a free plot is bound and owed; a free ledger block, a free DISABLED queue, a free vector and a
share of a port within 64 sixty-fourths are bound. The descriptor completes with OK, and no other allotment changes. BIND reads its list and checks every entry before it changes anything: one that fails completes with BAD_DESCRIPTOR and leaves allotments, Pavilions, blocks, memory and every other queue as they were; one that passes completes with OK on what its entries
make of the block. While queue 0 cannot read a list it waits, and a read that errs puts queue 0 in ERROR. With SCOPE 1 it makes an UNBOUND allotment BOUND with the next serial and the operator's token. Where no BIND may start it changes nothing. -/
def Obligations.Binding : Prop :=
  (∀ (s : State) (e : Exec) (w : Word64) (ras : Option RasErr),
    let d := s.dev
    let a := e.allotNo
    let t := d.allot a
    let n := entPhys w
    let l := entLogical w
    let x := d.pav n
    let binds := fun (P : Dev → Prop) => EndsIn (.bind ⟨e.seq, .ok, ras⟩ [w]) s (fun r => P r ∧ (r.exec? 0 e.seq).map (fun k => (k.complete, k.status)) =
      some (true, if e.replayed then 1 else 0) ∧ (r.allot a).st = .bound ∧ (r.allot a).serial = t.serial ∧ ∀ k, k ≠ a → r.allot k = d.allot k)
    d.startable 0 e.seq 8 = some e → e.complete = false → e.listBad true = false → e.scope = false → e.f 0x22 0 16 = 1 → t.st = .bound →
    d.mayReadHost 0 = true → d.atsLost 0 = false →
    entOk w = true →
    (entKind w = 1 → n < 160 → l < 144 → x.spare = false → x.withdrawn = false → x.allot = 0 → d.pavOf a l = none →
      binds (fun r => r.pavOf a l = some n ∧ (r.pav n).allot = a ∧ (r.pav n).logical = some l ∧ (r.pav n).bed = [] ∧ (r.pav n).s = [] ∧
        (r.pav n).lease = d.floorCap ∧ ∀ k, k ≠ n → r.pav k = d.pav k)) ∧
    (entKind w = 2 → n < d.nplots → l < d.nplots → (d.storeValid = true → d.fld Reg.GLB_QE_STORE F.GLB_QE_STORE_PLOT ≠ n) → d.plotOf a l = none →
      d.plotBound n = false →
      binds (fun r => r.plotOf a l = some n ∧ Tab.get none (r.allot a).plots l = some (n, entHost w) ∧ r.mem.isOwing n = true ∧ r.pavs = d.pavs)) ∧
    (entKind w = 3 → n < 1024 → l < 1024 → d.blkOf a l = none → d.blkBound n = false →
      binds (fun r => r.blkOf a l = some n ∧ r.blk n = { d.blk n with allot := a } ∧ r.pavs = d.pavs ∧ r.mem = d.mem)) ∧
    (entKind w = 4 → n ≠ 0 → n < 4096 → l < 4096 → d.queueOf a l = none → (d.queue n).allot = 0 → (d.queue n).st = .disabled →
      binds (fun r => r.queueOf a l = some n ∧ (r.queue n).allot = a ∧ (r.queue n).lqueue = l ∧ (r.queue n).st = .disabled ∧ r.mem = d.mem)) ∧
    (entKind w = 5 → 64 ≤ n → n < 4096 → d.vecBound n = false → t.vecs.length < 2048 →
      binds (fun r => (r.allot a).vecs = t.vecs ++ [n] ∧ r.pavs = d.pavs ∧ r.mem = d.mem)) ∧
    (entKind w = 6 → n < 18 → 1 ≤ entShare w → entShare w ≤ 64 → Tab.get 0 t.shares n ≤ entShare w →
      d.shareSum n - Tab.get 0 t.shares n + entShare w ≤ 64 →
      binds (fun r => Tab.get 0 (r.allot a).shares n = entShare w ∧ r.pavs = d.pavs ∧ r.mem = d.mem))) ∧
  (∀ (s : State) (e : Exec) (list : List Word64) (err : HostEnd) (ras : Option RasErr) (d1 : Dev),
    let d := s.dev
    let a := e.allotNo
    let dr := if e.listReads = [] then d else (d.hostReads 0 e.listReads).cacheErr ⟨0, .ok, ras⟩
    let able := e.listReads = [] ∨ d.mayReadHost 0 = true ∧ d.atsLost 0 = false ∧ err = .ok
    let erring := fun (i : Instr) => (d.queue 0).st ≠ .error →
      (d.atsLost 0 = true ∨ err = .noPermission → EndsIn i s (fun r => (r.queue 0).st = .error ∧ (r.queue 0).reason = 7 ∧ r.allots = d.allots)) ∧
      (d.atsLost 0 = false → err = .fault → EndsIn i s (fun r => (r.queue 0).st = .error ∧ (r.queue 0).reason = 8 ∧ r.allots = d.allots))
    (d.startable 0 e.seq 8 = none → Ends (.bind ⟨e.seq, err, ras⟩ list) s d) ∧
    (d.startable 0 e.seq 8 = some e → e.complete = false → list.length = e.f 0x22 0 16 →
      (e.listReads ≠ [] → (d.mayReadHost 0 = false → Ends (.bind ⟨e.seq, err, ras⟩ list) s d) ∧
        (d.mayReadHost 0 = true → erring (.bind ⟨e.seq, err, ras⟩ list))) ∧
      (able → dr.bind e list = some d1 → Ends (.bind ⟨e.seq, err, ras⟩ list) s (d1.finishOp e.seq 0)) ∧
      (able → dr.bind e list = none → EndsIn (.bind ⟨e.seq, err, ras⟩ list) s (fun r =>
        r.allots = d.allots ∧ r.pavs = d.pavs ∧ r.blks = d.blks ∧ r.mem = d.mem ∧ r.regs = d.regs ∧ (∀ q, q ≠ 0 → r.queue q = d.queue q) ∧
        (r.exec? 0 e.seq).map (fun k => (k.complete, k.status)) = some (true, 0x21))) ∧
      (e.listBad true = false → e.scope = true → list = [] → (d.allot a).st = .unbound → e.f 0x30 0 64 ≠ 0 →
        e.f 0x38 0 64 + 4096 * e.f 0x48 0 32 ≤ 2 ^ 64 → (∀ k ∈ d.allots, k.2.st ≠ .unbound → k.2.token ≠ BitVec.ofNat 64 (e.f 0x30 0 64)) →
        EndsIn (.bind ⟨e.seq, err, ras⟩ []) s (fun r =>
          (r.allot a).st = .bound ∧ (r.allot a).serial = (d.allot a).serial + 1 ∧ (r.allot a).token = BitVec.ofNat 64 (e.f 0x30 0 64) ∧
          (r.allot a).wepoch = 3 ∧ (r.allot a).slot0 = none ∧ (r.allot a).slot1 = none ∧ (∀ k, k ≠ a → r.allot k = d.allot k) ∧
          r.pavs = d.pavs ∧ r.mem = d.mem))))

/-- UNBIND and CLEAR that pass their checks make the allotment CLEARING, put its queues in CLEARING, their doorbell lines left where they are, and name what is to be cleared; those that fail them complete with BAD_DESCRIPTOR, or, for one executed again on an
allotment that is gone, of whole scope or with nothing that its earlier execution had not released, with OK. The list is read as BIND reads it. The phases that follow. Stop leaves every named Pavilion without a share and CLEARING, every named block CLEARING, every named plot being owed and no descriptor of the allotment incomplete. Revoke commits every accepted descriptor of a queue that reaches the host, and
holds up to 4,096 records of one that does not; it waits while host data of one is not observed. A Pavilion, block or vector that has been cleared holds nothing of its tenant; a plot is cleared when it has been owed, a queue when it has been revoked, a share when its frames have left. Release raises the serial and leaves
the allotment BOUND with the queues it keeps PAUSED, or UNBOUND with no resource after an UNBIND of the whole; a queue that still has records to write delays the end, and until then the queues that are kept stay CLEARING. -/
def Obligations.Clearing : Prop :=
  (∀ (s : State) (e : Exec) (list : List Word64) (unbind : Bool) (i : Instr) (named : List (ResKind × Nat)) (cut : List (Nat × Nat))
    (err : HostEnd) (ras : Option RasErr),
    let d := s.dev
    let a := e.allotNo
    let dr := if e.listReads = [] then d else (d.hostReads 0 e.listReads).cacheErr ⟨0, .ok, ras⟩
    let able := e.listReads = [] ∨ d.mayReadHost 0 = true ∧ d.atsLost 0 = false ∧ err = .ok
    let erring := fun (i : Instr) => (d.queue 0).st ≠ .error →
      (d.atsLost 0 = true ∨ err = .noPermission → EndsIn i s (fun r => (r.queue 0).st = .error ∧ (r.queue 0).reason = 7 ∧ r.allots = d.allots)) ∧
      (d.atsLost 0 = false → err = .fault → EndsIn i s (fun r => (r.queue 0).st = .error ∧ (r.queue 0).reason = 8 ∧ r.allots = d.allots))
    let again := (d.allot a).again e
    i = (if unbind then .unbind ⟨e.seq, err, ras⟩ list else .clear ⟨e.seq, err, ras⟩ list) →
    d.startable 0 e.seq (if unbind then 9 else 10) = some e → list.length = e.f 0x22 0 16 →
    (e.listReads ≠ [] → (d.mayReadHost 0 = false → Ends i s d) ∧ (d.mayReadHost 0 = true → erring i)) ∧
    (able → e.listBad false = true → Ends i s (dr.finishOp e.seq 0x21)) ∧
    (able → e.listBad false = false → (d.allot a).st = .unbound →
      (e.scope = true → Ends i s (dr.finishOp e.seq (if e.replayed = true then 0 else 0x21))) ∧
      (e.scope = false → again = none → Ends i s (dr.finishOp e.seq 0x21)) ∧
      (e.scope = false → again ≠ none → dr.clearList a unbind again list = some ([], []) → Ends i s (dr.finishOp e.seq 0))) ∧
    (able → e.listBad false = false → (d.allot a).st ≠ .unbound →
      (dr.clearList a unbind again list = none → Ends i s (dr.finishOp e.seq 0x21)) ∧
      (dr.clearList a unbind again list = some (named, cut) →
        EndsIn i s (fun r =>
          (r.allot a).st = .clearing ∧ (r.allot a).serial = (d.allot a).serial ∧ (∀ k, k ≠ a → r.allot k = d.allot k) ∧
          (∃ op, r.clearOp = some op ∧ op.allot = a ∧ op.seq = e.seq ∧ op.unbind = unbind ∧ op.whole = e.scope ∧ op.stopDone = false ∧
            op.named = (if e.scope then (if unbind then (d.allot a).resources else (d.allot a).cleanable) else named.eraseDups) ∧ op.todo = op.named ∧
            (unbind = false → op.shareCut = [])) ∧
          (∀ q, q ≠ 0 → (d.queue q).allot = a → (r.queue q).st = .clearing ∧ (r.queue q).lineArmed = (d.queue q).lineArmed ∧ (r.queue q).execs = (d.queue q).execs) ∧
          (∀ q, q ≠ 0 → (d.queue q).allot ≠ a → r.queue q = d.queue q) ∧ r.pavs = d.pavs ∧ r.mem = d.mem ∧ r.blks = d.blks)))) ∧
  (∀ (s : State) (op : ClearOp) (p : Nat) (d1 : Dev),
    let d := s.dev
    let a := op.allot
    let rest := fun (k : ResKind) => some { op with todo := op.todo.filter (· != (k, p)) }
    let waits := fun (r : ResKind × Nat) => r.1 = .queue ∧ ((d.queue r.2).st = .arming ∨ (d.queue r.2).accept ≠ (d.queue r.2).c)
    d.clearOp = some op →
    (op.stopDone = false →
      EndsIn .clearingStopEnd s (fun r => r.clearOp = some { op with stopDone := true } ∧
        (∀ k, (ResKind.pavilion, k) ∈ op.named → (r.pav k).clearing = true ∧ (r.pav k).share = none) ∧
        (∀ k, (ResKind.block, k) ∈ op.named → (r.blk k).st = .clearing) ∧
        (∀ k, (ResKind.plot, k) ∈ op.named → r.mem.isOwing k = true) ∧
        (∀ q n e, (d.queue q).allot = a → r.exec? q n = some e → e.complete = true))) ∧
    (op.stopDone = true → op.revokeDone = false →
      ((∃ e ∈ d.qs, e.2.allot = a ∧ e.2.st = .clearing ∧ d.dataOut e.1 = true) → Ends .revokeEnd s d)) ∧
    (op.stopDone = true → op.revokeDone = false → (∀ e ∈ d.qs, e.2.allot = a → d.dataOut e.1 = false) →
      ((∀ e ∈ d.qs, e.2.allot = a → d.reach e.1 = false) →
        EndsIn .revokeEnd s (fun r => r.clearOp = some { op with revokeDone := true } ∧
          (∀ q, (d.queue q).allot = a → (d.queue q).st = .clearing →
            (r.queue q).held = ((d.queue q).endRecords []).take 4096 ∧ (r.queue q).redo = [] ∧ (r.queue q).c = (d.queue q).c) ∧ r.pavs = d.pavs)) ∧
      ((∀ e ∈ d.qs, e.2.allot = a → d.reach e.1 = true) →
        EndsIn .revokeEnd s (fun r => r.clearOp = some { op with revokeDone := true } ∧
          (∀ q, (d.queue q).allot = a → (d.queue q).st = .clearing → (d.queue q).c ≤ (d.queue q).accept → (r.queue q).c = (d.queue q).accept)))) ∧
    (op.stopDone = true → op.todo.contains (ResKind.pavilion, p) = true →
      EndsIn (.resourceClear .pavilion p) s (fun r => let y := r.pav p
        y.s = [] ∧ y.d = [] ∧ y.v = [] ∧ y.ev = [] ∧ y.bed = [] ∧ y.share = none ∧ y.slot0 = none ∧ y.slot1 = none ∧ y.pend = [] ∧ y.flags = 0 ∧
        y.lease = d.floorCap ∧ y.allot = (d.pav p).allot ∧ y.logical = (d.pav p).logical ∧ (∀ k, k ≠ p → r.pav k = d.pav k) ∧
        r.clearOp = rest .pavilion)) ∧
    (op.stopDone = true → op.todo.contains (ResKind.block, p) = true →
      Ends (.resourceClear .block p) s { d.setBlk p { CisBlk.reset with allot := a } with clearOp := rest .block }) ∧
    (op.stopDone = true → op.todo.contains (ResKind.vector, p) = true →
      Ends (.resourceClear .vector p) s { d.setMsix p Msix.reset with clearOp := rest .vector }) ∧
    (op.stopDone = true → op.todo.contains (ResKind.plot, p) = true →
      Ends (.resourceClear .plot p) s (if d.mem.isOwing p then d else { d with clearOp := rest .plot })) ∧
    (op.stopDone = true → op.todo.contains (ResKind.queue, p) = true →
      Ends (.resourceClear .queue p) s (if op.revokeDone then { d with clearOp := rest .queue } else d)) ∧
    (op.stopDone = true → op.todo.contains (ResKind.share, p) = true →
      (d.drainShare p (d.allot a).token = some d1 → Ends (.resourceClear .share p) s { d1 with clearOp := rest .share }) ∧
      (d.drainShare p (d.allot a).token = none → Ends (.resourceClear .share p) s d)) ∧
    (op.revokeDone = true → op.todo = [] → op.relDone = false →
      (op.unbind = false ∨ (∀ r ∈ op.named, ¬ waits r) →
        EndsIn .release s (fun r => r.clearOp = none ∧ (r.allot a).serial = (d.allot a).serial + 1 ∧
          (op.unbind = true → op.whole = true → ∃ l, r.allot a = { Allot.reset with serial := (d.allot a).serial + 1, lastUnbind := l } ∧ (op.seq, op.list) ∈ l) ∧
          (op.unbind = false ∨ op.whole = false → (r.allot a).st = .bound ∧ (r.allot a).token = (d.allot a).token) ∧
          (op.unbind = true → ∀ k, (ResKind.pavilion, k) ∈ op.named → (r.pav k).allot = 0 ∧ (r.pav k).logical = none) ∧
          (op.unbind = false → ∀ q, (d.queue q).allot = a → (d.queue q).st = .clearing → (d.queue q).armHeld = false → (d.queue q).released = false →
            (r.queue q).st = .paused) ∧
          ∀ k, k ≠ a → r.allot k = d.allot k)) ∧
      (op.unbind = true → (∃ r ∈ op.named, waits r) →
        EndsIn .release s (fun r => (∃ o, r.clearOp = some o ∧ o.relDone = true ∧ ∀ k, k ∈ o.named ↔ k ∈ op.named ∧ waits k) ∧
          (r.allot a).serial = (d.allot a).serial + 1 ∧ (r.allot a).st = (d.allot a).st ∧
          (∀ q, (d.queue q).st = .clearing → (d.queue q).released = false → (ResKind.queue, q) ∉ op.named → (r.queue q).st = .clearing) ∧
          ∀ k, k ≠ a → r.allot k = d.allot k))))

/-- INSTALL puts a delivered key of the allotment's token in the slot of the next epoch, with its counter at 0, and WEPOCH moves to it; one that is there already completes with OK, and one that fails its checks with BAD_DESCRIPTOR. RETIRE of an epoch that no page of its
check ranges carries empties the slot and erases the key; of an epoch that is not there it completes with OK; a page that carries it stops the RETIRE and is named in ALT_KEY_CHECK; the writing epoch and a malformed body are refused. The tag entries are read in host memory as a list
is. -/
def Obligations.PageKeys : Prop :=
  ∀ (s : State) (e : Exec) (k : KeyEntry) (ks : KeySlot) (tags : List TagEntry) (err : HostEnd) (ras : Option RasErr),
    let d := s.dev
    let a := e.allotNo
    let t := d.allot a
    let able := e.rangePages = [] ∨ d.mayReadHost 0 = true ∧ d.atsLost 0 = false ∧ err = .ok
    let erring := fun (i : Instr) => (d.queue 0).st ≠ .error →
      (d.atsLost 0 = true ∨ err = .noPermission → EndsIn i s (fun r => (r.queue 0).st = .error ∧ (r.queue 0).reason = 7 ∧ r.allots = d.allots)) ∧
      (d.atsLost 0 = false → err = .fault → EndsIn i s (fun r => (r.queue 0).st = .error ∧ (r.queue 0).reason = 8 ∧ r.allots = d.allots))
    let h := BitVec.ofNat 32 (e.f 0x24 0 32)
    let ep := BitVec.ofNat 2 (e.f 0x21 4 2)
    let done := fun (r : Dev) (st : Nat) => (r.exec? 0 e.seq).map (fun x => (x.complete, x.status)) = some (true, st)
    let bad := e.headBad = true ∨ a = 0 ∨ e.f 0x21 4 4 ≠ 0 ∨ e.f 0x22 0 16 ≠ 0 ∨ h = 0 ∨ e.f 0x28 0 704 ≠ 0
    let held := t.slot0.map (·.handle) = some h ∨ t.slot1.map (·.handle) = some h
    d.startable 0 e.seq 11 = some e → e.complete = false → e.replayed = false →
    (e.f 0x21 0 4 = 1 →
      (bad → Ends (.install e.seq) s (d.finishOp e.seq 0x21)) ∧ (¬ bad → held → Ends (.install e.seq) s (d.finishOp e.seq 0)) ∧
      (¬ bad → ¬ held → d.keys.find? (fun x => x.handle == h) = none → Ends (.install e.seq) s (d.finishOp e.seq 0x21)) ∧
      (¬ bad → ¬ held → d.keys.find? (fun x => x.handle == h) = some k →
        (k.token ≠ t.token ∨ k.installed = true ∨ t.slotAt t.nextEpoch ≠ none ∨ t.st = .unbound → Ends (.install e.seq) s (d.finishOp e.seq 0x21)) ∧
        (k.token = t.token → k.installed = false → t.slotAt t.nextEpoch = none → t.st ≠ .unbound →
          EndsIn (.install e.seq) s (fun r => (r.allot a).wepoch = t.wepoch + 1 ∧ (r.allot a).slotFor (t.wepoch + 1) = some ⟨t.wepoch + 1, h, 0⟩ ∧
            (r.allot a).slotFor t.wepoch = t.slotFor t.wepoch ∧ (∀ x ∈ r.keys, x.handle = h → x.installed = true) ∧ done r 0 ∧
            ∀ n, n ≠ a → r.allot n = d.allot n)))) ∧
    (e.f 0x21 0 4 = 2 →
      (e.retireBad t = true → Ends (.retire ⟨e.seq, err, ras⟩ tags) s (d.finishOp e.seq 0x21)) ∧
      (e.retireBad t = false → t.slotFor ep = none → Ends (.retire ⟨e.seq, err, ras⟩ tags) s (d.finishOp e.seq 0)) ∧
      (e.retireBad t = false → t.slotFor ep = some ks →
        (ep = t.wepoch → Ends (.retire ⟨e.seq, err, ras⟩ tags) s (d.finishOp e.seq 0x21)) ∧
        (ep ≠ t.wepoch → tags.length = e.ranges.foldl (fun n r => n + r.2) 0 → e.rangePages ≠ [] →
          (d.mayReadHost 0 = false → Ends (.retire ⟨e.seq, err, ras⟩ tags) s d) ∧ (d.mayReadHost 0 = true → erring (.retire ⟨e.seq, err, ras⟩ tags))) ∧
        (ep ≠ t.wepoch → tags.length = e.ranges.foldl (fun n r => n + r.2) 0 → able →
          ((∀ x ∈ e.rangePages.zip tags, ¬ (x.2.valid = true ∧ x.2.epoch = ep)) →
            EndsIn (.retire ⟨e.seq, err, ras⟩ tags) s (fun r => (r.allot a).slotFor ep = none ∧ (r.allot a).wepoch = t.wepoch ∧
              (∀ x ∈ r.keys, x.handle ≠ ks.handle) ∧ done r 0 ∧ r.mem = d.mem)) ∧
          (∀ x, (e.rangePages.zip tags).find? (fun p => p.2.valid && p.2.epoch == ep) = some x →
            EndsIn (.retire ⟨e.seq, err, ras⟩ tags) s (fun r => r.allots = d.allots ∧ r.keys = d.keys ∧ done r 0x21 ∧
              (r.reg Reg.ALT_KEY_CHECK_LO).toNat = (x.1 % 2 ^ 32 + a) % 2 ^ 32 ∧ (r.reg Reg.ALT_KEY_CHECK_HI).toNat = x.1 / 2 ^ 32 % 2 ^ 32)))))

/-! ### The Trellis (chapter 9) -/

/-- The training of a port. EN 1 starts Detect at four lanes where the port may run, EN 0 idles it; the stages follow one another when every lane tried passes; a lane that fails
narrows the port from lanes 0 to 3 to lanes 0, 1 and then to lanes 2, 3, and at last, or at once with X4_ONLY, makes it FAILED; Exchange leads to MISMATCH, NO_ID, CONFLICT or ACTIVE by the first check that fails;
a failing lane takes its pair out of the width; a retry starts at the width the port had narrowed to; a port that left ACTIVE keeps what it holds and is ACTIVE again with its replay buffer sent again, or, after 5 ms, DOWN with what it held discarded and counted. RETRAIN reads 0 once training has ended. Where a port leaves ACTIVE the routes are checked: a destination that none reaches any more is declared unreachable once and loses its stream. TRL_MODULE_ID. A write that would change the ID while a port is enabled, or to 0xFFFF, is dropped whole; LOCK 1 locks the register, after which the ID stays; a change stores the new ID, closes every stream to another module, the messages that have no outcome ending as REMOTE, forgets
every receive stream, and then serves what waits. -/
def Obligations.PortTraining : Prop :=
  (∀ (s : State) (port : Px) (lanes : BitVec 4) (lane : Fin 4) (peer : PeerInfo) (n : Nat),
    let d := s.dev
    let p := port.val
    let x := d.port p
    let cfg := Reg.TRL_PORT_CFG p
    let x4 := d.fld cfg F.TRL_PORT_CFG_X4_ONLY = 1
    let c := Config.linkCredits + 1
    let start := fun (w : BitVec 4) => ({ x with st := .detect, lanes := 0, tryLanes := w } : Port)
    let first : BitVec 4 := if x.narrowed = true ∧ d.fld cfg F.TRL_PORT_CFG_X4_ONLY = 0 then 0x3 else 0xF
    let narrows := fun (i : Instr) =>
      (x4 ∨ (x.tryLanes ≠ 0xF ∧ x.tryLanes ≠ 0x3) → Ends i s ((d.setPort p { x with st := .failed, lanes := 0 }).setFld cfg F.TRL_PORT_CFG_RETRAIN 0)) ∧
      (¬ x4 → x.tryLanes = 0xF → Ends i s (d.setPort p (start 0x3))) ∧
      (¬ x4 → x.tryLanes = 0x3 → Ends i s (d.setPort p (start 0xC)))
    let back := fun (i : Instr) (y : Port) => EndsIn i s (fun r => r.port p = { y with st := .active, away := false, replayTries := 0 } ∧
      (∀ q, q ≠ p → r.port q = d.port q) ∧ r.outbox = d.outbox ++ x.replay.map (.flit p) ∧ r.fld cfg F.TRL_PORT_CFG_RETRAIN = 0 ∧
      r.pavs = d.pavs ∧ r.mem = d.mem ∧ r.qs = d.qs)
    let meets := fun (i : Instr) =>
      let y := { x with peerId := peer.id, peerPort := peer.port }
      let reach := d.fld cfg F.TRL_PORT_CFG_REACH
      let wrong := 2 ≤ reach ∨ peer.reach.toNat ≠ reach
      let named := peer.id ≠ 0 ∧ peer.id ≠ 0xFFFF
      (wrong → Ends i s ((d.setPort p { y with st := .mismatch }).setFld cfg F.TRL_PORT_CFG_RETRAIN 0)) ∧
      (¬ wrong → ¬ named → Ends i s ((d.setPort p { y with st := .noId }).setFld cfg F.TRL_PORT_CFG_RETRAIN 0)) ∧
      (¬ wrong → named → peer.id = d.moduleId → Ends i s ((d.setPort p { y with st := .conflict }).setFld cfg F.TRL_PORT_CFG_RETRAIN 0)) ∧
      (¬ wrong → named → peer.id ≠ d.moduleId → x.away = true → back i { y with lanes := x.tryLanes, narrowed := x.tryLanes != 0xF }) ∧
      (¬ wrong → named → peer.id ≠ d.moduleId → x.away = false → Ends i s ((d.setPort p { y with
        st := .active, lanes := x.tryLanes, narrowed := x.tryLanes != 0xF, rxSeq := 0, txSeq := 0, ackSent := 0, replay := [], replayTries := 0,
        nakAt := none, tail := [], rx := [], debt := [], cred0 := c, cred1 := c, owed0 := 0, owed1 := 0 }).setFld
          cfg F.TRL_PORT_CFG_RETRAIN 0))
    let leaves := fun (d : Dev) (l : BitVec 4) (n : Bool) =>
      ((d.leaveActive p).setPort p { x with st := .retrain, away := true, lanes := l, narrowed := n }).checkRoutes
    let cut := fun (d : Dev) => leaves d (if x4 then 0 else x.lanes &&& (if lane.val < 2 then 0xC else 0x3)) (x.narrowed || !decide x4)
    let counted := d.bump (Reg.TRL_PORT_LANE_CE p lane.val) F.TRL_PORT_LANE_CE_SYMBOLS n
    let en := d.setFld cfg F.TRL_PORT_CFG_EN 1
    (x.st = .disabled → en.portOn p = true → Ends (.portEnable port true) s (en.setPort p (start 0xF))) ∧
    (x.st ≠ .disabled ∨ en.portOn p = false → Ends (.portEnable port true) s en) ∧
    Ends (.portEnable port false) s
      (((((d.setFld cfg F.TRL_PORT_CFG_EN 0).leaveActive p).setPort p { Port.reset with queue := x.queue }).setFld cfg F.TRL_PORT_CFG_RETRAIN 0).checkRoutes) ∧
    (d.portOn p = true →
      let e := d.setFld cfg F.TRL_PORT_CFG_RETRAIN 1
      (x.st = .active ∨ x.st = .retrain → Ends (.retrain port) s (leaves e 0xF false)) ∧
      (x.st ≠ .active → x.st ≠ .retrain → Ends (.retrain port) s (e.setPort p { start 0xF with narrowed := false }))) ∧
    (d.portOn p = false → Ends (.retrain port) s d) ∧
    (x.st = .detect →
      (x.tryLanes &&& lanes = x.tryLanes → Ends (.detect port lanes) s (d.setPort p { x with st := .equalise })) ∧
      (x.tryLanes &&& lanes ≠ x.tryLanes → Ends (.detect port lanes) s d) ∧
      (x.tryLanes.toNat.testBit lane.val = true → narrows (.detectTimeout port lane))) ∧
    (x.st = .equalise →
      (x.tryLanes &&& lanes = x.tryLanes → Ends (.equalise port lanes) s (d.setPort p { x with st := .fecLock })) ∧
      (x.tryLanes &&& lanes ≠ x.tryLanes → narrows (.equalise port lanes))) ∧
    (x.st = .fecLock → Ends (.fecLock port) s (d.setPort p { x with st := .exchange })) ∧
    (x.st = .exchange → meets (.exchange port peer)) ∧
    (d.portOn p = true → x.st = .mismatch ∨ x.st = .noId ∨ x.st = .conflict → meets (.exchangeRetry port peer)) ∧
    (d.portOn p = true → x.st = .failed → Ends (.failedRetry port) s (d.setPort p (start first))) ∧
    (d.portOn p = true → x.st = .down → Ends (.downRetry port) s (d.setPort p (start first))) ∧
    (x.st = .active ∨ x.st = .retrain → x.lanes.toNat.testBit lane.val = true → Ends (.laneLockLoss port lane) s (cut d)) ∧
    (x.st = .active → x.lanes.toNat.testBit lane.val = true → (d.reg (Reg.TRL_PORT_LANE_THRESH p)).toNat < n →
      Ends (.laneErrorWindow port lane n) s (cut counted)) ∧
    (x.st ≠ .active ∨ x.lanes.toNat.testBit lane.val = false ∨ n ≤ (d.reg (Reg.TRL_PORT_LANE_THRESH p)).toNat →
      Ends (.laneErrorWindow port lane n) s counted) ∧
    (x.st = .retrain → x.lanes ≠ 0 →
      back (.retrainEnd port) x) ∧
    (x.st = .retrain → x.lanes = 0 → Ends (.retrainEnd port) s d) ∧
    (x.away = true → Ends (.portDown port) s
      ((((d.setPort p { x with st := .down, away := false, lanes := 0, replay := [], queue := [], replayTries := 0, tail := [], rx := [] }).drops
        (x.replay.length + x.queue.length + tailFrames x.tail)).setFld cfg F.TRL_PORT_CFG_RETRAIN 0).checkRoutes)) ∧
    (x.away = false → Ends (.portDown port) s d) ∧
    ((∀ m ∈ d.toward, d.routeDead m = false) → d.trl.dead = [] → d.checkRoutes = d) ∧
    (∀ m, d.toward = [m] → d.routeDead m = true → d.trl.dead = [] →
      d.checkRoutes = ((({ d.unreachEvent m with trl := { d.trl with dead := [m.toNat] } } : Dev).closeRemote m).serveWaiting) ∧
      (d.unreachEvent m).fld Reg.TRL_UNREACH_ID F.TRL_UNREACH_ID_ID = m.toNat ∧ (d.unreachEvent m).fld Reg.TRL_UNREACH_EVT ⟨0, 1⟩ = 1)) ∧
  (∀ (s : State) (v : Word32),
    let d := s.dev
    let new := F.TRL_MODULE_ID_ID.get v
    let old := d.fld Reg.TRL_MODULE_ID F.TRL_MODULE_ID_ID
    let locked := d.fld Reg.TRL_MODULE_ID F.TRL_MODULE_ID_LOCK = 1
    let busy := ∃ p, p < 18 ∧ d.fld (Reg.TRL_PORT_CFG p) F.TRL_PORT_CFG_EN = 1
    let lock := if F.TRL_MODULE_ID_LOCK.get v = 1 then d.setFld Reg.TRL_MODULE_ID F.TRL_MODULE_ID_LOCK 1 else d
    let idd := lock.setFld Reg.TRL_MODULE_ID F.TRL_MODULE_ID_ID new
    let closed := idd.toward.foldl Dev.closeRemote idd
    (¬ locked → new ≠ old → busy ∨ new = 0xFFFF → Ends (.trlModuleId v) s d) ∧
    (locked ∨ new = old → Ends (.trlModuleId v) s lock) ∧
    (¬ locked → ¬ busy → new ≠ 0xFFFF → new ≠ old →
      Ends (.trlModuleId v) s (({ closed with trl := { closed.trl with recv := [] } } : Dev).serveWaiting) ∧
      ((∀ k t, d.sendStream k = some t → t.rewind = []) → d.trl.orphans = [] → d.trl.resend = [] → d.trl.waiting = [] → (∀ e ∈ d.trl.send, e.1 < 65536) →
        EndsIn (.trlModuleId v) s (fun r =>
          r.fld Reg.TRL_MODULE_ID F.TRL_MODULE_ID_ID = new ∧ r.trl.recv = [] ∧ (∀ k, r.sendStream k = none) ∧
          (F.TRL_MODULE_ID_LOCK.get v = 1 → r.fld Reg.TRL_MODULE_ID F.TRL_MODULE_ID_LOCK = 1) ∧ r.pavs = d.pavs ∧ r.mem = d.mem ∧ r.qs = d.qs))))

/-- Link flits and frames in transit. A flit with a correct CRC and the expected sequence is taken: its header releases flits and returns credits, and the whole frames it completes go to their stream or on their way; any other brings a NAK, but for those that follow the one so answered in sequence. A NAK sends again every
buffered flit from the expected one on, and one more at the flit that 8 replays did not bring over retrains the port. A frame that an ACTIVE port received for another module takes a port of the first group with an ACTIVE one, with one hop less, or is dropped and counted; a
queued frame that has waited is dropped and counted. -/
def Obligations.LinkTransit : Prop :=
  ∀ (s : State) (port : Px) (flit : Flit) (fr : Frame) (tv : Bool) (k : Nat) (done rest : List Flit) (e : BitVec 16),
    let d := s.dev
    let p := port.val
    let x := d.port p
    let ok := Flit.crcOk flit = true ∧ flit.seq = x.rxSeq
    let got := unpack 16 (Flit.tvs flit) (if x.rx = [] then none else some x.rxTv) (x.rx ++ flit.data)
    let ones := (got.1.filter Prod.snd).length
    let y := x.takeHeader flit
    let tries := if done = [] then x.replayTries else 0
    let bad := fr.typ.toNat = 0 ∨ 8 < fr.typ.toNat ∨ fr.hops = 0 ∨ fr.dst = 0 ∨ fr.dst = 0xFFFF
    (x.st = .active →
      (ok → Ends (.linkFlit port flit) s (got.1.foldl (fun d e => d.frameIn p e) (d.setPort p
        { y with rxSeq := x.rxSeq + 1, nakAt := none, rx := got.2.1, rxTv := got.2.2, owed0 := x.owed0 + (got.1.length - ones), owed1 := x.owed1 + ones }))) ∧
      (Flit.crcOk flit = true → flit.seq ≠ x.rxSeq →
        (x.nakAt ≠ some (flit.seq - 1) → Ends (.linkFlit port flit) s ((d.setPort p { x with nakAt := some flit.seq }).emit (.nak p x.rxSeq))) ∧
        (x.nakAt = some (flit.seq - 1) → Ends (.linkFlit port flit) s (d.setPort p { x with nakAt := some flit.seq }))) ∧
      (Flit.crcOk flit = false → EndsIn (.linkFlit port flit) s (fun r => r.outbox = d.outbox ++ [.nak p x.rxSeq] ∧
        r.port p = { x with nakAt := some (match x.nakAt with | some n => n + 1 | none => x.rxSeq) } ∧ (∀ q, q ≠ p → r.port q = d.port q) ∧
        (∀ a, a ≠ Reg.TRL_PORT_FEC_UE p → r.reg a = d.reg a) ∧ r.trl.send = d.trl.send ∧ r.pavs = d.pavs ∧ r.mem = d.mem ∧ r.qs = d.qs)) ∧
      (x.replay = done ++ flit :: rest → (∀ f ∈ done, f.seq ≠ flit.seq) →
        (tries = 8 → Ends (.linkNak port flit.seq) s (((d.leaveActive p).setPort p { x with st := .retrain, away := true }).checkRoutes)) ∧
        (tries ≠ 8 → EndsIn (.linkNak port flit.seq) s (fun r => r.outbox = d.outbox ++ (flit :: rest).map (.flit p) ∧
          r.port p = { x with replay := flit :: rest, replayTries := tries + 1 } ∧
          (∀ q, q ≠ p → r.port q = d.port q) ∧ r.trl.send = d.trl.send ∧ r.pavs = d.pavs ∧ r.mem = d.mem ∧ r.qs = d.qs))) ∧
      ((∀ f ∈ x.replay, f.seq ≠ e) → Ends (.linkNak port e) s d)) ∧
    (x.st ≠ .active → Ends (.linkFlit port flit) s d ∧ Ends (.linkNak port e) s d ∧ Ends (.frameForward port fr tv) s d) ∧
    (y.cred0 = x.cred0 + Flit.credit0 flit ∧ y.cred1 = x.cred1 + Flit.credit1 flit ∧ (∃ l, x.replay = l ++ y.replay) ∧
      (Flit.ack flit = x.txSeq → y.replay = [])) ∧
    (x.st = .active →
      (fr.dst = d.moduleId → fr.dst ≠ 0 → Ends (.frameForward port fr tv) s d) ∧
      (fr.dst ≠ d.moduleId ∨ fr.dst = 0 →
        (bad ∨ d.routePort fr = none → Ends (.frameForward port fr tv) s (d.raise Reg.TRL_DROP_EVT)) ∧
        (∀ q, ¬ bad → d.routePort fr = some q → Ends (.frameForward port fr tv) s
          (d.enqueue q { fr with hops := fr.hops - 1 } (d.dateline q || (tv && d.sameGroup p q)))))) ∧
    (∀ q, d.routePort fr = some q → q < 18 ∧ (d.port q).st = .active ∧ fr.dst ≠ d.moduleId ∧
      ∃ g ∈ d.routes fr.dst, g < 18 ∧ (d.reg (Reg.TRL_GROUP g)).toNat.testBit q = true) ∧
    (x.queue.any (fun e => e.1 == k) = true → Ends (.frameHoldTimeout port k) s
      ((d.setPort p { x with queue := x.queue.filter (fun e => e.1 != k) }).raise Reg.TRL_DROP_EVT)) ∧
    (x.queue.any (fun e => e.1 == k) = false → Ends (.frameHoldTimeout port k) s d)

/-- The sending side of a stream. OPEN_ACK opens it and sends what waits; ACK releases what lies below its cursor, NAK and a timeout resend what is left, in order; RESET and the retry after FULL open it afresh under a nonce that is neither 0 nor the last one,
with every message not concluded put back in order; a quiet stream closes, its messages without an outcome kept; an unreachable destination ends its messages as REMOTE. Never more than 4,096 frames or 4 MiB are unacknowledged. The receiving side: OPEN makes a stream at EXPECT 0, and is answered FULL when 8,192 streams exist; the frame of the expected sequence and the stream's nonce is accepted once; a frame already accepted is acknowledged again, one ahead brings NAK once in a
microsecond, and one of another nonce or of no stream brings RESET. A frame of a reserved type, or for module 0 or 0xFFFF, is dropped and counted; one for another module is not for a stream here. A stream with nothing to acknowledge is closed when idle. -/
def Obligations.MessageStreams : Prop :=
  (∀ (s : State) (fr : Frame) (t : SendStream) (f : Frame) (us fs : List Frame) (n q sq : Nat),
    let d := s.dev
    let m := fr.src
    let cursor := BitVec.ofNat 32 (Frame.arg fr 32 32)
    let u := { t with unack := us.drop n, msgs := t.msgs.filter (fun e => (e.2.1 != .control && e.2.1 != .reply) || (us.drop n).any (fun f => f.msg == e.1)) }
    let opened := d.setSend m (some { t with isOpen := true, full := false, lastSent := d.clock })
    let reopens := fun (i : Instr) => EndsIn i s (fun e => (∃ v, e.sendStream m = some v ∧ v.isOpen = false ∧ v.full = false ∧ v.nonce ≠ 0 ∧
      v.nonce ≠ Tab.get 0 d.trl.lastNonce m.toNat ∧ v.nextSeq = 0 ∧ v.nextMsg = 0 ∧ v.unack = [] ∧ v.left = [] ∧ v.msgs = [] ∧ v.backlog = t.rewind) ∧
      (∀ k : BitVec 16, k ≠ m → e.sendStream k = d.sendStream k) ∧ e.pavs = d.pavs ∧ e.mem = d.mem ∧ e.qs = d.qs)
    d.sendStream m = some t →
    (d.isStream fr 2 = true → t.nonce = fr.nonce → t.isOpen = false →
      Ends (.streamOpenAck fr) s (opened.pump m) ∧ (t.backlog = [] → t.left = [] → Ends (.streamOpenAck fr) s opened) ∧
      (t.left = [] → t.unack = [] → t.msgs = [] → ∀ o, t.backlog = [([f], o)] → f.payload.length ≤ 1024 →
        Ends (.streamOpenAck fr) s ((d.setSend m (some { t with
          isOpen := true, full := false, lastSent := d.clock, backlog := [], nextSeq := t.nextSeq + 1, nextMsg := t.nextMsg + 1, msgs := [(t.nextMsg, o, [f])],
          unack := [{ f with seq := t.nextSeq, nonce := t.nonce, msg := t.nextMsg }] })).inject { f with seq := t.nextSeq, nonce := t.nonce, msg := t.nextMsg }))) ∧
    (t.isOpen = true → t.unack.length ≤ 4096 → (t.unack.map (fun f => f.payload.length)).sum ≤ 2 ^ 22 → ∃ v, (d.pump m).sendStream m = some v ∧
      v.unack.length ≤ 4096 ∧ (v.unack.map (fun f => f.payload.length)).sum ≤ 2 ^ 22 ∧ v.backlog = [] ∧ v.unack ++ v.left = t.unack ++ t.takeIn.left) ∧
    (d.isStream fr 6 = true → t.nonce = fr.nonce → t.isOpen = false → Ends (.streamFull fr) s (d.setSend m (some { t with full := true }))) ∧
    (t.full = true → t.isOpen = false → reopens (.streamOpenRetry m)) ∧
    (t.full = false ∨ t.isOpen = true → Ends (.streamOpenRetry m) s d) ∧
    (d.isStream fr 5 = true → t.nonce = fr.nonce → t.isOpen = true → reopens (.streamReset fr)) ∧
    (t.nonce = fr.nonce → t.isOpen = true →
      (d.isStream fr 3 = true → Ends (.streamAck fr) s (((d.setSend m (some (t.ack cursor))).pump m).serveWaiting)) ∧
      (t.left = [] → t.unack = us → us.head? = some f → (cursor - f.seq).toNat = n → n ≤ us.length → t.ack cursor = u) ∧
      (t.unack = us → us.head? = some f → us.length < (cursor - f.seq).toNat → t.ack cursor = t) ∧
      (d.isStream fr 4 = true → Ends (.streamNak fr) s
        ((((t.ack cursor).unack.foldl Dev.inject (d.setSend m (some (t.ack cursor))))).pump m))) ∧
    (t.isOpen = true → Ends (.streamRetransmit m) s (t.unack.foldl Dev.inject d)) ∧
    (t.isOpen = false → t.full = false → Ends (.streamRetransmit m) s (d.inject (d.streamFrame m 1 0 t.nonce))) ∧
    (t.isOpen = false → t.full = true → Ends (.streamRetransmit m) s d) ∧
    (let quiet := t.isOpen = true ∧ t.unack = [] ∧ t.left = [] ∧ t.backlog = [];
      (quiet → Ends (.streamIdleClose ⟨m, false⟩) s
        (({ d.setSend m none with trl := { (d.setSend m none).trl with orphans := d.trl.orphans ++ t.msgs.map (fun k => (m, k.1, k.2.1, k.2.2)) } } : Dev).serveWaiting)) ∧
      (¬ quiet → Ends (.streamIdleClose ⟨m, false⟩) s d.serveWaiting ∧ Ends (.unreachTimeout m) s ((d.unreach m).serveWaiting)) ∧
      (quiet → Ends (.unreachTimeout m) s d)) ∧
    (d.trl.waiting = [] → d.serveWaiting = d) ∧
    (d.trl.orphans = [] → d.trl.retried = [] → d.trl.resend = [] →
      (t.rewind = [] → d.closeRemote m = d.setSend m none) ∧ (t.rewind = [(fs, .send q sq)] → d.closeRemote m = (d.setSend m none).finish q sq 0x40))) ∧
  (∀ (s : State) (fr : Frame) (r : RecvStream),
    let d := s.dev
    let m := fr.src
    let back := (r.expect - fr.seq).toNat
    let answers_ := fun (d : Dev) (op : Nat) (e : Word32) => d.inject (d.streamFrame m op e fr.nonce)
    let nobody := fr.dst = 0 ∨ fr.dst = 0xFFFF
    (d.isStream fr 1 = true →
      ((d.recvStream m).isSome = true ∨ d.trl.recv.length < 8192 →
        Ends (.streamOpen fr) s (answers_ (d.setRecv m (some ⟨fr.nonce, 0, 0, [], [], none⟩)) 2 0)) ∧
      (d.recvStream m = none → 8192 ≤ d.trl.recv.length → Ends (.streamOpen fr) s (answers_ d 6 0))) ∧
    (d.isStream fr 1 = false → Ends (.streamOpen fr) s d) ∧
    (nobody → Ends (.sequencedFrame fr) s (d.raise Reg.TRL_DROP_EVT)) ∧
    (¬ nobody → fr.dst ≠ d.moduleId ∨ fr.typ = 8 → Ends (.sequencedFrame fr) s d) ∧
    (¬ nobody → fr.dst = d.moduleId → fr.typ.toNat = 0 ∨ 8 < fr.typ.toNat → Ends (.sequencedFrame fr) s (d.raise Reg.TRL_DROP_EVT)) ∧
    (¬ nobody → fr.dst = d.moduleId → 1 ≤ fr.typ.toNat → fr.typ.toNat ≤ 7 →
      (d.recvStream m = none ∨ (d.recvStream m = some r ∧ r.nonce ≠ fr.nonce) → Ends (.sequencedFrame fr) s (answers_ d 5 0)) ∧
      (d.recvStream m = some r → r.nonce = fr.nonce →
        let u := { r with expect := r.expect + 1, sinceAck := (r.sinceAck + 1) % 64 }
        let took := { d.setRecv m (some u) with trl := { (d.setRecv m (some u)).trl with inbox := d.trl.inbox ++ [fr] } }
        (fr.seq = r.expect → Ends (.sequencedFrame fr) s (if r.sinceAck + 1 = 64 then answers_ took 3 (r.expect + 1) else took)) ∧
        (1 ≤ back → back ≤ 2 ^ 31 → Ends (.sequencedFrame fr) s (answers_ d 3 r.expect)) ∧
        (2 ^ 31 < back → r.nakAt ≠ some d.clock →
          Ends (.sequencedFrame fr) s (answers_ (d.setRecv m (some { r with nakAt := some d.clock })) 4 r.expect)) ∧
        (2 ^ 31 < back → r.nakAt = some d.clock → Ends (.sequencedFrame fr) s d))) ∧
    (d.recvStream m = some r → Ends (.streamIdleClose ⟨m, true⟩) s (if r.sinceAck = 0 then d.setRecv m none else d)) ∧
    (d.recvStream m = none → Ends (.streamIdleClose ⟨m, true⟩) s d))

/-- An accepted message that is the next of its stream for its destination; any other waits. A message is decided at its frame of OFFSET 0, and the decision stands for its later frames. A refusal of Table 9-7 changes nothing but what the reply needs. BED_DATA that leaves the bed or touches running code is RANGE; a post's lands; an RSEND's lands when its group is
the share's and its ordinal above the highest landed, else it is discarded, and in both cases its event is handled. An EVENT of the running share's group with a new ordinal is counted. A CONTRIB is decided at its block by its header, and counted when it is whole. PLOT_DATA and SEND_DATA land in the
plot, SEND_DATA only while its sequence is fresh. MSG_ACK takes the message it names out of those that wait, and its outcome goes to the transfer, packet, post or SEND it belongs to. -/
def Obligations.ReceivedMessages : Prop :=
  ∀ (s : State) (fr : Frame) (d d1 d2 : Dev) (b p : Nat) (o o2 : Outcome8),
    let a := d.allotOfToken fr.token
    let arg := Frame.arg fr
    let last := fr.last = true
    let plain := d.refusal a fr = none ∧ d.decided fr .landed = .landed
    let refused_ := d.refusal a fr = some o ∧ d.decided fr o = o
    let pav := d.pavOf a (arg 0 8)
    let user := MemUser.frame fr.src.toNat fr.msg.toNat fr.off.toNat
    (s.dev.stalled = true → ∀ ty, s.dev.takeFrame fr ty = none) ∧
    (∀ e ∈ ([(ftBedData, .bedData fr), (ftEvent, .event fr), (ftContrib, .contrib fr), (ftPlotData, .plotData fr), (ftSendData, .sendData fr),
      (ftMsgAck, .msgAck fr)] : List (Byte × Instr)), s.dev.takeFrame fr e.1 = none → Ends e.2 s s.dev) ∧
    (∀ w, d.recorded fr = some o → d.decided fr w = o) ∧ (∀ w, d.recorded fr = none → d.decided fr w = w) ∧
    (s.dev.takeFrame fr ftBedData = some d →
      let row := d.decided fr (d.bedRow a fr)
      let event := (row = .landed ∨ row = .discarded) ∧ last ∧ arg 16 1 = 1
      (pav = none → Ends (.bedData fr) s (d.concludeMsg fr row)) ∧
      (pav = some p →
        let e := if row = .landed then d.landBed fr p else d
        (¬ event → Ends (.bedData fr) s (e.concludeMsg fr row)) ∧
        (event → e.landEvent fr p = (d2, o2) → Ends (.bedData fr) s (d2.concludeMsg fr o2)))) ∧
    (let at_ := arg 32 22 + fr.off.toNat
      let x := d.pav p
      let k := x.srcMark fr.src (arg 8 8)
      let out := bedSize < at_ + fr.payload.length ∨ x.share ≠ none ∧ x.hitsCode at_ (at_ + fr.payload.length : Nat) = true
      let new := ∃ sh, x.share = some sh ∧ BitVec.ofNat 32 (arg 64 32) = sh.group ∧ k.landOrd < arg 96 32;
      (d.refusal a fr = some o → d.bedRow a fr = o) ∧
      (d.refusal a fr = none → pav = none → d.bedRow a fr = .access) ∧
      (d.refusal a fr = none → pav = some p →
        (out → d.bedRow a fr = .range) ∧
        (¬ out → 0xC0 ≤ arg 8 8 ∨ new → d.bedRow a fr = .landed) ∧
        (¬ out → arg 8 8 < 0xC0 → ¬ new → d.bedRow a fr = .discarded)) ∧
      (0xC0 ≤ arg 8 8 → d.landBed fr p = d.setPav p ((if out then x else x.bedWrite at_ fr.payload).noteRx none)) ∧
      (arg 8 8 < 0xC0 → new → d.landBed fr p = d.setPav p
        ((let y := if out then x else x.bedWrite at_ fr.payload; if last then y.setSrc { k with landOrd := arg 96 32 } else y).noteRx none)) ∧
      (arg 8 8 < 0xC0 → ¬ new → d.landBed fr p = d)) ∧
    (s.dev.takeFrame fr ftEvent = some d →
      (d.recorded fr = some o → Ends (.event fr) s (d.concludeMsg fr o)) ∧
      (d.recorded fr = none →
      (d.refusal a fr = some o → Ends (.event fr) s (d.concludeMsg fr o)) ∧
      (d.refusal a fr = none → pav = none → Ends (.event fr) s (d.concludeMsg fr .access)) ∧
      (d.refusal a fr = none → pav = some p → d.landEvent fr p = (d1, o) → Ends (.event fr) s (d1.concludeMsg fr o)) ∧
      (∀ sh, d.refusal a fr = none → pav = some p → (d.pav p).share = some sh → sh.group = BitVec.ofNat 32 (arg 64 32) →
        let x := d.pav p
        let k := x.srcMark fr.src (arg 8 8)
        let n := BitVec.ofNat 6 (arg 17 6)
        k.evOrd < arg 96 32 → (k.evOrd = 0 → (x.srcs.filter (fun j => j.evOrd != 0)).length < 256) → (x.evc n).toNat + arg 32 32 < 2 ^ 32 →
        EndsIn (.event fr) s (fun r => (r.pav p).evc n = x.evc n + BitVec.ofNat 32 (arg 32 32) ∧ (∀ j, j ≠ n → (r.pav p).evc j = x.evc j) ∧
          (r.pav p).bed = x.bed ∧ (r.pav p).s = x.s ∧ (∀ q, q ≠ p → r.pav q = d.pav q) ∧ r.mem = d.mem ∧ r.allots = d.allots)))) ∧
    (s.dev.takeFrame fr ftContrib = some d →
      let k := Packet.ofBytes (d.partOf fr)
      let kept := d.keepPart fr
      let at_ := { k with blk := b }
      (kept.recorded fr = none →
        (kept.refusal a fr = some .access → Ends (.contrib fr) s (kept.concludeMsg fr .access)) ∧
        (kept.refusal a fr = some .retry → Ends (.contrib fr) s (kept.concludeMsg fr (if kept.blkRefused a k.blk = true then .access else .retry))) ∧
        (kept.refusal a fr = none → kept.blkOf a k.blk = none → Ends (.contrib fr) s (kept.concludeMsg fr .access)) ∧
        (kept.refusal a fr = none → kept.blkOf a k.blk = some b →
          (last → Ends (.contrib fr) s (let e := kept.decidePacket a b at_; e.1.concludeMsg fr e.2)) ∧
          (∀ pr n, fr.last = false → kept.packetRow a b at_ = .accept pr n → Ends (.contrib fr) s (kept.concludeMsg fr .landed)) ∧
          (fr.last = false → (∀ pr n, kept.packetRow a b at_ ≠ .accept pr n) →
            Ends (.contrib fr) s (let e := kept.decidePacket a b at_; e.1.concludeMsg fr e.2)))) ∧
      (kept.recorded fr = some o →
        (o ≠ .landed ∨ fr.last = false ∨ kept.blkOf a k.blk = none → Ends (.contrib fr) s (kept.concludeMsg fr o)) ∧
        (o = .landed → last → kept.blkOf a k.blk = some b →
          (∀ pr n, kept.packetRow a b at_ = .accept pr n → Ends (.contrib fr) s ((kept.acceptPacket b at_ pr n).concludeMsg fr .landed)) ∧
          ((∀ pr n, kept.packetRow a b at_ ≠ .accept pr n) → Ends (.contrib fr) s (kept.concludeMsg fr .landed))))) ∧
    (s.dev.takeFrame fr ftPlotData = some d →
      let row := d.decided fr (match d.refusal a fr with
        | some o => o
        | none => if d.plotMA a (BitVec.ofNat 64 (arg 0 41)) fr.payload.length = none then .access else .landed)
      let at_ := d.plotMA a (BitVec.ofNat 64 (arg 0 41 + fr.off.toNat)) fr.payload.length
      (row ≠ .landed → row ≠ .memory → Ends (.plotData fr) s (d.concludeMsg fr row)) ∧
      (row = .landed ∨ row = .memory →
        (at_ = none → Ends (.plotData fr) s (d.concludeMsg fr row)) ∧
        (∀ ma, at_ = some ma →
          (d.memWrite user ma fr.payload = (d1, .wait) → Ends (.plotData fr) s { d1 with trl := { d1.trl with inbox := fr :: d1.trl.inbox } }) ∧
          (∀ r, d.memWrite user ma fr.payload = (d1, r) → r ≠ .wait →
            Ends (.plotData fr) s (d1.concludeMsg fr (if row = .memory ∨ r = .bad then .memory else .landed)))))) ∧
    (s.dev.takeFrame fr ftSendData = some d →
      let q := arg 41 12
      let seq := arg 64 64
      (refused_ → o = .access ∨ o = .retry → Ends (.sendData fr) s (d.concludeMsg fr o)) ∧
      (d.refusal a fr = none → d.plotMA a (BitVec.ofNat 64 (arg 0 41)) fr.payload.length = none → d.decided fr .access = .access →
        Ends (.sendData fr) s (d.concludeMsg fr .access)) ∧
      (∀ ma, plain → fr.off = 0 → last → d.plotMA a (BitVec.ofNat 64 (arg 0 41)) fr.payload.length = some ma →
        (∀ r, (d.allot a).sendFresh fr.src q seq = true → d.memWrite user ma fr.payload = (d1, r) → r ≠ .wait → Ends (.sendData fr) s
          (if r = .bad then d1.concludeMsg fr .memory else (d1.updAllot a (fun t => t.sendApplied fr.src q seq)).concludeMsg fr .landed)) ∧
        ((d.allot a).sendFresh fr.src q seq = false → d.decided fr .discarded = .discarded → Ends (.sendData fr) s (d.concludeMsg fr .discarded)))) ∧
    (∀ og fs, s.dev.takeFrame fr ftMsgAck = some d →
      (d.takeMsg fr.src (arg 0 32) = none → Ends (.msgAck fr) s d) ∧
      (d.takeMsg fr.src (arg 0 32) = some (d1, og, fs) → d1.trl.retried = [] →
        let code := arg 32 8
        (code ≤ 6 → Ends (.msgAck fr) s (d1.msgDone fr.src (outcomeOf code) fs og)) ∧
        (∀ q sq p id, og = .xfer q sq p id → (d1.pav p).ownOf = some (q, sq) →
          (code = 0 ∨ code = 1 → Ends (.msgAck fr) s (d1.updPav p (fun x => x.dropXfer id))) ∧
          (code = 2 → Ends (.msgAck fr) s (d1.updPav p (fun x => x.updXfer id (fun t => { t with sent := false, retried := true })))) ∧
          (code = 3 → Ends (.msgAck fr) s (d1.deferFault p id .access)) ∧ (code = 4 → Ends (.msgAck fr) s (d1.deferFault p id .bedRange)) ∧
          (code = 5 → Ends (.msgAck fr) s (d1.deferFault p id .format)) ∧ (code = 6 → Ends (.msgAck fr) s (d1.deferFault p id .memory))) ∧
        (∀ q seq, og = .send q seq →
          (code = 0 ∨ code = 1 → Ends (.msgAck fr) s (d1.finish q seq 0)) ∧ (code = 2 → Ends (.msgAck fr) s (d1.refused fr.src fs og)) ∧
          (code = 6 → Ends (.msgAck fr) s (d1.finish q seq 0x50)) ∧ (code = 3 ∨ code = 4 ∨ code = 5 → Ends (.msgAck fr) s (d1.finish q seq 0x31))) ∧
        (og = .control ∨ og = .reply → Ends (.msgAck fr) s d1)))

/-- The CONTROL messages. PROBE is answered COMMITTED when the block is COMMITTED or carries a newer group, else PENDING (COMMITTED too for a block that is not bound, the model's choice of log 66); PROBE_REPLY marks the contribution done; DONE is counted at home and
answered; DONE_REPLY ends the wait; REPLAY, READY and RESTART move the gang through its phases; REARM has the contributors of the block replayed, at once or when their shares have ended, but not one that was revoked or faulted. Under a token that no allotment carries DONE and REARM are answered COMPLETE (REARM by a
DONE_REPLY, log 80) and the gang messages change nothing. -/
def Obligations.ControlMessages : Prop :=
  ∀ (s : State) (fr : Frame) (d d1 : Dev) (b : Nat),
    let a := d.allotOfToken fr.token
    let g := BitVec.ofNat 32 (Frame.arg fr 64 32)
    let q := Frame.arg fr 26 12
    let blk := Frame.arg fr 16 10
    let seq := leNat (fr.payload.take 8)
    let who := (fr.src, q, seq)
    let answers_ := fun (d : Dev) (sub result : Nat) => d.control fr.src fr.token sub result blk q g seq
    let waits := fun (e : Nat × Exec) => !e.2.issued && !e.2.revoked && e.2.faultRank.isNone && e.2.contribs.any (fun k =>
      (d.allot a).modules[k.module]? == some fr.src && k.blk == blk && k.group == g)
    (∀ e ∈ ([(1, .probe fr), (2, .probeReply fr), (3, .done fr), (4, .doneReply fr), (5, .replay fr), (6, .ready fr), (7, .restart fr),
      (8, .rearm fr)] : List (Nat × Instr)), s.dev.takeControl fr e.1 = none → Ends e.2 s s.dev) ∧
    (s.dev.takeControl fr 1 = some d →
      (d.blkOf a blk = some b →
        let old := (d.blk b).st = .committed ∨ (d.blk b).fresh = false ∧ groupNewer (d.blk b).group g = true
        (old → Ends (.probe fr) s (answers_ d 2 1)) ∧ (¬ old → Ends (.probe fr) s (answers_ d 2 2))) ∧
      (d.blkOf a blk = none → Ends (.probe fr) s (answers_ d 2 1))) ∧
    (s.dev.takeControl fr 2 = some d →
      (Frame.arg fr 8 8 ≠ 1 → Ends (.probeReply fr) s d) ∧
      (Frame.arg fr 8 8 = 1 → Ends (.probeReply fr) s (d.updExec q seq (fun e => { e with contribs := e.contribs.map (fun k =>
        if (d.allot a).modules[k.module]? = some fr.src ∧ k.blk = blk ∧ k.group = g then { k with done := true } else k) })))) ∧
    (s.dev.takeControl fr 3 = some d →
      (a ≠ 0 → d.homeDone a g who = (d1, true) → Ends (.done fr) s (answers_ d1 4 1)) ∧
      (a ≠ 0 → d.homeDone a g who = (d1, false) → Ends (.done fr) s (answers_ d1 4 2)) ∧
      (a = 0 → Ends (.done fr) s (answers_ d 4 1))) ∧
    (s.dev.takeControl fr 4 = some d →
      (Frame.arg fr 8 8 = 1 → Ends (.doneReply fr) s (d.updExec q seq (fun e => { e with gangDone := true }))) ∧
      (Frame.arg fr 8 8 ≠ 1 → Ends (.doneReply fr) s d)) ∧
    (s.dev.takeControl fr 5 = some d → Ends (.replay fr) s (if a = 0 then d else d.beginReplay a g)) ∧
    (s.dev.takeControl fr 6 = some d → Ends (.ready fr) s (if a = 0 then d else d.homeReady a g who)) ∧
    (s.dev.takeControl fr 7 = some d → Ends (.restart fr) s (if a = 0 then d else d.gangRestart a g)) ∧
    (s.dev.takeControl fr 8 = some d →
      (a = 0 → Ends (.rearm fr) s (answers_ d 4 1)) ∧
      (a ≠ 0 → Ends (.rearm fr) s (((d.execsOf a).filter waits).foldl (fun d e =>
        if e.2.complete then d.replayAll e.1 e.2.seq else d.updExec e.1 e.2.seq (fun x => { x with rearm := true })) d)))

/-! ### The Orangery (chapter 10) -/

/-- The automatic zone loop: its output lies between umin_eff and umax, it holds the integrator while the valves stand unpowered, a transfer takes over the output it is given, and the integrator stays a 32-bit value. A conversion is stored as its kind limits it. LOOP_SAMPLE, of any
conversions, leaves shares, memory, queues, blocks and allotments alone; of one zone in automatic mode it stores output and integrator, in manual mode the limited manual output, and a zone just switched off stops its channel. A following error is raised once; a keep-warm load is put on the idle
cold Pavilions of the zone. -/
def Obligations.ZoneLoops : Prop :=
  (∀ (d : Dev) (z : Nat) (e : Int) (um : Option Int) (held : Bool),
    let o := d.autoLoop z e um held
    (um = none ∨ held = true → d.uminEff z ≤ d.qReg (Reg.ORG_ZONE_UMAX z) → d.uminEff z ≤ o.u ∧ o.u ≤ d.qReg (Reg.ORG_ZONE_UMAX z)) ∧
    (held = true → o.i = d.qReg (Reg.ORG_ZONE_INTEG z)) ∧ (∀ u, um = some u → held = false → o.u = u) ∧
    -2147483648 ≤ o.i ∧ o.i ≤ 2147483647) ∧
  (∀ (d : Dev) (n : Nat) (v : BitVec 16) (isOpen : Bool) (kind : SKind), sensorKind n = some kind →
    ((d.convert n v isOpen).sensor n).seen = true ∧ ((d.convert n v isOpen).sensor n).value = limitValue kind v isOpen) ∧
  (∀ (s : State) (z : Zx) (core : Nat) (conv : List Conversion),
    let d := s.dev
    let k := z.val
    let y : Int := d.reading k * 512
    let e := (qSub y (d.qReg (Reg.ORG_ZONE_SP k))).1
    let o := d.autoLoop k e none false
    let above := d.qReg (Reg.ORG_ZONE_READ k) - d.qReg (Reg.ORG_ZONE_SP k)
    EndsIn (.loopSample conv) s (fun r => r.mem = d.mem ∧ r.qs = d.qs ∧ r.blks = d.blks ∧ r.allots = d.allots ∧
      ∀ p, (r.pav p).share = (d.pav p).share ∧ (r.pav p).bed = (d.pav p).bed ∧ (r.pav p).s = (d.pav p).s) ∧
    (d.pair.swap = false → d.activeCore = some core → d.coreSt (otherCore core) ≠ 2 → d.tripBits = 0 → d.loopsHeld = false → d.org.ready = none →
      (∀ j, j < 12 → j ≠ k → d.fld (Reg.ORG_ZONE_CFG j) F.ORG_ZONE_CFG_EN = 0 ∧ (d.zone j).on = false) →
      (d.fld (Reg.ORG_ZONE_CFG k) F.ORG_ZONE_CFG_EN = 0 → (d.zone k).on = true →
        EndsIn (.loopSample []) s (fun r => r.zone k = Zone.reset ∧ (r.chan k).cmd = some .stop)) ∧
      (d.fld (Reg.ORG_ZONE_CFG k) F.ORG_ZONE_CFG_EN = 1 → d.fld (Reg.ORG_ZONE_CFG k) F.ORG_ZONE_CFG_MODE = 0 →
        EndsIn (.loopSample []) s (fun r => r.qReg (Reg.ORG_ZONE_OUT k) = min 65536 (max 0 (d.qReg (Reg.ORG_ZONE_MAN k))) ∧
          r.qReg (Reg.ORG_ZONE_INTEG k) = d.qReg (Reg.ORG_ZONE_INTEG k) ∧ (r.zone k).on = true)) ∧
      (d.fld (Reg.ORG_ZONE_CFG k) F.ORG_ZONE_CFG_EN = 1 → d.fld (Reg.ORG_ZONE_CFG k) F.ORG_ZONE_CFG_MODE = 1 →
      (d.zone k).on = true → (d.zone k).auto = true → (d.zone k).wasHeld = false →
      EndsIn (.loopSample []) s (fun r => r.qReg (Reg.ORG_ZONE_OUT k) = o.u ∧ r.qReg (Reg.ORG_ZONE_INTEG k) = o.i ∧
        r.qReg (Reg.ORG_ZONE_MAN k) = o.u ∧ (r.zone k).on = true ∧ (∀ j, j ≠ k → r.zone j = d.zone j) ∧
        (∀ j, j ≠ k → r.chan j = { d.chan j with verify := (r.chan j).verify }) ∧ r.pavs = d.pavs ∧ r.mem = d.mem ∧ r.qs = d.qs))) ∧
    ((d.zone k).on = true → (d.zone k).fe = false → ((d.fld (Reg.ORG_ZONE_FE k) F.ORG_ZONE_FE_LIMIT * 512 : Nat) : Int) < above →
      d.qReg (Reg.ORG_ZONE_OUT k) = d.qReg (Reg.ORG_ZONE_UMAX k) →
      Ends (.zoneFollowingError z) s (((d.updZone k (fun x => { x with fe := true })).raise (Reg.ORG_ZONE_FE_EVT k)).raiseWarn 1 k)) ∧
    ((d.zone k).on = false ∨ (d.zone k).fe = true ∨ above ≤ ((d.fld (Reg.ORG_ZONE_FE k) F.ORG_ZONE_FE_LIMIT * 512 : Nat) : Int) ∨
      d.qReg (Reg.ORG_ZONE_OUT k) ≠ d.qReg (Reg.ORG_ZONE_UMAX k) → Ends (.zoneFollowingError z) s d) ∧
    (d.fld Reg.ORG_CTRL F.ORG_CTRL_KW_LOAD_EN = 0 ∨ d.keepWarm k = false ∨ (d.zone k).on = false → Ends (.keepWarmLoad z) s d) ∧
    (d.fld Reg.ORG_CTRL F.ORG_CTRL_KW_LOAD_EN = 1 → d.keepWarm k = true → (d.zone k).on = true → d.qReg (Reg.ORG_ZONE_OUT k) = d.uminEff k →
      EndsIn (.keepWarmLoad z) s (fun r => r = { d with org := { d.org with kwLoad := r.org.kwLoad } } ∧
        ∀ p, p ∈ r.org.kwLoad ↔ p ∈ d.org.kwLoad ∨ (20 * k ≤ p ∧ p < 20 * k + 20 ∧ (d.pav p).share = none ∧
          ∃ t, d.pavTemp p = some t ∧ t < (d.fld Reg.ORG_KW_CFG F.ORG_KW_CFG_LB * 128 : Nat)))))

/-- Power: the grants of a period never exceed the demands, are never below the floor and sum to at most the budget. LEASE_PERIOD keeps and publishes ceiling and budget, raises no lease at once but keeps the higher grants for HIGHER_GRANTS, and grants the
floor under a clamp, under ISOLATE_N and with leases off; without an active core both change nothing. FLOW_FOLLOWING_ERROR starts or ends at its limits, CAP_BUS_TIMEOUT ends the bus capacity's validity, and a predictor run, when the predictor runs, has outputs without a NaN that take effect when it completes. -/
def Obligations.PowerLeases : Prop :=
  (∀ (ds : List Nat) (floor b : Nat), (∀ x ∈ ds, floor ≤ x) → floor * ds.length ≤ b →
    (grantsOf ds floor b).sum ≤ b ∧ (grantsOf ds floor b).length = ds.length ∧
    (∀ e ∈ ds.zip (grantsOf ds floor b), e.2 ≤ e.1 ∧ floor ≤ e.2) ∧ (ds.sum ≤ b → grantsOf ds floor b = ds)) ∧
  (∀ (s : State) (metered : List Meter) (p g core : Nat) (m : Bytes) (o : List Nat),
    let d := s.dev
    let short := d.fld Reg.ORG_FLOW_REQ F.ORG_FLOW_REQ_REQ - d.flow
    let lim := d.fld Reg.ORG_FLOW_CFG F.ORG_FLOW_CFG_FE_LIMIT * 1024
    let outs := d.predOutputs m
    (d.activeCore = some core →
      EndsIn (.leasePeriod metered) s (fun r => r.reg Reg.ORG_CEIL = BitVec.ofNat 32 (d.ceiling.1 / 1024 + 65536 * (d.budget / 16)) ∧ r.org.ceil = d.ceiling.1 ∧ r.org.budget = d.budget ∧
        (∀ q, (r.pav q).lease ≤ (d.pav q).lease) ∧ (∀ e ∈ r.org.higher, e.1 < 160 ∧ (d.pav e.1).lease < e.2) ∧
        (∀ q, (r.pav q).bed = (d.pav q).bed ∧ (r.pav q).share = (d.pav q).share ∧ (r.pav q).s = (d.pav q).s) ∧
        (d.fld Reg.ORG_CTRL F.ORG_CTRL_LEASE_EN = 0 ∨ d.clamp = true ∨ d.isolateN = true →
          ∀ q, q < 160 → d.floorCap ≤ (d.pav q).lease → (r.pav q).lease = d.floorCap) ∧ r.mem = d.mem ∧ r.qs = d.qs) ∧
      (let e := d.org.higher.foldl (fun d e => d.sendGrant e.1 e.2) d;
        Ends .higherGrants s { e with org := { e.org with higher := [] } }) ∧
      (d.org.higher = [(p, g)] → Ends .higherGrants s { d.sendGrant p g with org := { d.org with higher := [] } })) ∧
    (d.activeCore = none → Ends (.leasePeriod metered) s d ∧ Ends .higherGrants s d) ∧
    ((d.org.flowFe = false ∧ 100 * short ≤ lim) ∨ (d.org.flowFe = true ∧ lim < 200 * short) → Ends .flowFollowingError s d) ∧
    (d.org.flowFe = false → lim < 100 * short →
      Ends .flowFollowingError s (({ d with org := { d.org with flowFe := true } } : Dev).raiseWarn 0 28)) ∧
    (d.org.flowFe = true → 200 * short ≤ lim →
      Ends .flowFollowingError s (({ d with org := { d.org with flowFe := false } } : Dev).endWarn 0)) ∧
    Ends .capBusTimeout s (d.setFld Reg.ORG_BUS_CAP F.ORG_BUS_CAP_VALID 0) ∧
    (d.org.nextModel = none → d.predRuns = false → Ends .predictorRun s d) ∧
    (d.org.run = none → Ends .predictorRunComplete s d) ∧
    (d.org.nextModel = none → d.org.model = some m → d.predRuns = true → outs.any fpNan = false →
      Ends .predictorRun s { d with org := { d.org with run := some outs } }) ∧
    (d.org.nextModel = some m → d.fld Reg.ORG_CTRL F.ORG_CTRL_PRED_EN = 1 → d.isGated 19 = false →
      EndsIn .predictorRun s (fun r => r.org.model = some m ∧ r.org.nextModel = none ∧ ∃ l, r.org.run = some l ∧ ∀ c ∈ l, fpNan c = false)) ∧
    (d.org.run = some o → Ends .predictorRunComplete s { d with org := { d.org with run := none, ready := some o } }))

/-- A trip latches its hazard, clamps every governor to the floor frequency, takes the power from every valve channel and asks for full flow; it changes nothing else of any Pavilion. HAZARD_QUIESCE quiesces compute while a hazard is latched; a leak is acknowledged only when dry. A lost heartbeat, with its
watchdog on, takes the power from the valves and asks for full flow, and the third of a run of edges in time clears it; ISOLATE_N quiesces compute while it is asserted. -/
def Obligations.HazardPath : Prop :=
  ∀ (s : State) (h : Hazard),
    let d := s.dev
    let full := d.fld Reg.ORG_FLOW_REQ F.ORG_FLOW_REQ_QMAX * 32
    let off := fun (r : Dev) => ∀ c, c < 16 → (r.chan c).target = 0 ∧ (r.chan c).level = 0 ∧ (r.chan c).cmd = none ∧ (r.chan c).st ≠ .run ∧
      (r.chan c).st ≠ .defer
    EndsIn (.hazardTrip h) s (fun r => r.latched = d.latched ||| 2 ^ hazIx h ∧ r.clamp = true ∧ off r ∧ r.org.higher = [] ∧
      r.fld (Reg.ORG_HAZ_EVT (hazIx h)) ⟨0, 1⟩ = 1 ∧ r.fld Reg.ORG_FLOW_REQ F.ORG_FLOW_REQ_REQ = full % 2 ^ 16 ∧
      (∀ p, p < 160 → (r.pav p) = { d.pav p with freq := 400, settling := (d.pav p).settling || !d.clamp }) ∧
      r.mem = d.mem ∧ r.qs = d.qs ∧ r.blks = d.blks ∧ r.allots = d.allots) ∧
    (d.latched ≠ 0 → Ends .hazardQuiesce s { d with org := { d.org with hazQuiesce := true } } ∧
      (({ d with org := { d.org with hazQuiesce := true } } : Dev).quiesced = true)) ∧
    (d.latched = 0 → Ends .hazardQuiesce s d) ∧
    (d.dryFor = true → Ends .leakAck s { d with org := { d.org with leakAck := true } }) ∧
    (d.dryFor = false → Ends .leakAck s d) ∧
    (d.fld Reg.SUN_HB_CFG F.SUN_HB_CFG_EN = 1 → d.hbLost = false →
      EndsIn .hbLost s (fun r => r.hbLost = true ∧ off r ∧ r.fld Reg.ORG_FLOW_REQ F.ORG_FLOW_REQ_REQ = full % 2 ^ 16 ∧
        r.fld (Reg.SUN_HB_EVT 0) ⟨0, 1⟩ = 1 ∧ r.pavs = d.pavs ∧ r.mem = d.mem)) ∧
    (d.fld Reg.SUN_HB_CFG F.SUN_HB_CFG_EN = 0 ∨ d.hbLost = true → Ends .hbLost s d) ∧
    (let near := ∃ t, d.hb.last = some t ∧ d.clock ≤ t + d.hbTimeout
      let clears := d.hbLost = true ∧ near ∧ 2 ≤ d.hb.run ∧ d.fld Reg.SUN_HB_CFG F.SUN_HB_CFG_EN = 1;
      (clears → EndsIn .hbInEdge s (fun r => r.hbLost = false ∧ r.hb.last = some d.clock ∧ r.pavs = d.pavs)) ∧
      (¬ clears → near → Ends .hbInEdge s { d with hb := ⟨some d.clock, min 3 (d.hb.run + 1)⟩ }) ∧
      (¬ near → Ends .hbInEdge s { d with hb := ⟨some d.clock, 1⟩ })) ∧
    (d.isolateN = true → Ends .isolateNAssert s d) ∧ (d.isolateN = false → Ends .isolateNRelease s d) ∧
    (d.isolateN = false → EndsIn .isolateNAssert s (fun r => r.isolateN = true ∧ r.quiesced = true ∧ r.fld (Reg.SUN_HB_EVT 1) ⟨0, 1⟩ = 1 ∧
      r.pavs = d.pavs ∧ r.vdr = d.vdr)) ∧
    (d.isolateN = true → EndsIn .isolateNRelease s (fun r => r.isolateN = false ∧ r.pavs = d.pavs ∧ r.vdr = d.vdr ∧
      (r.quiesced = (d.org.hazQuiesce || d.energised 12 || d.energised 13))))

/-! ### The valve drive (chapter 11) -/

/-- The ten Fountain instructions of a running channel that waits for nothing, with the operands Table 11-4 allows; with any other operands the channel is in FAULT. The ends of the waits go on at the next address, that of a WAITI when the current is near the target or the timeout has come; a deferred channel enters BOOST when nothing holds it. A channel that waits, or does not run, executes nothing. -/
def Obligations.FountainInstructions : Prop :=
  ∀ (s : State) (c : Cx) (w : FtnF) (cur : BitVec 12) (t m : Nat),
    let d := s.dev
    let k := c.val
    let x := d.chan k
    let a := w.a.toNat
    let b := w.b.toNat
    let fault := fun (i : Instr) => Ends i s (d.faultChan k)
    let takes := fun (i : Instr) (y : Chan) => Ends i s ((d.setChan k y).retarget k)
    let next := { x with pc := (x.pc + 1) % 256 }
    (x.st = .run → x.wait = none →
      (a = 0 ∧ b = 0 → Ends (.off c w) s (d.cutChan k .idle)) ∧ (¬ (a = 0 ∧ b = 0) → fault (.off c w)) ∧
      (b = 0 → a = 1 → d.mustDefer k = true →
        Ends (.phase c w) s ((d.setChan k { x with st := .defer, deferSince := some d.clock }).raise (Reg.VDR_CH_EVT k 0))) ∧
      (b = 0 → a = 1 → d.mustDefer k = false → takes (.phase c w)
        { next with phase := .boost, boostSince := match x.boostSince with | some t => some t | none => some d.clock }) ∧
      (b = 0 → a = 2 → takes (.phase c w) { next with phase := .hold, boostSince := none }) ∧
      (b = 0 → a = 3 → takes (.phase c w) { next with phase := .release, boostSince := none }) ∧
      (b ≠ 0 ∨ a = 0 ∨ 3 < a → fault (.phase c w)) ∧
      (a = 0 → b < 4096 → takes (.seti c w) { next with src := .fixed b }) ∧ (a ≠ 0 ∨ 4096 ≤ b → fault (.seti c w)) ∧
      (b = 0 → takes (.setl c w) { next with src := .mul a }) ∧ (b ≠ 0 → fault (.setl c w)) ∧
      (a = 0 → b ≠ 0 → Ends (.wait c w) s (d.setChan k { x with wait := some (.time (d.clock + b)) }) ∧
        Ends (.waiti c w) s (d.setChan k { x with wait := some (.current (d.clock + b)) })) ∧
      (a ≠ 0 ∨ b = 0 → fault (.wait c w) ∧ fault (.waiti c w)) ∧
      (a = 0 → b = 0 → Ends (.holdw c w) s (d.setChan k { x with wait := some .hold })) ∧ (a ≠ 0 ∨ b ≠ 0 → fault (.holdw c w)) ∧
      (b = 0 → a < 3 → Ends (.pwm c w) s (d.setChan k { next with pwm := a })) ∧ (b ≠ 0 ∨ 3 ≤ a → fault (.pwm c w)) ∧
      (b = 0 → Ends (.fountainJmp c w) s (d.setChan k { x with pc := a })) ∧ (b ≠ 0 → fault (.fountainJmp c w)) ∧
      (b ≠ 0 → takes (.rampl c w) { x with src := .ramp (if k = 14 ∧ d.paired = true then 2 * x.target else x.target) a b d.clock, wait := some (.ramp (d.clock + b)) }) ∧
      (b = 0 → fault (.rampl c w))) ∧
    (x.st ≠ .run ∨ x.wait ≠ none → ∀ i, i = .off c w ∨ i = .phase c w ∨ i = .seti c w ∨ i = .setl c w ∨ i = .wait c w ∨ i = .waiti c w ∨
      i = .holdw c w ∨ i = .pwm c w ∨ i = .fountainJmp c w ∨ i = .rampl c w → Ends i s d) ∧
    (x.wait = some (.time t) → Ends (.waitEnd c) s (d.setChan k { next with wait := none })) ∧
    (x.wait = some (.current t) →
      let near := 16 * (cur.toNat - x.target) ≤ x.target ∧ 16 * (x.target - cur.toNat) ≤ x.target;
      (near ∨ t ≤ d.clock → Ends (.waitiEnd c cur) s (d.setChan k { next with wait := none, current := cur.toNat })) ∧
      (¬ near → d.clock < t → Ends (.waitiEnd c cur) s (d.setChan k { x with current := cur.toNat }))) ∧
    (∀ from_ us since, x.wait = some (.ramp t) → x.src = .ramp from_ m us since →
      Ends (.ramplEnd c) s ((d.setChan k { next with wait := none, src := .mul m }).follow k)) ∧
    (∀ since, x.st = .defer → x.deferSince = some since → d.mustDefer k = false → EndsIn (.boostDeferEnd c) s (fun r =>
      (r.chan k).st = .run ∧ (r.chan k).phase = .boost ∧ (r.chan k).deferSince = none ∧ (r.chan k).pc = (x.pc + 1) % 256 ∧
      r.reg (Reg.VDR_CH_LAST_DEFER k) = BitVec.ofNat 32 (d.clock - since) ∧ r.pavs = d.pavs))

/-- The commands of a channel and its protection. A command waits for the channel's slot in the place of one that waits, whose START is counted, and refreshes the watchdog of the Orangery's channels. In its slot one that is refused changes nothing else; START restarts the program from ENTRY and is counted, the target as it was, LEVEL changes the level, or starts an idle channel, STOP continues from RELEASE; no target exceeds the limits. The watchdog sends STOP to the Orangery's channels after 50 ms without a command. A first trip is
TRIPPED, a second within 10 s LOCKOUT; an open load is OPEN; a missing rail forces every channel off. The check of a valve ends with its window: isolation valves are judged by the flow, those of zones 0 to 7 by the coolant when heat, hazards and other checks allow it, and the third failure in a row makes the valve SUSPECT; for zones 8 to 11, for which the manual gives no measure of the heat, the check ends. A write of VDR_CTRL changes EDIT only while every channel is
idle or to 0, and MAXBOOST only while it is not locked; CYCLES_SAVE puts every count in flash. -/
def Obligations.ValveCommands : Prop :=
  (∀ (s : State) (c : Cx) (l : BitVec 12) (cur mv : BitVec 16) (ok : Bool),
    let d := s.dev
    let k := c.val
    let x := d.chan k
    let sent : Chan := { x with cycles := match x.cmd with | some (.start _) => min (2 ^ 32 - 1) (x.cycles + 1) | _ => x.cycles }
    let base : Chan := { x with cmd := none }
    let waits := fun (i : Instr) (y : Chan) => EndsIn i s (fun r => r.chan k = y ∧ (∀ j, j ≠ k → r.chan j = d.chan j) ∧
      r.vdr.lastCmd = (if d.operatorOwned k = true then d.vdr.lastCmd else some d.clock) ∧ r.regs = d.regs ∧ r.pavs = d.pavs ∧ r.mem = d.mem)
    let took := d.takeCmd k
    let due := ∃ u, d.vdr.lastCmd = some u ∧ u + 50000 ≤ d.clock
    let cut := fun (r : Dev) (st : ChSt) => (r.chan k).st = st ∧ (r.chan k).target = 0 ∧ (r.chan k).phase = .none ∧ (r.chan k).level = x.level ∧
      (∀ j, j < 14 → j ≠ k → r.chan j = d.chan j) ∧ r.pavs = d.pavs ∧ r.mem = d.mem
    let runs := fun (r : Dev) => (r.chan k).st = .run ∧ (r.chan k).wait = none ∧ (r.chan k).cmd = none ∧ (∀ j, j < 14 → j ≠ k → r.chan j = d.chan j) ∧
      r.pavs = d.pavs ∧ r.mem = d.mem
    let starts := fun (r : Dev) => runs r ∧ (r.chan k).level = l.toNat ∧ (r.chan k).pc = (d.progOf k).1 ∧ (r.chan k).target = x.target ∧
      (r.chan k).phase = x.phase ∧ (r.chan k).cycles = min (2 ^ 32 - 1) (x.cycles + 1)
    let kept := fun (r : Dev) => r.chan k = base ∧ (∀ j, j ≠ k → r.chan j = d.chan j) ∧ r.regs = d.regs ∧ r.pavs = d.pavs
    (∀ j, ((d.retarget j).chan j).target ≤ d.chLimit j ∧ d.chLimit j ≤ 3500 ∧
      ((d.retarget j).chan j).target ≤ if (d.chan j).boosting then 3000 else 1000) ∧
    waits (.start c l) { sent with cmd := some (.start l.toNat), lastStart := some d.clock } ∧
    waits (.level c l) { sent with cmd := some (.level l.toNat) } ∧ waits (.stop c) { sent with cmd := some .stop } ∧
    d.slot k = took.runSlot k ∧ (x.cmd = none → took = d) ∧
    (d.refuses k = true → x.cmd ≠ none → kept took) ∧
    (d.editing = true → x.cmd = some (.start l.toNat) ∨ x.cmd = some (.level l.toNat) → kept took) ∧
    (d.refuses k = false → d.editing = false →
      (x.cmd = some (.start l.toNat) → starts took) ∧
      (x.cmd = some (.level l.toNat) →
        (x.st = .idle → l ≠ 0 → starts took) ∧
        (x.st = .idle → l = 0 → took.chan k = { base with level := 0 } ∧ (∀ j, j ≠ k → took.chan j = d.chan j) ∧ took.pavs = d.pavs) ∧
        (x.st ≠ .idle → (took.chan k).level = l.toNat ∧ (took.chan k).pc = x.pc ∧ (took.chan k).st = x.st ∧
          (took.chan k).cycles = x.cycles ∧ (took.chan k).phase = x.phase ∧ took.pavs = d.pavs ∧ took.mem = d.mem) ∧
        (x.st = .defer → (took.chan k).target ≤ x.target))) ∧
    (d.refuses k = false → x.cmd = some .stop →
      (x.st = .idle ∨ x.st = .fault → kept took) ∧
      (x.st ≠ .idle → x.st ≠ .fault → runs took ∧ (took.chan k).pc = (d.progOf k).2 ∧ (took.chan k).level = x.level)) ∧
    (due → EndsIn .commandWatchdog s (fun r => r.vdr.lastCmd = none ∧
      (∀ j, j < 16 → d.operatorOwned j = false → (r.chan j).cmd = some .stop ∧ (r.chan j).st = (d.chan j).st) ∧
      (∀ j, d.operatorOwned j = true → r.chan j = { d.chan j with verify := (r.chan j).verify }) ∧ r.regs = d.regs ∧ r.pavs = d.pavs)) ∧
    (¬ due → Ends .commandWatchdog s d) ∧
    (x.boosting = true → EndsIn (.boostTimeout c) s (fun r => cut r .fault ∧ r.fld (Reg.VDR_CH_EVT k 5) ⟨0, 1⟩ = 1)) ∧
    (d.fitted k = true → 4500 ≤ cur.toNat ∨ d.chLimit k < cur.toNat →
      (∀ t, x.tripAt = some t → d.clock ≤ t + 10000000 → EndsIn (.channelTrip c cur) s (fun r => cut r .lockout ∧ (r.chan k).tripAt = some d.clock)) ∧
      ((x.tripAt = none ∨ ∃ t, x.tripAt = some t ∧ t + 10000000 < d.clock) → EndsIn (.channelTrip c cur) s (fun r => cut r .tripped ∧
        r.fld (Reg.VDR_CH_EVT k 2) ⟨0, 1⟩ = 1 ∧ (r.chan k).tripAt = some d.clock))) ∧
    (d.fitted k = false ∨ (cur.toNat < 4500 ∧ cur.toNat ≤ d.chLimit k) → Ends (.channelTrip c cur) s d) ∧
    (x.st = .tripped → Ends (.tripRecovery c) s (d.setChan k { x with st := .idle })) ∧
    (d.fitted k = true →
      (200 ≤ x.target → EndsIn (.openLoad c) s (fun r => cut r .openLoad ∧ r.fld (Reg.VDR_CH_EVT k 3) ⟨0, 1⟩ = 1)) ∧
      (x.st = .idle → Ends (.offStateTest c true) s d ∧ EndsIn (.offStateTest c false) s (fun r => cut r .openLoad)) ∧
      (x.st = .openLoad → ok = true → x.offPass = 2 → Ends (.offStateTest c ok) s (d.setChan k { x with offPass := 0, st := .idle })) ∧
      (x.st = .openLoad → ok = false → Ends (.offStateTest c ok) s (d.setChan k { x with offPass := 0 })) ∧
      (x.st ≠ .idle → x.st ≠ .openLoad → Ends (.offStateTest c ok) s d) ∧
      (x.st = .openLoad → ok = true → x.offPass < 2 → Ends (.offStateTest c ok) s (d.setChan k { x with offPass := x.offPass + 1 }))) ∧
    (x.st = .lockout ∨ x.st = .openLoad → Ends (.channelReset c) s (d.setChan k { x with st := .idle, offPass := 0 })) ∧
    (x.st ≠ .lockout → x.st ≠ .openLoad → Ends (.channelReset c) s d) ∧ (x.st ≠ .tripped → Ends (.tripRecovery c) s d) ∧
    (x.boosting = false → Ends (.boostTimeout c) s d) ∧
    (d.fitted k = false ∨ x.target < 200 → Ends (.openLoad c) s d) ∧ (d.fitted k = false → Ends (.offStateTest c ok) s d) ∧
    (10000 ≤ mv.toNat → Ends (.railUndervoltage mv) s { d with vdr := { d.vdr with railMv := mv.toNat } }) ∧
    (mv.toNat ≤ 10800 → Ends (.railRecovery mv) s { d with vdr := { d.vdr with railMv := mv.toNat } }) ∧
    (mv.toNat < 10000 → EndsIn (.railUndervoltage mv) s (fun r => r.forced = true ∧ r.vdr.railMv = mv.toNat ∧ r.fld Reg.VDR_RAIL_EVT ⟨0, 1⟩ = 1 ∧
      ∀ j, j < 16 → (r.chan j).target = 0 ∧ (r.chan j).level = 0 ∧ (r.chan j).st ≠ .run)) ∧
    (10800 < mv.toNat → Ends (.railRecovery mv) s { d with vdr := { d.vdr with railMv := mv.toNat, railUv := false } })) ∧
  (∀ (s : State) (c : Cx) (v : Verify) (e : Word32),
    let d := s.dev
    let k := c.val
    let x := d.chan k
    let delta : Int := (d.fld Reg.VDR_VERIFY F.VDR_VERIFY_DELTA * 16 : Nat)
    let now := (d.coolTemp k).getD 0
    let moved := if k = 12 ∨ k = 13 then (if v.closing then d.flow < 512 else 820 ≤ d.flow)
      else delta ≤ if v.closing then now - v.base else v.base - now
    let heat := 320 ≤ ((List.range 20).map (fun i => (d.pav (20 * k + i)).lease)).sum
    let judged := k = 12 ∨ k = 13 ∨ (k < 8 ∧ heat ∧ d.latched = 0 ∧ d.forced = false ∧ v.spoiled = false)
    let idle := ∀ j, j < 16 → (d.chan j).st = .idle
    (x.verify = none → Ends (.valveVerify c) s d) ∧
    (x.verify = some v →
      EndsIn (.valveVerify c) s (fun r => (r.chan k).verify = none ∧ r.pavs = d.pavs ∧ r.mem = d.mem) ∧
      (judged → moved → Ends (.valveVerify c) s (d.setChan k
        { x with verify := none, fails := 0, oks := min 3 (x.oks + 1), suspect := x.suspect && decide (x.oks + 1 < 3) })) ∧
      (judged → ¬ moved → x.fails = 2 → x.suspect = false → EndsIn (.valveVerify c) s (fun r =>
        (r.chan k).suspect = true ∧ (r.chan k).fails = 3 ∧ (r.chan k).oks = 0 ∧ r.fld (Reg.VDR_CH_EVT k 4) ⟨0, 1⟩ = 1)) ∧
      (judged → ¬ moved → x.fails < 2 → Ends (.valveVerify c) s (d.setChan k { x with verify := none, fails := x.fails + 1, oks := 0 })) ∧
      (k < 8 → ¬ judged → Ends (.valveVerify c) s (d.setChan k { x with verify := none }))) ∧
    EndsIn (.edit e) s (fun r =>
      (idle ∨ F.VDR_CTRL_EDIT.get e = 0 → r.fld Reg.VDR_CTRL F.VDR_CTRL_EDIT = F.VDR_CTRL_EDIT.get e) ∧
      (¬ idle → F.VDR_CTRL_EDIT.get e = 1 → r.fld Reg.VDR_CTRL F.VDR_CTRL_EDIT = d.fld Reg.VDR_CTRL F.VDR_CTRL_EDIT) ∧
      r.fld Reg.VDR_CTRL F.VDR_CTRL_MAXBOOST =
        (if d.fld Reg.VDR_CTRL F.VDR_CTRL_LOCK = 1 then d.fld Reg.VDR_CTRL F.VDR_CTRL_MAXBOOST else F.VDR_CTRL_MAXBOOST.get e) ∧
      (F.VDR_CTRL_LOCK.get e = 1 ∨ d.fld Reg.VDR_CTRL F.VDR_CTRL_LOCK = 1 → r.fld Reg.VDR_CTRL F.VDR_CTRL_LOCK = 1) ∧
      (∀ a, a ≠ Reg.VDR_CTRL → r.reg a = d.reg a) ∧ r.vdr = d.vdr ∧ r.pavs = d.pavs) ∧
    EndsIn .cyclesSave s (fun r => (∀ j, j < 16 → r.chan j = { d.chan j with saved := (d.chan j).cycles }) ∧ r.regs = d.regs ∧ r.pavs = d.pavs))

/-! ### The thermal bus (chapter 12) -/

/-- The controllers. REQ and CANCEL of an operator mailbox, of one of the module's own, and of one whose identifier is reserved; the frame that enters arbitration is a ready one of the lowest arbitration key; the end of an attempt, of the frame on the bus or else of the one chosen now, leaves the mailbox SENT, LOST or ERROR, or waiting again, and moves the error count; bus-off
holds every waiting frame until recovery ends; a received frame that an operator filter takes goes to the FIFO, or is lost while it is full; an FD frame without FD_EN is an error, and a reserved bit sets its event. A controller that does not hear its bus receives nothing. -/
def Obligations.BusControllers : Prop :=
  ∀ (s : State) (tb : Tb) (k : Fin 64) (lec : BitVec 3) (fr f : CanFrame) (rx : CanRx) (ago : BitVec 32) (first : Bool) (m n : Nat),
    let d := s.dev
    let t := tbIx tb
    let i := k.val
    let id := d.fld (Reg.TBC_MB_ID t i) F.TBC_MB_ID_ID
    let base := if d.fld (Reg.TBC_MB_FLAGS t i) F.TBC_MB_FLAGS_IDE = 1 then id / 2 ^ 18 else id % 2048
    let tec := d.fld (Reg.TBC_ERR t) F.TBC_ERR_TEC
    let st := fun (r : Dev) => r.fld (Reg.TBC_MB_CTRL t m) F.TBC_MB_CTRL_STATE
    let counts := fun (r : Dev) => r.fld (Reg.TBC_ERR t) F.TBC_ERR_TEC
    let bus := fun (r : Dev) => r.fld (Reg.TBC_ERR t) F.TBC_ERR_STATE
    let kept := fun (r : Dev) => r.pavs = d.pavs ∧ r.mem = d.mem ∧ r.qs = d.qs ∧ r.trl = d.trl ∧ r.vdr = d.vdr
    let receives := fun (f : CanFrame) => Instr.canFrameReceive tb (.frame f ago)
    let rec_ := d.fld (Reg.TBC_ERR t) F.TBC_ERR_REC
    let flag := Output.canError t (decide (bus d = 0))
    let msg := fr.rtr = false ∧ fr.fdf = false ∧ fr.dlc = 8
    (i ≤ 15 → Ends (.req tb k) s (d.setCancel t i 3) ∧ Ends (.cancel tb k) s (d.setCancel t i 3)) ∧
    (15 < i → base < 0x340 → Ends (.req tb k) s (d.setMbSt t i 8)) ∧
    (15 < i → 0x340 ≤ base → d.mbSt t i ≠ 2 → Ends (.req tb k) s (d.setMbSt t i (if d.busOff t ∨ d.busNormal t = false then 7 else 1))) ∧
    (15 < i → 0x340 ≤ base → d.mbSt t i = 2 → EndsIn (.req tb k) s (fun r => i ∈ (r.can t).again ∧ r.regs = d.regs ∧ kept r)) ∧
    (15 < i → d.mbSt t i = 1 ∨ d.mbSt t i = 7 → Ends (.cancel tb k) s ((d.setMbSt t i 4).setCancel t i 1)) ∧
    (15 < i → d.mbSt t i = 2 → Ends (.cancel tb k) s ((d.setCancel t i 2).raise (Reg.TBC_EVT t 4))) ∧
    (15 < i → d.mbSt t i ≠ 1 → d.mbSt t i ≠ 7 → d.mbSt t i ≠ 2 → Ends (.cancel tb k) s d) ∧
    (d.mbNext t = some n → n < 64 ∧ d.mbReady t n = true ∧ ∀ j, j < 64 → d.mbReady t j = true → d.arbKey t n ≤ d.arbKey t j) ∧
    (((d.busStart t).can t).onBus = none → ∀ e, Ends (.canTransmitEnd tb e) s d) ∧
    (((d.busStart t).can t).onBus = some (m, f) → m ∈ (d.can t).again → m < 64 →
      EndsIn (.canTransmitEnd tb .sent) s (fun r => (st r = 1 ∨ st r = 7) ∧ Output.can t f ∈ r.outbox ∧ kept r)) ∧
    (((d.busStart t).can t).onBus = some (m, f) → m ∉ (d.can t).again → m < 64 →
      EndsIn (.canTransmitEnd tb .sent) s (fun r => st r = 3 ∧ counts r = tec - 1 ∧ Output.can t f ∈ r.outbox ∧ kept r) ∧
      (d.oneshot t m = true → EndsIn (.canTransmitEnd tb .lostArbitration) s (fun r => st r = 5 ∧ counts r = tec ∧ r.outbox = d.outbox ∧ kept r)) ∧
      (d.oneshot t m = false → EndsIn (.canTransmitEnd tb .lostArbitration) s (fun r => (st r = 1 ∨ st r = 7) ∧ counts r = tec ∧ kept r)) ∧
      (lec = 3 → bus d = 1 → EndsIn (.canTransmitEnd tb (.error lec)) s (fun r => counts r = tec ∧ kept r)) ∧
      (¬ (lec = 3 ∧ bus d = 1) → tec + 8 < 256 → EndsIn (.canTransmitEnd tb (.error lec)) s (fun r => counts r = tec + 8 ∧
        r.fld (Reg.TBC_ERR t) F.TBC_ERR_LEC = lec.toNat ∧ (d.oneshot t m = true → st r = 6) ∧ r.outbox = d.outbox ++ [flag] ∧ kept r)) ∧
      (¬ (lec = 3 ∧ bus d = 1) → 256 ≤ tec + 8 → EndsIn (.canTransmitEnd tb (.error lec)) s (fun r => bus r = 2 ∧ kept r ∧
        ∀ j, j < 64 → r.mbSt t j ≠ 1))) ∧
    (d.busTx t = true → EndsIn (.busOff tb) s (fun r => bus r = 2 ∧ counts r = 255 ∧ (∀ j, j < 64 → r.mbSt t j ≠ 1) ∧
      (r.can t).recovering = (d.fld (Reg.TBC_CTRL t) F.TBC_CTRL_AUTO_RECOVER == 1) ∧ kept r)) ∧
    (d.busTx t = false → Ends (.busOff tb) s d) ∧ (d.busOff t = false → Ends (.recover tb) s d ∧ Ends (.busOffRecoveryEnd tb) s d) ∧
    ((d.can t).recovering = false → Ends (.busOffRecoveryEnd tb) s d) ∧
    (d.busHears t = false → Ends (.canFrameReceive tb rx) s d) ∧
    (d.busHears t = true → fr.fdf = true → d.fld (Reg.TBC_CTRL t) F.TBC_CTRL_FD_EN ≠ 1 →
      (d.busNormal t = false → Ends (receives fr) s d) ∧
      (d.busNormal t = true → EndsIn (receives fr) s (fun r => r.fld (Reg.TBC_ERR t) F.TBC_ERR_LEC = 2 ∧ r.outbox = d.outbox ++ [flag] ∧
        (r.can t).fifo = (d.can t).fifo ∧ kept r))) ∧
    (d.busHears t = true → fr.res = true → d.fld (Reg.TBC_CTRL t) F.TBC_CTRL_FD_EN = 1 → EndsIn (receives fr) s (fun r =>
      r.fld (Reg.TBC_EVT t 3) ⟨0, 1⟩ = 1 ∧ r.reg (Reg.TBC_ERR t) = d.reg (Reg.TBC_ERR t) ∧ r.outbox = d.outbox ∧ 0 < (r.can t).quiet ∧
      (r.can t).fifo = (d.can t).fifo ∧ kept r)) ∧
    ((d.can t).quiet ≠ 0 → d.busStart t = d) ∧
    (d.busHears t = true → d.busNormal t = false → Ends (.canFrameReceive tb (.error lec first)) s d ∧ Ends (.canFrameReceive tb .overload) s d) ∧
    (d.busHears t = true → d.busNormal t = true → Ends (.canFrameReceive tb .overload) s (d.emit (.canOverload t)) ∧
      EndsIn (.canFrameReceive tb (.error lec first)) s (fun r => r.outbox = d.outbox ++ [flag] ∧ r.fld (Reg.TBC_ERR t) F.TBC_ERR_LEC = lec.toNat ∧
        r.fld (Reg.TBC_ERR t) F.TBC_ERR_REC = min 255 (rec_ + if first then 9 else 1) ∧ counts r = tec ∧ kept r)) ∧
    (d.busOff t = true → Ends (.recover tb) s (d.updCan t (fun c => { c with recovering := true }))) ∧
    (d.busOff t = true → (d.can t).recovering = true → EndsIn (.busOffRecoveryEnd tb) s (fun r => bus r = 0 ∧ counts r = 0 ∧
      r.fld (Reg.TBC_ERR t) F.TBC_ERR_REC = 0 ∧ (r.can t).recovering = false ∧ kept r)) ∧
    (d.busHears t = true → ¬ (fr.fdf = true ∧ d.fld (Reg.TBC_CTRL t) F.TBC_CTRL_FD_EN ≠ 1) → ¬ (fr.res = true ∧ d.fld (Reg.TBC_CTRL t) F.TBC_CTRL_FD_EN = 1) →
      (d.busNormal t = true → EndsIn (receives fr) s (fun r => Output.canAck t ∈ r.outbox)) ∧
      (d.filterOf t fr = none → EndsIn (receives fr) s (fun r => (r.can t).fifo = (d.can t).fifo ∧ kept r)) ∧
      (d.filterOf t fr = some n → n ≤ 31 → EndsIn (receives fr) s (fun r => (r.can t).fifo = (d.can t).fifo ∧ r.pavs = d.pavs ∧ r.mem = d.mem ∧
        (n = 2 → msg → r.fld Reg.ORG_BUS_CAP F.ORG_BUS_CAP_WATTS = leNat (fr.data.take 2) % 2 ^ 16 ∧ r.fld Reg.ORG_BUS_CAP F.ORG_BUS_CAP_VALID = 1) ∧
        (n = 3 → msg → Tab.get none r.time.peers 0 = some d.clock) ∧ (n = 4 → msg → Tab.get none r.time.peers 1 = some d.clock))) ∧
      (d.filterOf t fr = some n → 32 ≤ n →
      ((d.can t).fifo.length < 64 → EndsIn (receives fr) s (fun r => (r.can t).fifo = (d.can t).fifo ++ [(fr, n)] ∧ kept r)) ∧
      (64 ≤ (d.can t).fifo.length → EndsIn (receives fr) s (fun r => (r.can t).fifo = (d.can t).fifo ∧
        r.fld (Reg.TBC_EVT t 2) ⟨0, 1⟩ = 1 ∧ kept r)))) ∧
    Ends (.rxPop tb) s (d.updCan t (fun c => { c with fifo := c.fifo.drop 1 }))

/-- The messages of Table 12-3 that the module sends stand in their mailbox of both controllers, code and slot in the identifier and the fields of the table in the data, those of Table 12-2's core only with an active core; WARNING starts its raised bits afresh. LOOP_CAPACITY, ISOLATE and the heartbeats act on a controller that hears its bus, and nowhere else: the capacity is taken, the isolation valves are closed or opened
and acknowledged, and a heartbeat's time is kept. Network time. Two TIME_REF of successive cycles make a pair, two pairs a rate, which is limited to 1 ± 500 × 10^−6; the first rate makes network time valid, and a later one steps it, or slews a difference of at most 100 µs. The master loads the time at the sync mark of its previous TIME_REF, and its cycle rises with each TIME_REF sent; a reference lost for TIMEOUT makes time not valid; writing LO loads it, reading LO latches the high half. -/
def Obligations.BusMessages : Prop :=
  (∀ (s : State) (tb : Tb) (w : BitVec 16) (op sq : BitVec 8),
    let d := s.dev
    let loads := fun (i : Instr) (m code w0 w1 : Nat) => EndsIn i s (fun r => (∀ t, t < 2 → d.busOn t = true →
        r.reg (Reg.TBC_MB_ID t m) = BitVec.ofNat 32 (64 * code + d.slotN) ∧ r.reg (Reg.TBC_MB_DATA t m 0) = BitVec.ofNat 32 w0 ∧
        r.reg (Reg.TBC_MB_DATA t m 1) = BitVec.ofNat 32 w1 ∧
        (d.mbSt t m ≠ 2 → r.mbSt t m = if d.busOff t ∨ d.busNormal t = false then 7 else 1) ∧ (d.mbSt t m = 2 → m ∈ (r.can t).again)) ∧
      r.pavs = d.pavs ∧ r.mem = d.mem ∧ r.qs = d.qs ∧ r.vdr = d.vdr)
    let full := bit d.fullFlow
    let severity := if d.latched / 2 % 2 = 1 then 1 else if d.leakBits .fault ≠ 0 then 2 else 0
    let k := Reg.KDV_STATE
    let flags := bit d.clamp + 2 * bit d.quiesced + 4 * bit d.hbLost + 8 * d.activeIx.getD 0 + 16 * bit d.isolated + 32 * bit d.time.valid +
      64 * d.fld Reg.ORG_CTRL F.ORG_CTRL_LEASE_EN
    let close := fun (r : Dev) (c : Nat) => (r.chan c).cmd =
      some (if op = 1 then .start (d.fld (Reg.VDR_CH_CLOSE c) F.VDR_CH_CLOSE_ICLOSE) else .stop)
    loads .leakAlarm 0 0x00 (severity + 256 * (d.leakBits .wet + 16 * d.leakBits .fault) + 65536 * full) d.nt32 ∧
    loads .flowStopAlarm 1 0x01 (d.latched % 2 + 256 * (d.flow % 65536) + 2 ^ 24 * full) d.nt32 ∧
    loads .hazardAlarm 2 0x02 (d.latched + 256 * d.hazActive + 65536 * full) d.nt32 ∧
    (d.activeCore.isSome = true →
      loads .capRequest 5 0x07 (min 0xFFFF (d.org.pReq / 16) + 65536 * d.fld Reg.ORG_CEIL F.ORG_CEIL_CEILING)
        (d.grantSum / 16 % 65536 + 65536 * d.fld Reg.ORG_STATUS F.ORG_STATUS_CEIL_TERM) ∧
      loads .warning 6 0x08 (d.org.warn % 256 + 256 * (d.org.raised % 256)) d.nt32 ∧
      EndsIn .warning s (fun r => r.org.raised = 0 ∧ r.org.warn = d.org.warn) ∧
      loads .status 7 0x09 (d.fld k F.KDV_STATE_MODE + 256 * d.fld k F.KDV_STATE_REASON + 65536 * d.fld k F.KDV_STATE_ATTEMPTS + 2 ^ 24 * (flags % 256))
        (d.fld Reg.CKP_PIN F.CKP_PIN_WATTS + 65536 * ((d.sensor 25).value % 65536))) ∧
    (d.activeCore = none → Ends .capRequest s d ∧ Ends .warning s d ∧ Ends .status s d) ∧
    (d.busHears (tbIx tb) = false → Ends (.loopCapacity tb w) s d ∧ Ends (.isolate tb op sq) s d ∧ Ends (.cduHeartbeat tb) s d ∧ Ends (.tmHeartbeat tb) s d) ∧
    (d.activeCore = none ∨ 1 < op.toNat → Ends (.isolate tb op sq) s d) ∧
    (d.busHears (tbIx tb) = true → Ends (.loopCapacity tb w) s ((d.setFld Reg.ORG_BUS_CAP F.ORG_BUS_CAP_VALID 1).setFld Reg.ORG_BUS_CAP F.ORG_BUS_CAP_WATTS w.toNat)) ∧
    (d.busHears (tbIx tb) = true → d.activeCore.isSome = true → op.toNat ≤ 1 →
      (d.forced = true → Ends (.isolate tb op sq) s (d.isolateAck 2 sq)) ∧
      (d.forced = false → d.org.isoSeq = some (op, sq) → Ends (.isolate tb op sq) s (d.isolateAck (if op = 1 then 0 else 1) sq)) ∧
      (d.forced = false → d.org.isoSeq ≠ some (op, sq) → EndsIn (.isolate tb op sq) s (fun r => close r 12 ∧ close r 13 ∧
        r.org.isoSeq = some (op, sq) ∧ (∀ c, c ≠ 12 → c ≠ 13 → r.chan c = d.chan c) ∧ r.pavs = d.pavs))) ∧
    (d.busHears (tbIx tb) = true → EndsIn (.cduHeartbeat tb) s (fun r => Tab.get none r.time.peers 0 = some d.clock ∧ r = { d with time := { d.time with peers := r.time.peers } }) ∧
      EndsIn (.tmHeartbeat tb) s (fun r => Tab.get none r.time.peers 1 = some d.clock ∧ r = { d with time := { d.time with peers := r.time.peers } }))) ∧
  ((∀ ta la tb lb n m, rateOf ta la tb lb = some (n, m) → la < lb ∧ 0 < m ∧ 1999 * m ≤ 2000 * n ∧ 2000 * n ≤ 2001 * m) ∧
  (∀ (s : State) (tb : Tb) (nt : BitVec 48) (cy : BitVec 8) (ago : BitVec 32) (f : CanFrame) (l ta la : Nat) (rate : Nat × Nat) (v : Word32),
    let d := s.dev
    let x := d.time
    let l0 := d.local80
    let mark := l0 - ago.toNat
    let late := ∀ u, x.pairAt = some u → u + 100000 * max 1 (d.fld Reg.TBC_TIME_CFG F.TBC_TIME_CFG_TIMEOUT) ≤ d.clock
    (d.timeMaster = true ∨ tbIx tb ≠ d.timeSrc ∨ d.busHears (tbIx tb) = false → Ends (.timeRef tb nt cy ago) s d) ∧
    (d.timeMaster = false → tbIx tb = d.timeSrc → d.busHears (tbIx tb) = true →
      (∀ c, x.last = some (c, l) → c + 1 ≠ cy → Ends (.timeRef tb nt cy ago) s { d with time := { x with last := some (cy, mark) } }) ∧
      (x.last = none → Ends (.timeRef tb nt cy ago) s { d with time := { x with last := some (cy, mark) } }) ∧
      (x.last = some (cy - 1, l) → x.pair = none →
        Ends (.timeRef tb nt cy ago) s { d with time := { x with last := some (cy, mark), pair := some (nt.toNat, l), pairAt := some d.clock } }) ∧
      (x.last = some (cy - 1, l) → x.pair = some (ta, la) → rateOf ta la nt.toNat l = some rate → x.line = none →
        Ends (.timeRef tb nt cy ago) s { d with time := { x with
          last := some (cy, mark), pair := some (nt.toNat, l), pairAt := some d.clock, valid := true,
          line := some { t := nt.toNat, l := l, num := rate.1, den := rate.2, slew := 0, slewAt := l0 } } }) ∧
      (x.last = some (cy - 1, l) → x.pair = some (ta, la) → rateOf ta la nt.toNat l = none →
        Ends (.timeRef tb nt cy ago) s { d with time := { x with last := some (cy, mark), pair := some (nt.toNat, l), pairAt := some d.clock } }) ∧
      (x.last = some (cy - 1, l) → x.pair = some (ta, la) → rateOf ta la nt.toNat l = some rate → x.line ≠ none →
        let y : TimeLine := { t := nt.toNat, l := l, num := rate.1, den := rate.2, slew := 0, slewAt := l0 }
        let diff : Int := (d.ntAt l0 : Int) - (y.at l0 : Int)
        let takes := fun (y : TimeLine) => ({ d with time := { x with last := some (cy, mark), pair := some (nt.toNat, l), pairAt := some d.clock, valid := true, line := some y } } : Dev)
        (diff.natAbs ≤ 100 → Ends (.timeRef tb nt cy ago) s (takes { y with slew := diff })) ∧
        (100 < diff.natAbs → Ends (.timeRef tb nt cy ago) s (((takes y).raise (Reg.TBC_TIME_EVT 1)).fire 54 1)))) ∧
    (d.timeMaster = true → x.sentAt = some l → d.busOn d.timeSrc = true → EndsIn .timeRefSend s (fun r =>
      r.reg (Reg.TBC_MB_ID d.timeSrc 3) = 0xC0 ∧ r.reg (Reg.TBC_MB_DATA d.timeSrc 3 0) = BitVec.ofNat 32 (d.ntAt l) ∧
      r.reg (Reg.TBC_MB_DATA d.timeSrc 3 1) = BitVec.ofNat 32 (d.ntAt l / 2 ^ 32 + 65536 * x.cycle.toNat + 2 ^ 24) ∧
      r.time = x ∧ r.pavs = d.pavs ∧ r.mem = d.mem)) ∧
    (d.timeMaster = false → Ends .timeRefSend s d) ∧
    (d.timeMaster = true → EndsIn .timeRefSend s (fun r => r.time = x ∧ r.pavs = d.pavs ∧ r.mem = d.mem)) ∧
    ((d.can (tbIx tb)).onBus = some (3, f) → EndsIn (.canTransmitEnd tb .sent) s (fun r =>
      r.time = { x with cycle := x.cycle + 1, sentAt := x.sofAt, sofAt := none } ∧ Output.can (tbIx tb) f ∈ r.outbox)) ∧
    (d.timeMaster = true → d.ntAt l = (((x.setNt : Int) + ((l : Int) - (x.setAt : Int)) / 80) % 2 ^ 48).toNat) ∧
    (x.valid = false ∨ ¬ late → Ends .refLost s d) ∧
    (x.valid = true → late → Ends .refLost s ((({ d with time := { x with valid := false } } : Dev).raise (Reg.TBC_TIME_EVT 0)).fire 54 0)) ∧
    (let nt := d.fld Reg.TBC_TIME_SET_HI F.TBC_TIME_SET_HI_NT * 2 ^ 32 + v.toNat
     Ends (.timeSetLo v) s { d with time := { x with
      setNt := nt, setAt := l0, line := x.line.map (fun y => { y with t := nt, l := l0, slew := 0, slewAt := l0 }) } }) ∧
    Ends .ntLoRead s (({ d with time := { x with ntHi := d.nt / 2 ^ 32 } } : Dev).emit
      (.regData Reg.TBC_NT_LO 4 (BitVec.ofNat 64 (d.nt % 2 ^ 32))))))

/-! ### The Gatehouse (chapter 13) -/

/-- The 18 requests of a mailbox (GHM, KDV, CXL) or of I3C. On a mailbox that takes none (its GO or doorbell set, the function not ready, no link, no I3C address, GHM in Lodge) nothing happens; while the Gatehouse does not run a mailbox keeps the request and I3C's is turned away; else the request stands in the mailbox, is served, and the reply with TAG, STATUS and payload stands there and is an output: STATUS 2 where the request or the
reply does not fit the mailbox, 3 in Lodge for what Lodge does not serve. One staging session at a time, of one mailbox; a commit ends it and fires trigger 58 when it succeeds, in Lodge a FULL reset follows; a write to flash that fails sets FLASH_ERR and answers FLASH; a commit that fails leaves the Gatehouse, keys, Orangery but for the model's result, Pavilions and memory as they were. A reply's bytes stand in the mailbox's data, its
GO or doorbell is clear, and GHM sets MBX_DONE. The debug word takes its bits. STAGING_TIMEOUT ends the session and KEY_DELIVERY_EXPIRY erases a key not installed. -/
def Obligations.GatehouseCommands : Prop :=
  (∀ (d e : Dev) (x : Staging) (st : Nat) (r : Bytes), d.commitStaged x = (e, st, r) → st ≠ 0 →
    e.gate = d.gate ∧ e.keys = d.keys ∧ e.org = d.org ∧ e.pavs = d.pavs ∧ e.mem = d.mem) ∧
  (∀ (d : Dev) (b : Bytes) (k : Nat), 4 * k < b.length → 0 < b.length →
    (b.length ≤ 256 → let r := d.placeReply .ghm b
      r.reg (Reg.GHM_MBX_DATA k) = wordAt b k ∧ r.fld Reg.GHM_MBX_CTRL F.GHM_MBX_CTRL_LENGTH = b.length ∧
      r.fld Reg.GHM_MBX_CTRL F.GHM_MBX_CTRL_GO = 0 ∧ r.fld (Reg.GHM_EVT 0) ⟨0, 1⟩ = 1) ∧
    (b.length ≤ 32 → let r := d.placeReply .kdv b
      r.reg (Reg.KDV_MBX_DATA k) = wordAt b k ∧ r.fld Reg.KDV_MBX_CTRL F.KDV_MBX_CTRL_LENGTH = b.length ∧
      r.fld Reg.KDV_MBX_CTRL F.KDV_MBX_CTRL_GO = 0) ∧
    (b.length ≤ cxlPayload → let r := d.placeReply .cxl b
      r.devr (devData + 4 * k) = wordAt b k ∧ r.devLen = b.length ∧ r.doorbell = false)) ∧
  (∀ (d : Dev) (mask val : Nat), let w := ((d.reg Reg.GHM_DEBUG).toNat &&& (63 - mask)) ||| val
    (w = (d.reg Reg.GHM_DEBUG).toNat → d.debugBits mask val = d) ∧
    (w ≠ (d.reg Reg.GHM_DEBUG).toNat → (d.debugBits mask val).reg Reg.GHM_DEBUG = BitVec.ofNat 32 w ∧
      (d.debugBits mask val).fld (Reg.GHM_EVT 1) ⟨0, 1⟩ = 1)) ∧
  (∀ (s : State) (mb : Mbx) (tag kind item t core : Byte) (len off handle size sq : Word32) (idx lo n : BitVec 16) (addr : Word64) (data : Bytes)
      (x : Staging) (tr pr : Bool),
    let d := s.dev
    let g := d.gate
    let rows : List (Instr × Bytes) := [(.getInfo mb tag, reqBytes 0x01 tag []), (.stageOpen mb tag kind len, reqBytes 0x10 tag (kind :: leBytes 4 len.toNat)),
      (.stageWrite mb tag off data, reqBytes 0x11 tag (leBytes 4 off.toNat ++ data)),
      (.stageHost mb tag addr data, reqBytes 0x12 tag (leBytes 8 addr.toNat ++ leBytes 4 data.length)), (.stageCommit mb tag, reqBytes 0x13 tag []),
      (.stageAbort mb tag, reqBytes 0x14 tag []), (.keyStatus mb tag handle, reqBytes 0x20 tag (leBytes 4 handle.toNat)),
      (.keyDiscard mb tag handle, reqBytes 0x21 tag (leBytes 4 handle.toNat)), (.debugState mb tag, reqBytes 0x30 tag []),
      (.debugSet mb tag tr pr addr size, reqBytes 0x31 tag (leBytes 1 (bit tr) ++ leBytes 1 (bit pr) ++ leBytes 8 addr.toNat ++ leBytes 4 size.toNat)),
      (.healthGet mb tag, reqBytes 0x60 tag []), (.sunInfo mb tag, reqBytes 0x61 tag []),
      (.sunRead mb tag sq lo n, reqBytes 0x62 tag (leBytes 4 sq.toNat ++ leBytes 2 lo.toNat ++ leBytes 2 n.toNat)), (.sunFreeze mb tag item, reqBytes 0x63 tag [item]),
      (.sunTrigger mb tag t idx, reqBytes 0x64 tag (t :: leBytes 2 idx.toNat)), (.inventoryGet mb tag item idx, reqBytes 0x68 tag (item :: leBytes 2 idx.toNat)),
      (.pairSwap mb tag, reqBytes 0x70 tag []), (.pairReadmit mb tag core, reqBytes 0x71 tag [core])]
    let free := match mb with
      | .ghm => d.hp.ready = true ∧ d.inLodge = false ∧ d.fld Reg.GHM_MBX_CTRL F.GHM_MBX_CTRL_GO ≠ 1
      | .kdv => d.hp.ready = true ∧ d.fld Reg.KDV_MBX_CTRL F.KDV_MBX_CTRL_GO ≠ 1
      | .cxl => d.hp.ready = true ∧ d.linkUp = true ∧ d.doorbell = false
      | .i3c => g.i3c.isSome = true
    let took := fun (b : Bytes) => match mb with
      | .ghm => ((d.putBytes (Reg.GHM_MBX_DATA 0) (b.take 256)).setFld Reg.GHM_MBX_CTRL F.GHM_MBX_CTRL_LENGTH (min 511 b.length)).setFld
          Reg.GHM_MBX_CTRL F.GHM_MBX_CTRL_GO 1
      | .kdv => ((d.putBytes (Reg.KDV_MBX_DATA 0) (b.take 32)).setFld Reg.KDV_MBX_CTRL F.KDV_MBX_CTRL_LENGTH (min 63 b.length)).setFld
          Reg.KDV_MBX_CTRL F.KDV_MBX_CTRL_GO 1
      | .cxl => ((d.putPayload (b.take cxlPayload)).setDevCmd (cxlOpcode (b.getD 0 0)) (min 0x1FFFFF b.length)).setDevr devCtrl 1
      | .i3c => d
    let reply := fun (c : Byte) (y : Served) =>
      let z := if tooLong mb (4 + y.2.2.length) then (y.1, 2, []) else y
      let bs : Bytes := [c, tag, BitVec.ofNat 8 z.2.1, 0] ++ z.2.2
      (z.1.placeReply mb bs).emit (if mb = .i3c then .mctpVendor ((Config.stdConfig 0 0).setWidth 16) bs else .reply mb bs)
    let answers := fun (i : Instr) (f : Dev → Served) => ∀ b, (i, b) ∈ rows → Ends i s (reply (b.getD 0 0) (f (took b)))
    let tells := fun (i : Instr) (st : Nat) (p : Bytes) => answers i (fun e => (e, st, p))
    let staged := fun (e : Dev) (y : Option Staging) => ({ e with gate := { e.gate with staging := y } } : Dev)
    let burns := fun (e : Dev) (y : Staging) => (if Config.flashOk e.freeIx = true then (staged { e with freeIx := e.freeIx + 1 } (some y), 0, [])
      else (({ e with freeIx := e.freeIx + 1 } : Dev).raise (Reg.GHM_EVT 3), 0x0C, []) : Served)
    (¬ free → ∀ r ∈ rows, Ends r.1 s d) ∧
    (free → g.up = false → ∀ r ∈ rows, Ends r.1 s (if mb = .i3c then d else { took r.2 with gate := { g with wait := g.wait ++ [mb] } })) ∧
    (free → g.up = true → d.inLodge = true →
      (kind ≠ 1 → ¬ (kind = 0 ∨ 6 < kind.toNat) → tells (.stageOpen mb tag kind len) 3 []) ∧
      (∀ i ∈ [Instr.stageHost mb tag addr data, .keyStatus mb tag handle, .keyDiscard mb tag handle, .debugSet mb tag tr pr addr size, .sunFreeze mb tag item,
        .sunTrigger mb tag t idx, .pairSwap mb tag, .pairReadmit mb tag core], tells i 3 []) ∧
      (g.staging = some x → x.owner = mb → ∀ e st p, (staged (took (reqBytes 0x13 tag [])) none).commitStaged x = (e, st, p) →
        Ends (.stageCommit mb tag) s (let r := reply 0x13 (if st = 0 then e.fire 58 x.kind else e, st, p)
          if st = 0 then ((r.setAttempts 0).setReason 0).fullReset 4 else r))) ∧
    (free → g.up = true →
      answers (.getInfo mb tag) (fun e => (e, 0, leBytes 4 d.imageInfo.2.1 ++ leBytes 4 d.imageInfo.2.2 ++ leBytes 8 d.imageInfo.1 ++ leBytes 1 (bit g.owner.isSome) ++
        leBytes 4 e.ghmStatus.toNat ++ (if mb = .i3c then leBytes 1 e.attempts ++ leBytes 1 e.reason else []))) ∧
      (kind = 0 ∨ 6 < kind.toNat → tells (.stageOpen mb tag kind len) 5 []) ∧
      (1 ≤ kind.toNat → kind.toNat ≤ 6 → d.inLodge = false ∨ kind = 1 →
        (g.staging = none → (if kind = 1 then 2 ^ 24 else 2 ^ 19) < len.toNat → tells (.stageOpen mb tag kind len) 8 []) ∧
        (g.staging = none → kind ≠ 1 → len.toNat ≤ 2 ^ 19 →
          answers (.stageOpen mb tag kind len) (fun e => (staged e (some ⟨mb, kind.toNat, len.toNat, [], d.clock⟩), 0, []))) ∧
        (g.staging = none → kind = 1 → len.toNat ≤ 2 ^ 24 → answers (.stageOpen mb tag kind len)
          (fun e => burns { e with gate := { g with image := none } } ⟨mb, 1, len.toNat, [], d.clock⟩)) ∧
        (g.staging = some x → tells (.stageOpen mb tag kind len) (if x.owner = mb then 3 else 0x0D) [])) ∧
      (tooLong mb (8 + data.length) = true → tells (.stageWrite mb tag off data) 2 []) ∧
      (g.staging = none → (tooLong mb (8 + data.length) = false → tells (.stageWrite mb tag off data) 7 []) ∧ tells (.stageCommit mb tag) 7 [] ∧
        tells (.stageAbort mb tag) 7 []) ∧
      (g.staging = some x → x.owner ≠ mb →
        (tooLong mb (8 + data.length) = false → tells (.stageWrite mb tag off data) 0x0D []) ∧ tells (.stageCommit mb tag) 0x0D [] ∧
        tells (.stageAbort mb tag) 0x0D []) ∧
      (g.staging = some x → x.owner = mb →
        (tooLong mb (8 + data.length) = false → x.total < off.toNat + data.length → tells (.stageWrite mb tag off data) 2 []) ∧
        (tooLong mb (8 + data.length) = false → off.toNat + data.length ≤ x.total → answers (.stageWrite mb tag off data) (fun e =>
          let y := { x with data := Tab.setRun 0 x.data off.toNat data, since := d.clock }
          if x.kind = 1 then burns (staged e none) y else (staged e (some y), 0, []))) ∧
        answers (.stageAbort mb tag) (fun e => (staged e none, 0, [])) ∧
        (d.inLodge = false → ∀ e st p, (staged (took (reqBytes 0x13 tag [])) none).commitStaged x = (e, st, p) →
          Ends (.stageCommit mb tag) s (reply 0x13 (if st = 0 then e.fire 58 x.kind else e, st, p)))) ∧
      tells (.debugState mb tag) 0 (leBytes 4 (d.reg Reg.GHM_DEBUG).toNat) ∧
      answers (.healthGet mb tag) (fun e => (e, 0, e.health)) ∧
      answers (.sunInfo mb tag) (fun e => (e, 0, leBytes 4 d.sun.next ++ leBytes 4 (e.readReg Reg.SUN_STATUS).toNat ++ leBytes 4 (d.reg Reg.SUN_LOST).toNat)) ∧
      (∀ r, (d.sun.find sq.toNat).2 = some r → tells (.sunRead mb tag sq lo n) 0 ((r.bytes.drop lo.toNat).take n.toNat)) ∧
      ((d.sun.find sq.toNat).2 = none → tells (.sunRead mb tag sq lo n) 3 []) ∧
      answers (.inventoryGet mb tag item idx) (fun e => match e.inventory item.toNat idx.toNat with | some b => (e, 0, b) | none => (e, 5, [])) ∧
      (item = 0 ∨ 10 < item.toNat → tells (.inventoryGet mb tag item idx) 5 [])) ∧
    (free → g.up = true → d.inLodge = false →
      (mb = .i3c ∨ mb = .kdv → tells (.stageHost mb tag addr data) 3 []) ∧
      (mb = .cxl ∨ mb = .ghm →
        let reads := fun (e : Dev) => ({ e with freeIx := e.freeIx + 1, outbox := e.outbox ++ [.hostRead ⟨0, none, .memRead, false⟩ addr (data.length % 2 ^ 32)] } : Dev)
        (g.staging = none → answers (.stageHost mb tag addr data) (fun e => (reads e, 7, []))) ∧
        (g.staging = some x → x.owner ≠ mb → answers (.stageHost mb tag addr data) (fun e => (reads e, 0x0D, []))) ∧
        (g.staging = some x → x.owner = mb → x.total < data.length → answers (.stageHost mb tag addr data) (fun e => (reads e, 2, []))) ∧
        (g.staging = some x → x.owner = mb → data.length ≤ x.total → answers (.stageHost mb tag addr data) (fun e =>
          let y := { x with data := Tab.setRun 0 x.data 0 data, since := d.clock }
          if x.kind = 1 then burns (staged (reads e) none) y else (staged (reads e) (some y), 0, [])))) ∧
      (∀ k, d.keys.find? (fun k => k.handle == handle) = some k →
        (k.installed = false → tells (.keyStatus mb tag handle) 0 (leBytes 8 k.token.toNat ++ [1, 0, 0]) ∧
          answers (.keyDiscard mb tag handle) (fun e => ({ e with keys := d.keys.filter (fun j => j.installed || j.handle != handle) }, 0, []))) ∧
        (k.installed = true → tells (.keyDiscard mb tag handle) 3 [] ∧
          tells (.keyStatus mb tag handle) 0 (leBytes 8 k.token.toNat ++ [2] ++ leBytes 1 (d.keyPlace handle).1 ++ leBytes 1 (d.keyPlace handle).2))) ∧
      (d.keys.find? (fun k => k.handle == handle) = none → tells (.keyStatus mb tag handle) 0 (List.replicate 11 0) ∧ tells (.keyDiscard mb tag handle) 3 []) ∧
      answers (.debugSet mb tag tr pr addr size) (fun e =>
        (({ e with gate := { g with traceBase := addr, traceSize := size.toNat, traceIx := 0 } } : Dev).traceMark.debugBits 24 (8 * bit tr + 16 * bit pr), 0, [])) ∧
      (item.toNat ≤ 1 → answers (.sunFreeze mb tag item) (fun e => (e.setFreeze (item == 1), 0, []))) ∧ (1 < item.toNat → tells (.sunFreeze mb tag item) 5 []) ∧
      (t = 62 ∨ t = 63 → answers (.sunTrigger mb tag t idx) (fun e => (e.fire t.toNat idx.toNat, 0, []))) ∧
      (t ≠ 62 → t ≠ 63 → tells (.sunTrigger mb tag t idx) 5 []) ∧
      (d.standbyOk = true → answers (.pairSwap mb tag) (fun e => (e.reqSwap, 0, []))) ∧ (d.standbyOk = false → tells (.pairSwap mb tag) 3 []) ∧
      (core.toNat ≤ 1 → d.coreSt core.toNat = 4 → answers (.pairReadmit mb tag core) (fun e => (e.setCoreSt core.toNat 3, 0, []))) ∧
      (core.toNat ≤ 1 → d.coreSt core.toNat ≠ 4 → tells (.pairReadmit mb tag core) 3 []) ∧ (1 < core.toNat → tells (.pairReadmit mb tag core) 5 [])) ∧
    Ends .stagingTimeout s (staged d none) ∧
    Ends (.keyDeliveryExpiry handle) s { d with keys := d.keys.filter (fun k => k.installed || k.handle != handle) })

/-- The Gatehouse's phases of a start. A phase acts only after Always-on up and when it is the next, in the order ROM check, device secret, image, configuration, keys; a check that fails ends the start with its reason. The device secret is what error correction makes of the SRAM's power-up state and the helper data; public keys have 68 bytes and signatures the length of their height. The keys phase takes the identity key's next index above its bound, certifies an attestation key with it when one is left, and serves signatures. While the journal's SEQ rises, a signature takes the attestation key's next
index, the next index rises, and a record with a bound above the index stands in the journal; a RESERVE record that cannot be written sets FLASH_ERR and leaves the signature out; at 1,024 signatures a new key is generated first; with no index left for the identity key there is no signature. -/
def Obligations.GatehousePhases : Prop :=
  (∀ (ds : BitVec 256) (k i : Nat) (pub m sig : Bytes),
    Config.vendorKey.length = 68 ∧ (Config.identityKey ds).length = 68 ∧ (Config.attestKey k).length = 68 ∧
    (Config.xmssSign (Config.attestKey k) i m).length = 2500 ∧ (Config.xmssSign (Config.identityKey ds) i m).length = 2692 ∧
    (Config.xmssVerify Config.vendorKey m sig = true → sig.length = 2820) ∧ (Config.xmssVerify pub m sig = true → sig.length = Config.sigLen pub)) ∧
  (∀ (d : Dev) (msg : Bytes) (a : AttestKey), d.gate.attest = some a → a.next < 1024 → d.gate.journalRises →
    let r := d.attestSign msg
    let pub := Config.attestKey a.draw
    r.1.gate.ident = d.gate.ident ∧ r.1.pavs = d.pavs ∧ r.1.mem = d.mem ∧
    if a.next < d.gate.bound 2 pub ∨ Config.flashOk d.freeIx = true then
      r.2 = some (Config.xmssSign pub a.next msg) ∧ r.1.gate.attest = some { a with next := a.next + 1 } ∧ a.next < r.1.gate.bound 2 pub
    else r.2 = none ∧ r.1.gate.attest = some a ∧ r.1.fld (Reg.GHM_EVT 3) ⟨0, 1⟩ = 1) ∧
  (∀ (d : Dev) (msg : Bytes), d.gate.attest = none ∨ (∃ a, d.gate.attest = some a ∧ 1024 ≤ a.next) →
    let r := d.attestSign msg
    (65536 ≤ d.gate.ident → r.2 = none ∧ r.1.gate.attest = none ∧ r.1.gate.ident = d.gate.ident) ∧
    (d.gate.ident < 65536 → d.gate.journalRises → (∀ x ∈ d.gate.journal, x.key = 1 → x.keyHash = Config.shake256 d.gate.identityKey) →
      let pub := Config.attestKey d.freeIx
      r.1.pavs = d.pavs ∧ r.1.mem = d.mem ∧
      ((r.2 = none ∧ r.1.fld (Reg.GHM_EVT 3) ⟨0, 1⟩ = 1) ∨
       (r.2 = some (Config.xmssSign pub 0 msg) ∧ r.1.gate.attest = some ⟨d.freeIx, 1, d.gate.ident⟩ ∧ r.1.gate.ident = d.gate.ident + 1 ∧
        d.gate.ident < r.1.gate.bound 1 d.gate.identityKey ∧ 0 < r.1.gate.bound 2 pub)))) ∧
  (∀ (s : State) (b sram : Bytes),
    let d := s.dev
    let g := d.gate
    let at_ := fun (n : Nat) => d.starting = true ∧ d.boot.alwaysOn = true ∧ g.phase = n
    let to_ := fun (n : Nat) => ({ d with gate := { g with phase := n } } : Dev)
    let next := g.bound 1 g.identityKey
    (at_ 1 → Ends (.romCheck true) s (to_ 2) ∧ Ends (.romCheck false) s (d.failStart 6)) ∧
    (at_ 2 → match Config.reconstruct sram Config.helperData with
      | some ds => Ends (.deviceSecret sram) s { d with gate := { g with phase := 3, ds := some ds } }
      | none => Ends (.deviceSecret sram) s (d.failStart 6)) ∧
    (at_ 3 → (g.image = some b → g.imageOk b = true → Ends .image s { d with gate := { g with phase := 4, run := some (b.take 0x100) } }) ∧
      (g.image = none ∨ (g.image = some b ∧ g.imageOk b = false) → Ends .image s (d.failStart 1))) ∧
    (at_ 4 → (g.config = some b → g.configOk b = true →
        EndsIn .configuration s (fun r => r.gate.phase = 5 ∧ r.gate.conf = some b)) ∧
      (g.config = none ∨ (g.config = some b ∧ g.configOk b = false) → Ends .configuration s (d.failStart 8))) ∧
    (at_ 6 → d.boot.released = true → d.boot.keys = false →
      EndsIn .keys s (fun r => r.gate.signing = true ∧ r.boot = { d.boot with keys := true } ∧ r.pavs = d.pavs ∧ r.mem = d.mem ∧
        (next < 65536 → (r.gate.ident = next ∧ r.gate.attest = none ∧ r.fld (Reg.GHM_EVT 3) ⟨0, 1⟩ = 1) ∨
          (r.gate.ident = next + 1 ∧ r.gate.attest = some ⟨d.freeIx, 0, next⟩ ∧ (g.journalRises → next < r.gate.bound 1 g.identityKey))) ∧
        (65536 ≤ next → r.gate.ident = next ∧ r.gate.attest = none))) ∧
    (∀ ok, (¬ at_ 1 → Ends (.romCheck ok) s d) ∧ (¬ at_ 2 → Ends (.deviceSecret sram) s d)) ∧
    (¬ at_ 3 → Ends .image s d) ∧ (¬ at_ 4 → Ends .configuration s d) ∧
    (¬ (at_ 6 ∧ d.boot.released = true ∧ d.boot.keys = false) → Ends .keys s d))

/-- The SPDM requests on a transport, PLDM, the I3C address and the trace. Where the Gatehouse does not hear the transport nothing happens. A response that exceeds the requester's greatest message is kept for CHUNK_GET and named by an error. A request out of order, of a wrong slot, block or offer, is answered with an error and changes nothing; the negotiated hash is one of those offered; signed answers come while signing is served and an
attestation key has an index; a session is opened by KEY_EXCHANGE, at most 8, and secured by FINISH or ended; its responses leave sealed under its response key, with a number that rises, and KEY_UPDATE moves its keys on; keys are stored only inside a secured session of the transport and under the identifiers of the module, under a new nonzero handle, and IDE_KM acts on its stream only inside one over Data Object Exchange; I3C takes one address; while TRACE is on a record of the kinds 1 to 7, and in a tick whatever has happened of them, goes to the host ring of DEBUG_SET, or is counted lost. -/
def Obligations.SpdmRequests : Prop :=
  (∀ (d : Dev) (tr : SpdmTr) (code : Nat) (b : Bytes), let c := d.gate.conn tr
    (c.xfer = none ∨ c.xfer = some 0 → d.spdmReply tr code b = d.emit (.spdm tr code b)) ∧
    (∀ y, c.xfer = some y → b.length ≤ y → d.spdmReply tr code b = d.emit (.spdm tr code b)) ∧
    (∀ y, c.xfer = some y → 0 < y → y < b.length → ∃ h, h < 256 ∧ d.spdmReply tr code b =
      ((({ d with freeIx := d.freeIx + 1 } : Dev).updConn tr (fun c => { c with large := some (h, 0, b) })).emit (.spdm tr 0x7F (leBytes 1 0x0F ++ leBytes 1 h))))) ∧
  (∀ (d : Dev) (n code : Nat) (b : Bytes) (x : SpdmSession), d.gate.session? n = some x →
    let c := Config.gcmSeal x.rspKey x.rspSeq (leBytes 4 n) (leBytes 1 code ++ b)
    d.sealedReply n code b = ({ d with gate := { d.gate with sessions := d.gate.sessions.map (fun y => if y.id = n then { y with rspSeq := y.rspSeq + 1 } else y) } } : Dev).emit
      (.spdmSealed x.tr n c (Config.gcmTag x.rspKey x.rspSeq (leBytes 4 n) c))) ∧
  (∀ (d : Dev) (p : Pv), (d.tracing = false → d.trace = d) ∧
    (d.tracing = true → d.trace.traceDue p = [] ∧ d.trace.hazDue = [] ∧ d.trace.pavs = d.pavs ∧ d.trace.mem = d.mem ∧ d.trace.qs = d.qs)) ∧
  (∀ (s : State) (tr : SpdmTr) (v op : Byte) (slot : Byte) (n off len h k : Nat) (a : AlgReq) (nonce : BitVec 256) (data sig : Bytes) (x : SpdmSession) (e : Dev)
      (im : IdeMsg) (m : PldmReq) (addr : BitVec 7) (t : TraceRec) (req : VendorReq) (sess : Option Nat) (sha3 sign : Bool),
    let d := s.dev
    let g := d.gate
    let c := g.conn tr
    let gives := fun (i : Instr) (d : Dev) (tr : SpdmTr) (code : Nat) (b : Bytes) => Ends i s (d.spdmReply tr code b)
    let err := fun (i : Instr) (code : Nat) => Ends i s (d.emit (.spdm tr 0x7F (leBytes 1 code)))
    let part := (d.chain.drop off).take len
    let blocks := d.measureBlocks tr op.toNat
    let free := { d with freeIx := d.freeIx + 1 }
    let unlocked := fun (e : Dev) => ({ e with gate := { e.gate with sessions := e.gate.sessions.filter (fun y => y.id != n) } } : Dev)
    let keyed := fun (e : Dev) (f : SpdmSession → SpdmSession) => ({ e with gate := { e.gate with sessions := e.gate.sessions.map (fun y => if y.id = n then f y else y) } } : Dev)
    let ids : Bytes := 4 :: leBytes 4 (d.reg Reg.GHM_IDENT).toNat
    let ours := req.registry = 4 ∧ req.enterprise = d.reg Reg.GHM_IDENT
    let data' := req.data
    let key := fun (e : Dev) (b : Bytes) => Ends (.deliverKey tr sess req) s (e.sealedReply n 0x7E (ids ++ b))
    (d.hears tr = false → ∀ i ∈ [Instr.getVersion tr, .getCapabilities tr v n, .negotiateAlgorithms tr a, .getDigests tr, .getCertificate tr slot off len,
      .challenge tr slot nonce, .getMeasurements tr op sign nonce, .keyExchange tr slot data, .chunkGet tr h k, .deliverKey tr sess req, .ideKm tr sess im], Ends i s d) ∧
    (d.hears tr = true →
      gives (.getVersion tr) (d.updConn tr (fun _ => SpdmConn.reset)) tr 0x04 (leBytes 2 0x1200 ++ leBytes 2 0x1300) ∧
      (v = 0x12 ∨ v = 0x13 → gives (.getCapabilities tr v n) (d.updConn tr (fun c => { c with version := some v.toNat, xfer := some n })) tr 0x61 (leBytes 4 0x262D6)) ∧
      (v ≠ 0x12 → v ≠ 0x13 → err (.getCapabilities tr v n) 0x41) ∧
      (c.version = none → err (.negotiateAlgorithms tr a) 0x04) ∧
      (c.version.isSome = true → d.offerOk a = false → err (.negotiateAlgorithms tr a) 0x01) ∧
      (c.version.isSome = true → d.offerOk a = true → ∃ b : Bool, (a.sha384 = false → b = true) ∧ (a.sha3 = false → b = false) ∧
        gives (.negotiateAlgorithms tr a) (free.updConn tr (fun c => { c with sha3 := some b })) tr 0x63 (leBytes 1 (bit b) ++ ids ++ [0, 0, 0, 0x10])) ∧
      (a.registry ≠ 4 ∨ a.enterprise ≠ d.reg Reg.GHM_IDENT ∨ a.oid ≠ 0x10 → d.offerOk a = false) ∧
      (c.sha3 = none → ∀ i ∈ [Instr.getDigests tr, .getCertificate tr slot off len, .challenge tr slot nonce, .getMeasurements tr op sign nonce,
        .keyExchange tr slot data], err i 0x04) ∧
      (c.sha3 = some sha3 →
        gives (.getDigests tr) d tr 0x01 (Config.hash384 sha3 (Config.certChain d.serialNo (g.ds.getD 0) ++ g.attestCert)) ∧
        (slot = 0 → off < d.chain.length →
          gives (.getCertificate tr slot off len) d tr 0x02 (leBytes 2 part.length ++ leBytes 2 (d.chain.length - off - part.length) ++ part)) ∧
        (slot ≠ 0 ∨ d.chain.length ≤ off → err (.getCertificate tr slot off len) 0x01) ∧
        (slot ≠ 0 → err (.challenge tr slot nonce) 0x01 ∧ err (.keyExchange tr slot data) 0x01) ∧
        (slot = 0 → g.signing = false → Ends (.challenge tr slot nonce) s (free.spdmError tr 0x42)) ∧
        (slot = 0 → g.signing = true →
          let head := d.hash tr d.chain ++ leBytes 32 (Config.random256 d.freeIx).toNat
          (free.attestSign (leBytes 32 nonce.toNat ++ head) = (e, some sig) → gives (.challenge tr slot nonce) e tr 0x03 (head ++ sig)) ∧
          (free.attestSign (leBytes 32 nonce.toNat ++ head) = (e, none) → Ends (.challenge tr slot nonce) s (e.spdmError tr 0x05))) ∧
        (blocks = none → err (.getMeasurements tr op sign nonce) 0x01) ∧ (blocks = none ↔ 7 < op.toNat ∧ op.toNat ≠ 0xFF) ∧
        (∀ b, blocks = some b → gives (.getMeasurements tr op false nonce) d tr 0x60 b ∧
          (g.signing = false → err (.getMeasurements tr op true nonce) 0x42) ∧
          (g.signing = true → d.attestSign (leBytes 32 nonce.toNat ++ b) = (e, some sig) → gives (.getMeasurements tr op true nonce) e tr 0x60 (b ++ sig)) ∧
          (g.signing = true → d.attestSign (leBytes 32 nonce.toNat ++ b) = (e, none) → Ends (.getMeasurements tr op true nonce) s (e.spdmError tr 0x05))) ∧
        (slot = 0 → 8 ≤ g.sessions.length → err (.keyExchange tr slot data) 0x0A) ∧
        (slot = 0 → g.sessions.length < 8 → g.signing = false → err (.keyExchange tr slot data) 0x42) ∧
        (slot = 0 → g.sessions.length < 8 → g.signing = true →
          let head := leBytes 4 g.nextSess ++ Config.exchangeData g.nextSess data
          (d.attestSign (data ++ head) = (e, none) → Ends (.keyExchange tr slot data) s (e.spdmError tr 0x05)) ∧
          (d.attestSign (data ++ head) = (e, some sig) → gives (.keyExchange tr slot data)
            { e with gate := { e.gate with nextSess := g.nextSess + 1, sessions := g.sessions ++ [SpdmSession.opened g.nextSess tr data] } } tr 0x64 (head ++ sig)))) ∧
      (c.large = none ∨ c.xfer = none → err (.chunkGet tr h k) 0x04) ∧
      (∀ y b h' k', c.large = some (h', k', b) → c.xfer = some y →
        (h' ≠ h ∨ k' ≠ k ∨ y = 0 → err (.chunkGet tr h k) 0x01) ∧
        (h' = h → k' = k → 0 < y → Ends (.chunkGet tr h k) s
        ((d.updConn tr (fun c => { c with large := if (b.drop y).isEmpty then none else some (h, k + 1, b.drop y) })).emit (.spdm tr 0x06 (b.take y))))) ∧
      (ours → d.secured tr sess = false → gives (.deliverKey tr sess req) d tr 0x7E (ids ++ [7, 0, 0, 0, 0])) ∧
      (d.secured tr sess = false → (¬ ours → err (.deliverKey tr sess req) 0x07) ∧ err (.ideKm tr sess im) 0x0B) ∧
      (sess = some n → d.secured tr sess = true →
        (¬ ours → Ends (.deliverKey tr sess req) s (d.sealedError n 0x07)) ∧
        (tr = .i3c → Ends (.ideKm tr sess im) s (d.sealedError n 0x0B)) ∧
        (ours → data'.length ≠ 41 ∨ blobNat data' 0 1 ≠ 1 → key d [5, 0, 0, 0, 0]) ∧
        (ours → data'.length = 41 → blobNat data' 0 1 = 1 → 1024 ≤ d.keys.length → key d [8, 0, 0, 0, 0]) ∧
        (ours → data'.length = 41 → blobNat data' 0 1 = 1 → d.keys.length < 1024 → ∃ y : KeyEntry, y.handle ≠ 0 ∧ (∀ j ∈ d.keys, j.handle ≠ y.handle) ∧
          y.token = BitVec.ofNat 64 (blobNat data' 1 8) ∧ y.key = BitVec.ofNat 256 (blobNat data' 9 32) ∧ y.installed = false ∧ y.since = d.clock ∧
          key { free with keys := d.keys ++ [y] } (0 :: leBytes 4 y.handle.toNat)) ∧
        (tr = .doe →
          let km := fun (x : IdeStream) => (match im.op with
            | .prog => { x with key := some im.data }
            | .go => if x.key.isSome then { x with on := true, skid := im.skid } else x
            | .stop => { x with on := false } : IdeStream)
          Ends (.ideKm tr sess im) s
            (({ d with hp := if im.cachemem then { d.hp with cm := km d.hp.cm } else { d.hp with io := km d.hp.io } } : Dev).sealedReply n 0x7E im.data)))) ∧
    (g.session? n = none ∨ (g.session? n = some x ∧ d.hears x.tr = false) →
      ∀ i ∈ [Instr.finish n data, .heartbeat n, .keyUpdate n op, .endSession n], Ends i s d) ∧
    (g.session? n = some x → d.hears x.tr = true →
      let tell := fun (i : Instr) (code : Nat) => Ends i s (d.sealedReply n 0x7F (leBytes 1 code))
      (x.open_ = false → ∀ i ∈ [Instr.heartbeat n, .keyUpdate n op, .endSession n], Ends i s d) ∧
      (x.open_ = true → tell (.finish n data) 0x04) ∧
      (x.open_ = false → Config.finishOk n data = true → Ends (.finish n data) s (keyed (d.sealedReply n 0x65 []) (fun y =>
        { y with open_ := true, reqKey := Config.sessionKey false true y.secret, rspKey := Config.sessionKey true true y.secret, rspSeq := 0 }))) ∧
      (x.open_ = false → Config.finishOk n data = false → Ends (.finish n data) s (unlocked (d.sealedReply n 0x7F (leBytes 1 0x06)))) ∧
      (x.open_ = true → Ends (.heartbeat n) s (d.sealedReply n 0x68 []) ∧
        (op.toNat = 0 ∨ 3 < op.toNat → tell (.keyUpdate n op) 0x01) ∧
        (op = 1 → Ends (.keyUpdate n op) s ((keyed d (fun y => { y with reqKey := Config.nextKey y.reqKey })).sealedReply n 0x69 [1])) ∧
        (op = 2 → Ends (.keyUpdate n op) s ((keyed d (fun y =>
          { y with reqKey := Config.nextKey y.reqKey, rspKey := Config.nextKey y.rspKey, rspSeq := 0 })).sealedReply n 0x69 [2])) ∧
        (op = 3 → Ends (.keyUpdate n op) s (d.sealedReply n 0x69 [3])) ∧
        Ends (.endSession n) s (unlocked (d.sealedReply n 0x6C [])))) ∧
    (d.hears .i3c = false → Ends (.pldmRequest m) s d) ∧
    (d.hears .i3c = true → (∀ p b, d.pldm m = some (p, b) → Ends (.pldmRequest m) s (d.emit (.pldm p b))) ∧
      (d.pldm m = none → Ends (.pldmRequest m) s d)) ∧
    (g.i3c.isSome = true → Ends (.entdaa addr) s d) ∧
    (g.i3c = none → ∃ maker, maker < 2 ^ 15 ∧
      Ends (.entdaa addr) s (({ free with gate := { g with i3c := some addr } } : Dev).emit (.entdaa (d.provisionalId maker) addr))) ∧
    ((d.reg Reg.GHM_DEBUG).toNat.testBit 3 = true → 1 ≤ t.kind.toNat → t.kind.toNat ≤ 7 →
      (d.pfReach = true → g.traceSize ≠ 0 → EndsIn (.traceRecord t) s (fun r =>
        r.outbox = d.outbox ++ [.hostWrite ⟨0, none, .memWrite false, false⟩ (BitVec.ofNat 64 (g.traceBase.toNat + 32 * g.traceIx)) (d.traceBytes t)] ∧
        r.gate = { g with traceIx := (g.traceIx + 1) % g.traceSize, tracePavs := r.gate.tracePavs, traceHaz := r.gate.traceHaz } ∧
        r = { d with outbox := r.outbox, gate := r.gate })) ∧
      (d.pfReach = false ∨ g.traceSize = 0 → EndsIn (.traceRecord t) s (fun r => r.fld (Reg.GHM_EVT 2) ⟨0, 1⟩ = 1 ∧ r.outbox = d.outbox ∧
        r.gate = { g with tracePavs := r.gate.tracePavs, traceHaz := r.gate.traceHaz } ∧ r = { d with regs := r.regs, gate := r.gate }))) ∧
    ((d.reg Reg.GHM_DEBUG).toNat.testBit 3 = false ∨ t.kind = 0 ∨ 7 < t.kind.toNat → Ends (.traceRecord t) s d))

/-! ### Clocks, supply and start (chapter 14) -/

/-- A window's count is shown. A good one raises the count of consecutive good ones, and the source is stable once STABLE_N follow one another; a bad one of a source not failed makes it failed (the crystal's is judged at the next tick unless the oscillator failed in the same window, log 47): its state, event and trigger, its domains run on the internal oscillator, or have no clock while that is not stable, and a non-maskable event tells of it. A stable source is taken back by AUTO_RETURN or by its bit of
CKP_CLK_RETURN, and by nothing else. A gate closes where its bit of CKP_GATE is 0 and the block idle: a port with no frame and no flit unacknowledged, TB1 sending nothing, the predictor not running; it opens where the bit is 1. A port that loses its clock retrains or is DOWN. The loss of every clock clamps the module and shuts every valve. -/
def Obligations.ClockSources : Prop :=
  (∀ (d : Dev) (k count : Nat), k < 5 → (k = 0 ∨ k = 3 ∨ k = 4 ∨ d.toward = []) →
    let r := d.judgeFailed k count
    r.srcState k = 2 ∧ (∀ j, j < 5 → j ≠ k → r.srcState j = d.srcState j) ∧ r.fld (Reg.CKP_CLK_EVT k) ⟨0, 1⟩ = 1 ∧ (15 + k, BitVec.ofNat 32 count) ∈ r.fired ∧
    ((∃ j, j < 5 ∧ (domSrc j = k ∧ d.onFallback j = false ∨ k = 4 ∧ d.onFallback j = true ∧ d.clk.dead.contains j = false)) → r.clk.dead.contains 4 = false →
      ∃ cs, r.outbox.getLast? = some (.nmi k cs)) ∧
    (∀ j, j < 5 → domSrc j = k → r.onFallback j = true ∧ (d.srcState 4 ≠ 1 → d.onFallback j = false → r.clk.dead.contains j = true)) ∧
    (∀ j, j < 5 → domSrc j ≠ k → r.onFallback j = d.onFallback j ∧ (k = 4 → d.onFallback j = true → r.clk.dead.contains j = true)) ∧
    r.mem.raw = d.mem.raw ∧ r.allots = d.allots ∧ r.pavs = d.pavs ∧ r.blks = d.blks) ∧
  (∀ (d : Dev) (count : Nat), d.clk.pend = some count →
    let r := ({ d with clk := { d.clk with pend := none } } : Dev).judgeFailed 3 count
    d.judgeCrystal = if r.starting then r.failStart 3 else r) ∧
  (∀ d : Dev, let w := d.clk.obs; let n := F.CKP_CLKOBS_DIV.get w + 1; let held := F.CKP_CLKOBS_EN.get w = 0 ∨ d.tooFast w = true ∨ d.obsKHz (F.CKP_CLKOBS_SEL.get w) = none
    (held → d.clkobs = none) ∧ (¬ held → ∃ hi lo, d.clkobs = some (F.CKP_CLKOBS_SEL.get w, hi, lo) ∧ hi + lo = 2 * n ∧ (n % 2 = 0 → hi = lo) ∧ (n % 2 = 1 → 1 < n → hi = lo + 2))) ∧
  (∀ (d : Dev) (p : Nat), let x := d.port p
    (x.st = .active ∨ x.away = true → d.portLost p = ((d.leaveActive p).setPort p { x with st := .retrain, away := true, lanes := 0 }).checkRoutes) ∧
    (x.away = false → x.st = .disabled ∨ x.st = .down → d.portLost p = d) ∧
    (x.away = false → x.st ≠ .active → x.st ≠ .disabled → x.st ≠ .down → d.portLost p = (d.enterDown p).checkRoutes ∧ ((d.enterDown p).port p).st = .down)) ∧
  (∀ (s : State) (m : Mx) (dm : Dx) (n : Nat) (v : Word32) (g : Fin 20),
    let d := s.dev
    let k := m.val
    let counted := d.setFld (Reg.CKP_CLK_COUNT k) F.CKP_CLK_COUNT_COUNT (min 0xFFFFF n)
    let good := min d.stableN (Tab.get 0 d.clk.good k + 1)
    let inside := (d.clkRange k).1 ≤ n ∧ n ≤ (d.clkRange k).2
    let clk := fun (e : Dev) (c : Clk) => ({ e with clk := c } : Dev)
    let stable := (clk counted { d.clk with good := Tab.set 0 d.clk.good k good }).setSrcState k 1
    let bad := clk counted { d.clk with
      good := Tab.set 0 d.clk.good k 0, bad := Tab.set none d.clk.bad k (some d.clock),
      pend := if k = 4 then none else if k = 3 ∧ d.srcState 3 ≠ 2 ∧ Tab.get none d.clk.bad 4 ≠ some d.clock then some n else d.clk.pend }
    let back := fun (r : Dev) (a : Nat) => ∀ j, j < 5 → domSrc j = a → r.onFallback j = false ∧ (d.onFallback j = true → r.clk.dead.contains j = false)
    let open_ := (d.reg Reg.CKP_GATE).toNat.testBit g.val
    let idle := (g.val < 18 → (d.port g.val).queue = [] ∧ (d.port g.val).tail = [] ∧ (d.port g.val).replay = []) ∧ (g.val = 18 → (d.can 1).onBus = none) ∧
      (g.val = 19 → d.org.run = none)
    (inside → good < d.stableN ∨ d.srcState k = 1 →
      Ends (.clockWindow m n) s (clk counted { d.clk with good := Tab.set 0 d.clk.good k good })) ∧
    (inside → d.stableN ≤ good → d.srcState k ≠ 1 →
      (k ≠ 4 ∨ d.srcState k ≠ 0 → Ends (.clockWindow m n) s stable) ∧
      (k = 4 → d.srcState k = 0 → Ends (.clockWindow m n) s (clk stable { stable.clk with
        dead := [], relock := if d.clk.dead.contains 1 ∧ d.clk.relock.contains 1 = false then d.clk.relock ++ [1] else d.clk.relock }))) ∧
    (¬ inside → (k = 3 ∨ d.srcState k = 2 → Ends (.clockWindow m n) s bad) ∧
      (k ≠ 3 → d.srcState k ≠ 2 → Ends (.clockWindow m n) s (bad.judgeFailed k n))) ∧
    Ends (.islandRelock dm) s (clk d { d.clk with relock := d.clk.relock.filter (· != dm.val) }).runWaiting ∧
    (d.mem.waiting = [] → d.runWaiting = d) ∧
    (d.fld Reg.CKP_CTRL F.CKP_CTRL_AUTO_RETURN = 1 → d.srcState k = 1 → EndsIn (.clockReturn m) s (fun r => back r k ∧
      (∀ j, j < 5 → domSrc j ≠ k → r.onFallback j = d.onFallback j) ∧ (k = 4 → r.clk.dead = []) ∧ r.pavs = d.pavs ∧ r.mem = d.mem)) ∧
    (d.fld Reg.CKP_CTRL F.CKP_CTRL_AUTO_RETURN ≠ 1 ∨ d.srcState k ≠ 1 → Ends (.clockReturn m) s d) ∧
    EndsIn (.ckpClkReturn v) s (fun r => (∀ a, a < 5 → v.toNat.testBit a = true → d.srcState a = 1 → back r a) ∧
      (∀ j, j < 5 → v.toNat.testBit (domSrc j) = false ∨ d.srcState (domSrc j) ≠ 1 → r.onFallback j = d.onFallback j) ∧
      (v.toNat.testBit 4 = true → d.srcState 4 = 1 → r.clk.dead = []) ∧
      r.pavs = d.pavs ∧ r.mem = d.mem) ∧
    EndsIn .clockLossDetect s (fun r => r.clamp = true ∧ r.clockLoss = true ∧ r.thermAlert = true ∧
      (∀ p, p < 160 → r.pav p = { d.pav p with freq := 400, settling := (d.pav p).settling || !d.clamp }) ∧
      (∀ c, c < 16 → (r.chan c).target = 0 ∧ (r.chan c).level = 0) ∧ r.regs = d.regs ∧ r.mem = d.mem) ∧
    (open_ = false → d.isGated g.val = false → idle →
      Ends (.gateClose g) s (let e := clk d { d.clk with gated := d.clk.gated ++ [g.val] }; if g.val < 18 then e.portLost g.val else e)) ∧
    (open_ = true ∨ d.isGated g.val = true ∨ ¬ idle → Ends (.gateClose g) s d) ∧
    (open_ = true → d.isGated g.val = true →
      Ends (.gateOpen g) s (let e := clk d { d.clk with gated := d.clk.gated.filter (· != g.val) }; if g.val < 18 then e.portBack g.val else e)) ∧
    (open_ = false ∨ d.isGated g.val = false → Ends (.gateOpen g) s d) ∧
    Ends .clkobsUpdate s (clk d { d.clk with obs := d.reg Reg.CKP_CLKOBS }))

/-- The supply. VIN below the warning threshold is shown and raises the warning, once, until it is above the threshold plus 1.0 V. Below the reset threshold the branches go off, and shares, live executions, Cistern and Trellis state and memory contents are lost while bindings stay. CKP_VIN.HOLDUP says so to the Gatehouse alone. The phases of the hold-up follow one another, each acting in its own alone: signing stops and each key's next index is written, or FLASH_ERR stands, a start in
progress records reason 5, valve counts and Sundial records go to flash. A POWER reset, first or after the hold-up once VIN, where it has been measured, is above the start threshold, keeps what flash keeps: journal, image, owner, counts, recorded retirements, the start record; GLB_INCARNATION rises and is never 0. -/
def Obligations.SupplyHoldup : Prop :=
  ∀ (s : State) (vin watts : BitVec 16) (n : Nat),
    let d := s.dev
    let seen := d.setFld Reg.CKP_VIN F.CKP_VIN_VIN vin.toNat
    let sag := seen.setFld Reg.CKP_VIN F.CKP_VIN_SAG 1
    let phase := fun (e : Dev) (k : Nat) => ({ e with sup := { e.sup with holdup := some k } } : Dev)
    let inc := d.reg Reg.GLB_INCARNATION + 1
    (vin.toNat < d.vinWarn → d.fld Reg.CKP_VIN F.CKP_VIN_SAG ≠ 1 → Ends (.vinSag vin) s (((sag.raise Reg.CKP_VIN_EVT).fire 20 vin.toNat).nmi 5)) ∧
    (vin.toNat < d.vinWarn → d.fld Reg.CKP_VIN F.CKP_VIN_SAG = 1 → Ends (.vinSag vin) s sag) ∧
    (d.vinWarn ≤ vin.toNat → Ends (.vinSag vin) s d) ∧
    (d.vinWarn + 100 < vin.toNat → Ends (.vinSagClear vin) s (seen.setFld Reg.CKP_VIN F.CKP_VIN_SAG 0)) ∧
    (vin.toNat ≤ d.vinWarn + 100 → Ends (.vinSagClear vin) s d) ∧ d.vinReset < d.vinWarn ∧
    Ends (.inputPowerMeasure vin watts) s (seen.setReg Reg.CKP_PIN (watts.setWidth 32)) ∧
    (d.sup.holdup = none → vin.toNat < d.vinReset → EndsIn (.branchOff vin) s (fun r =>
      r.sup = { Supply.reset with holdup := some 1, valve := false } ∧ r.mem = { Mem.reset with pkgs := d.mem.pkgs, health := d.mem.health } ∧
      r.fld Reg.CKP_VIN F.CKP_VIN_HOLDUP = 1 ∧ F.CKP_VIN_HOLDUP.get (r.takeReg Reg.CKP_VIN).2 = 0 ∧ r.vdr.resetForce = true ∧ r.trl = Trl.reset ∧ r.allots = d.allots ∧ r.keys = d.keys ∧ r.linkUp = false ∧
      (∀ p, p < 160 → r.pav p = Pav.warm d.floorCap p (d.pav p)) ∧ (∀ b, r.blk b = { CisBlk.reset with allot := (d.blk b).allot }) ∧
      (∀ q, (d.queue q).st ≠ .clearing → (r.queue q).execs = []) ∧ ∀ c, c < 16 → (r.chan c).target = 0)) ∧
    (d.sup.holdup ≠ none ∨ d.vinReset ≤ vin.toNat → Ends (.branchOff vin) s d) ∧
    (d.sup.holdup = some 1 → EndsIn .signingStop s (fun r => r.sup.holdup = some 2 ∧ r.gate.signing = false ∧ r.gate.ident = d.gate.ident ∧
      (d.gate.signing = true → d.gate.journalRises → Config.flashOk d.freeIx = true → r.gate.bound 1 d.gate.identityKey = d.gate.ident) ∧
      (d.gate.signing = true → Config.flashOk d.freeIx = false → r.fld (Reg.GHM_EVT 3) ⟨0, 1⟩ = 1) ∧ d.gate.recordsKept r.gate ∧
      (d.gate.signing = false → r = phase d 2) ∧ (∀ a, a ≠ Reg.GHM_EVT 3 → r.reg a = d.reg a) ∧ r.sun = d.sun)) ∧
    (d.sup.holdup ≠ some 1 → Ends .signingStop s d) ∧
    (d.sup.holdup = some 2 →
      (d.boot.running = true → Ends .startRecord s (phase { d.setReason 5 with boot := { d.boot with recorded := true } } 3)) ∧
      (d.boot.running = false → Ends .startRecord s (phase d 3))) ∧
    (d.sup.holdup ≠ some 2 → Ends .startRecord s d) ∧
    (d.sup.holdup = some 3 → EndsIn .counters s (fun r => r.sup = { d.sup with holdup := some 4 } ∧ (∀ c, c < 16 → r.chan c = { d.chan c with saved := (d.chan c).cycles }) ∧
      r.regs = d.regs ∧ r.gate = d.gate ∧ r.sun = d.sun)) ∧
    (d.sup.holdup ≠ some 3 → Ends .counters s d) ∧
    (d.sup.holdup = some 4 → EndsIn .sundialFlush s (fun r => r.sup = { d.sup with holdup := some 5 } ∧ r.sun.unflushed = 0 ∧ r.gate = d.gate)) ∧
    (d.sup.holdup ≠ some 4 → Ends .sundialFlush s d) ∧
    (d.sup.holdup = none ∨ d.sup.holdup = some 5 ∧ d.vinGood = true → EndsIn .power s (fun r =>
      r.boot.kind = 0 ∧ r.boot.running = false ∧ r.boot.qualified = false ∧ r.sup = Supply.reset ∧ r.mem.raw = [] ∧ r.mem.clean = [] ∧ r.allots = [] ∧ r.qs = [] ∧ r.keys = [] ∧
      r.gate.journal = d.gate.journal ∧ r.gate.image = d.gate.image ∧ r.gate.config = d.gate.config ∧ r.gate.owner = d.gate.owner ∧ r.gate.signing = false ∧
      r.gate.ident = d.gate.identBound ∧ r.attempts = d.attempts ∧ r.reason = d.reason ∧
      r.reg Reg.CKP_RESET_CAUSE = BitVec.ofNat 32 (if d.sup.holdup = none then 0 else 16) ∧
      r.reg Reg.GLB_INCARNATION = (if inc = 0 then 1 else inc) ∧
      (∀ k, r.mem.pkg k = if (d.mem.pkg k).st = .retired ∧ (d.mem.pkg k).recorded = true then d.mem.pkg k else Pkg.reset) ∧
      (∀ c, c < 16 → (r.chan c).cycles = (d.chan c).saved ∧ (r.chan c).target = 0))) ∧
    (d.sup.holdup = some n → n ≠ 5 ∨ d.vinGood = false → Ends .power s d) ∧
    (d.vinGood = true ↔ d.fld Reg.CKP_VIN F.CKP_VIN_VIN = 0 ∨ d.vinReset + 200 < d.fld Reg.CKP_VIN F.CKP_VIN_VIN)

/-- The resets and the phases of a start. WARM keeps memory and bindings and loses shares, GATEHOUSE keeps all that runs, FULL keeps what flash keeps; none acts in a hold-up, which ends a start; at ATTEMPTS 3 a FULL reset takes the place of WARM and GATEHOUSE, and Input qualify, for which VIN must be above the start threshold, enters Lodge. A phase acts only when those before it have ended, and once; one that fails, or the watchdog, fails the start: reason and record, then a FULL reset, but in a hold-up.
One core that fails its self-test is declared failed; more than two erased packages fail Memory training; Release turns on the branches of its kind and serves the requests that waited; Complete clears the record. -/
def Obligations.StartPhases : Prop :=
  (∀ (d : Dev) (k : Nat), k < 256 →
    let r := d.failStart k
    (d.sup.holdup = none → r.reason = k ∧ r.attempts = d.attempts ∧ r.boot.running = false ∧ r.boot.kind = 2 ∧ r.boot.recorded = true ∧
      d.gate.recordsKept r.gate ∧ r.mem.raw = [] ∧ r.allots = [] ∧ r.pavs = []) ∧
    (d.sup.holdup ≠ none → r.reason = k ∧ r.boot = { d.boot with recorded := true } ∧ r.pavs = d.pavs ∧ r.mem = d.mem ∧ r.gate = d.gate)) ∧
  (∀ (s : State) (slot : BitVec 6) (t : SelfTest) (good : List (Fin 20)) (reason : Byte) (ok : Bool),
    let d := s.dev
    let b := d.boot
    let boot := fun (e : Dev) (y : Start) => ({ e with boot := y } : Dev)
    let begins := fun (r : Dev) (kind trigger : Nat) => r.boot.kind = kind ∧ r.boot.running = true ∧ r.boot.keys = false ∧ r.attempts = d.attempts + 1 ∧
      (b.running = true → b.recorded = false → r.reason = 7) ∧
      r.fld Reg.KDV_STATE F.KDV_STATE_MODE = 2 ∧ r.reg Reg.CKP_RESET_CAUSE = BitVec.ofNat 32 (kind + 16 * trigger) ∧ r.gate.phase = 1 ∧ r.gate.up = false ∧
      r.gate.sessions = [] ∧ r.gate.staging = none ∧ r.gate.signing = false ∧ r.keys = d.keys ∧ r.allots = d.allots ∧ r.mem.raw = d.mem.raw ∧
      r.mem.clean = d.mem.clean ∧ r.mem.trained = d.mem.trained
    let badPkg := fun (k : Nat) => k < 20 ∧ (good.map Fin.val).contains k = false ∧ (d.mem.pkg k).st ≠ .retired
    let okA := t.a1 && t.a2
    let okB := t.b1 && t.b2
    (d.sup.holdup ≠ none → ∀ i ∈ [Instr.warm, .full, .gatehouse, .gatehouseWatchdog, .inputQualify, .alwaysOnUp ok slot, .orangerySelfTest t, .startRelease, .memoryTraining good, .computeUp, .complete,
      .startWatchdog, .startFailure reason], Ends i s d) ∧
    (d.sup.holdup = none →
      (d.attempts ≠ 3 → d.attempts < 255 →
        EndsIn .warm s (fun r => begins r 1 2 ∧ (∀ p, p < 160 → r.pav p = Pav.warm d.floorCap p (d.pav p)) ∧ r.sup.link = false ∧ r.sup.compute = false ∧
          r.sup.memory = d.sup.memory) ∧
        EndsIn .gatehouse s (fun r => begins r 3 2 ∧ r.pavs = d.pavs ∧ r.qs = d.qs ∧ r.blks = d.blks ∧ r.trl = d.trl ∧ r.sup = d.sup ∧ r.mem = d.mem) ∧
        EndsIn .gatehouseWatchdog s (fun r => begins r 3 5 ∧ r.pavs = d.pavs ∧ r.qs = d.qs ∧ r.blks = d.blks ∧ r.trl = d.trl ∧ r.sup = d.sup ∧ r.mem = d.mem ∧
          r.gate.journal = d.gate.journal)) ∧
      (d.attempts = 3 → Ends .warm s (d.fullReset 2) ∧ Ends .gatehouse s (d.signingStop.fullReset 2) ∧ Ends .gatehouseWatchdog s ((d.fire 26 0).fullReset 5)) ∧
      Ends .full s (d.signingStop.saveCycles.islandReset 2 2) ∧
      (b.qualified = true ∨ d.vinGood = false → Ends .inputQualify s d) ∧
      (b.qualified = false → d.vinGood = true →
        (d.attempts ≠ 3 → b.recorded = true → Ends .inputQualify s
          (boot (d.setAttempts (d.attempts + 1)) { b with qualified := true, running := true, recorded := false })) ∧
        (d.attempts ≠ 3 → b.recorded = false → EndsIn .inputQualify s (fun r => r.reason = 7 ∧ (d.attempts < 255 → r.attempts = d.attempts + 1) ∧
          r.boot = { b with qualified := true, running := true, recorded := false })) ∧
        (d.attempts = 3 → d.gate.wait.all (· == .ghm) = true → EndsIn .inputQualify s (fun r => r.inLodge = true ∧ r.boot.running = false ∧ r.forced = true ∧
          r.gate.up = true ∧ r.gate.phase = 8 ∧ r.sup = { d.sup with link := true, memory := false, compute := false } ∧ r.attempts = 3 ∧ r.mem = d.mem)) ∧
        (d.attempts = 3 → ∃ e : Dev, e.inLodge = true ∧ e.gate.up = true ∧ e.gate.wait = d.gate.wait.filter (fun m => m != .ghm) ∧
          Ends .inputQualify s e.serveWaits))) ∧
    (d.starting = true → Ends .startWatchdog s (d.failStart 7) ∧ Ends (.startFailure reason) s (d.failStart reason.toNat)) ∧
    (d.starting = false → Ends .startWatchdog s d ∧ Ends (.startFailure reason) s d) ∧
    (d.sup.holdup = none → b.qualified = true → b.alwaysOn = false → d.srcState 3 = 1 → EndsIn (.alwaysOnUp true slot) s (fun r => r.boot = { b with alwaysOn := true, upAt := some d.clock } ∧
      r.sup = { d.sup with pwrgood := true, valve := true } ∧ r.slotN = slot.toNat ∧
      r.fld Reg.ORG_FLOW_REQ F.ORG_FLOW_REQ_REQ = d.fld Reg.ORG_FLOW_REQ F.ORG_FLOW_REQ_QMAX * 32 ∧ r.pavs = d.pavs)) ∧
    (d.sup.holdup = none → b.qualified = true → b.alwaysOn = false → (b.running = true → Ends (.alwaysOnUp false slot) s (d.failStart 3)) ∧
      (b.running = false → Ends (.alwaysOnUp false slot) s d) ∧ (d.srcState 3 ≠ 1 → Ends (.alwaysOnUp true slot) s d)) ∧
    (b.qualified = false ∨ b.alwaysOn = true → Ends (.alwaysOnUp ok slot) s d) ∧
    (d.starting = false ∨ b.alwaysOn = false ∨ b.selfTest = true → Ends (.orangerySelfTest t) s d) ∧
    (d.starting = true → b.alwaysOn = true → b.selfTest = false →
      ((okA = false ∧ okB = false) ∨ t.t3 = false ∨ t.t5 = false ∨ t.t6 = false →
        ∃ e : Dev, e.gate = d.gate ∧ e.sup = d.sup ∧ e.boot = b ∧ Ends (.orangerySelfTest t) s (e.failStart 4)) ∧
      (okA = true ∨ okB = true → t.t3 = true → t.t5 = true → t.t6 = true → EndsIn (.orangerySelfTest t) s (fun r =>
        r.boot = { b with selfTest := true } ∧ r.vdr = { d.vdr with resetForce := false } ∧ r.pavs = d.pavs ∧
        ((r.fld Reg.SUN_SELFTEST F.SUN_SELFTEST_FAIL).testBit 1 = !(t.a1 && t.b1)) ∧ ((r.fld Reg.SUN_SELFTEST F.SUN_SELFTEST_FAIL).testBit 2 = !(t.a2 && t.b2)) ∧
        (∀ k ∈ [3, 5, 6], (r.fld Reg.SUN_SELFTEST F.SUN_SELFTEST_FAIL).testBit k = false) ∧
        (okA = true → okB = true → r.coreSt 0 = d.coreSt 0 ∧ r.coreSt 1 = d.coreSt 1) ∧
        (okA = false → (r.coreSt 0 = 3 ∨ r.coreSt 0 = 4) ∧ r.coreSt 1 = 0) ∧
        (okA = true → okB = false → (r.coreSt 1 = 3 ∨ r.coreSt 1 = 4) ∧ r.coreSt 0 = d.coreSt 0)))) ∧
    (d.gateAt 5 = true → b.selfTest = true → ∃ x : Dev, Ends .startRelease s x.serveWaits ∧ (d.gate.wait = [] → x.serveWaits = x) ∧
      x.boot = { b with released := true } ∧ x.gate = { d.gate with phase := 6, up := true } ∧
      (b.kind ≠ 1 → b.kind ≠ 3 → x.sup = { d.sup with link := true, memory := true } ∧ x.pavs = d.pavs) ∧
      (b.kind = 1 → x.sup = { d.sup with link := true, compute := true } ∧ ∀ p, p < 160 → x.pav p = { d.pav p with freq := 400, rail := 400, lease := d.floorCap }) ∧
      (b.kind = 3 → x.sup = d.sup ∧ x.pavs = d.pavs)) ∧
    (d.gateAt 5 = false ∨ b.selfTest = false → Ends .startRelease s d) ∧
    (d.starting = false ∨ b.released = false ∨ b.trained = true ∨ b.kind = 1 ∨ b.kind = 3 → Ends (.memoryTraining good) s d) ∧
    (d.starting = true → b.released = true → b.trained = false → b.kind ≠ 1 → b.kind ≠ 3 → ∃ e : Dev,
      (∀ k, (badPkg k → e.mem.pkg k = { Pkg.reset with st := .failed, reason := 1 }) ∧ (¬ badPkg k → e.mem.pkg k = d.mem.pkg k)) ∧
      e.mem.raw = d.mem.raw ∧ e.mem.clean = d.mem.clean ∧ e.pavs = d.pavs ∧ e.boot = b ∧
      (e.mem.nErased ≤ 2 → Ends (.memoryTraining good) s { e with mem := { e.mem with trained := true }, boot := { b with trained := true } }) ∧
      (2 < e.mem.nErased → Ends (.memoryTraining good) s (e.failStart 2))) ∧
    (d.starting = true → b.trained = true → b.compute = false → EndsIn .computeUp s (fun r => r.sup = { d.sup with compute := true } ∧
      r.boot = { b with compute := true } ∧ (∀ p, p < 160 → r.pav p = { d.pav p with freq := 400, rail := 400, lease := d.floorCap }) ∧ r.mem = d.mem)) ∧
    (d.starting = false ∨ b.trained = false ∨ b.compute = true → Ends .computeUp s d) ∧
    (d.starting = true → b.keys = true → b.kind = 1 ∨ b.kind = 3 ∨ b.compute = true → EndsIn .complete s (fun r => r.attempts = 0 ∧ r.reason = 0 ∧
      r.fld Reg.KDV_STATE F.KDV_STATE_MODE = 0 ∧ r.boot = { b with running := false, recorded := true } ∧ r.gate.phase = 7 ∧ (23, 0#32) ∈ r.fired ∧
      r.pavs = d.pavs ∧ r.mem = d.mem)) ∧
    (d.starting = false ∨ b.keys = false ∨ (b.kind ≠ 1 ∧ b.kind ≠ 3 ∧ b.compute = false) → Ends .complete s d))

/-! ### The core pair, the Sundial, registers from outside, debug and reset (chapters 13, 15, 16) -/

/-- The judge of the core pair, while the Gatehouse runs. A heartbeat missed HB_MISS times declares the active core FAILED, OUT at the third time within 24 hours, and the standby core takes over when it is in step; records that differ MISMATCH_N times ask for the known-answer test; a core that fails it alone is declared failed, and after a mismatch the standby one, unless the active one alone failed;
a syncing core becomes STANDBY_OK after 1,000 matching records and is declared failed at its third restart. SWAP is ignored without a standby core in step; only READMIT leads out of OUT; a core's own test, the memory patrol, the converters' test and the comparators' test have their effects. -/
def Obligations.CorePair : Prop :=
  ∀ (s : State) (a b equal passed : Bool) (pa pb : Option Bool) (core : Core) (failed : List Nat),
    let d := s.dev
    let read := Instr.coreRecordRead a b equal
    let kat := Instr.knownAnswerTest pa pb
    let pair := fun (e : Dev) (x : Pair) => ({ e with pair := x } : Dev)
    let c := coreIx core
    let up := d.gate.up
    let fail := fun (r : Dev) (k : Nat) => (r.fld Reg.SUN_SELFTEST F.SUN_SELFTEST_FAIL).testBit k
    let cores := fun (r : Dev) => r.coreSt 0 = d.coreSt 0 ∧ r.coreSt 1 = d.coreSt 1 ∧ r.org = d.org ∧ r.vdr = d.vdr ∧ r.pavs = d.pavs ∧ r.mem = d.mem
    (up = false ∨ d.activeIx = none → Ends read s d) ∧
    (up = true → ∀ k, d.activeIx = some k →
      let j := otherCore k
      let rose := (if k = 0 then a else b) = true ∧ (d.coreRec k).halt = false
      let same := equal = true ∧ (d.coreRec j).halt = false
      let seen := d.updCore k (fun x => { x with miss := 0 })
      (¬ rose → (d.coreRec k).miss + 1 < d.hbMiss → Ends read s (d.updCore k (fun x => { x with miss := x.miss + 1 }))) ∧
      (¬ rose → d.hbMiss ≤ (d.coreRec k).miss + 1 → EndsIn read s (fun r => d.declared r k)) ∧
      (rose → 2 < d.coreSt j ∨ (d.coreSt j = 2 ∧ d.pair.copied = false) → Ends read s seen) ∧
      (rose → d.coreSt j = 1 → same → EndsIn read s (fun r => cores r ∧ r.pair = { seen.pair with mism := 0 } ∧ fail r 0 = false)) ∧
      (rose → d.coreSt j = 1 → ¬ same → EndsIn read s (fun r => cores r ∧ fail r 0 = true ∧
        (d.pair.mism + 1 < d.mismatchN → r.pair = { seen.pair with mism := d.pair.mism + 1 }) ∧
        (d.mismatchN ≤ d.pair.mism + 1 → r.pair = { seen.pair with mism := 0, testDue := true } ∧ r.fld (Reg.SUN_PAIR_EVT 1) ⟨0, 1⟩ = 1))) ∧
      (rose → d.coreSt j = 2 → d.pair.copied = true → same →
        (d.pair.matches_ + 1 < 1000 → Ends read s (pair seen { seen.pair with matches_ := d.pair.matches_ + 1 })) ∧
        (1000 ≤ d.pair.matches_ + 1 → EndsIn read s (fun r => r.coreSt j = 1 ∧ r.coreSt k = d.coreSt k ∧ r.fld (Reg.SUN_PAIR_EVT 3) ⟨0, 1⟩ = 1 ∧
          r.pair = { seen.pair with matches_ := 0, restarts := 0, mism := 0 } ∧ r.org = d.org ∧ r.vdr = d.vdr))) ∧
      (rose → d.coreSt j = 2 → d.pair.copied = true → ¬ same →
        (d.pair.restarts < 2 → Ends read s (pair seen { seen.pair with matches_ := 0, copied := false, restarts := d.pair.restarts + 1 })) ∧
        (2 ≤ d.pair.restarts → EndsIn read s (fun r => d.declared r j)))) ∧
    (let k := d.activeIx.getD 0
     let j := otherCore k
     let ra := if d.coreSt k ≤ 2 then (if k = 0 then pa else pb) else none
     let rs := if d.coreSt j ≤ 2 then (if k = 0 then pb else pa) else none
     let due := d.pair.testDue = true ∧ ra.isSome = true ∧ rs.isSome = true
     let losesK := ra = some false ∧ (due → rs = some true)
     let losesJ := (due ∧ ¬ losesK) ∨ (¬ due ∧ rs = some false)
     (up = false ∨ (¬ losesK ∧ ¬ losesJ) → EndsIn kat s (fun r => cores r ∧ (due → r.pair.testDue = false) ∧ (¬ due → r.pair.testDue = d.pair.testDue))) ∧
     (up = true → losesK → ¬ losesJ → EndsIn kat s (fun r => d.declared r k ∧ r.pair.testDue = false)) ∧
     (up = true → losesJ → ¬ losesK → EndsIn kat s (fun r => d.declared r j ∧ r.pair.testDue = false)) ∧
     (up = true → losesJ → losesK → EndsIn kat s (fun r => 3 ≤ r.coreSt k ∧ 3 ≤ r.coreSt j ∧ r.org = d.org ∧ r.vdr = d.vdr)) ∧
     ((ra.isSome = true ∨ rs.isSome = true) → EndsIn kat s (fun r => fail r 1 = (ra == some false || rs == some false)))) ∧
    (d.pair.takeOver = none ∨ up = false → Ends .swapTakeOver s d) ∧
    (up = true → ∀ k, k ≤ 1 → d.pair.takeOver = some k → EndsIn .swapTakeOver s (fun r => r.coreSt k = 0 ∧ r.coreSt (otherCore k) = d.coreSt (otherCore k) ∧
      r.fld Reg.ORG_STATUS F.ORG_STATUS_ACTIVE_CORE = k ∧ r.pair = { d.pair with takeOver := none, actFail := false } ∧
      r.fld (Reg.SUN_PAIR_EVT 0) ⟨0, 1⟩ = 1 ∧ r.pavs = d.pavs ∧ r.org.hazQuiesce = d.org.hazQuiesce ∧ (d.loopsHeld = true → r.vdr = d.vdr))) ∧
    (d.standbyOk = true → up = true → Ends .swap s ((pair d { d.pair with swap := true }).setFld Reg.SUN_PAIR_CTRL F.SUN_PAIR_CTRL_SWAP 1)) ∧
    (d.standbyOk = false ∨ up = false → Ends .swap s d) ∧
    Ends (.readmit core) s (if d.coreSt c = 4 then d.setCoreSt c 3 else d) ∧
    (d.coreSt c ≠ 3 → Ends (.coreSelfTestEnd core passed) s d) ∧
    (d.coreSt c = 3 → Ends (.coreSelfTestEnd core false) s (d.selfTest 1 false) ∧
      EndsIn (.coreSelfTestEnd core true) s (fun r => r.coreSt (otherCore c) = d.coreSt (otherCore c) ∧ (r.coreRec c).miss = 0 ∧ fail r 1 = false ∧ fail r 2 = false ∧
        (d.activeIx = none → d.pair.takeOver = none → r.coreSt c = 0 ∧ r.fld Reg.ORG_STATUS F.ORG_STATUS_ACTIVE_CORE = c ∧
          ∀ z, (d.zone z).on = true → (r.zone z).wasHeld = true) ∧
        (d.activeIx ≠ none ∨ d.pair.takeOver ≠ none → r.coreSt c = 2 ∧ r.org = d.org))) ∧
    (d.coreSt c ≤ 2 → (up = true → EndsIn (.coreMemoryPatrol core) s (fun r => d.declared r c ∧ fail r 2 = true)) ∧
      (up = false → EndsIn (.coreMemoryPatrol core) s (fun r => cores r ∧ fail r 2 = true))) ∧
    (2 < d.coreSt c → Ends (.coreMemoryPatrol core) s d) ∧
    EndsIn (.sensorReferenceTest failed) s (fun r => r.pavs = d.pavs ∧ fail r 4 = failed.any (fun n => (sensorKind n).isSome) ∧
      (∀ n ∈ failed, (sensorKind n).isSome = true → (r.sensor n).suspect = true) ∧
      (∀ n, n ∉ failed ∨ sensorKind n = none → r.sensor n = d.sensor n)) ∧
    EndsIn (.hazardComparatorTest passed) s (fun r => fail r 5 = !passed ∧ (∀ k, k < 7 → k ≠ 5 → fail r k = fail d k) ∧ r.org = d.org)

/-- The Sundial. A trigger that is disabled does nothing; frozen or without room its firing is counted; within the holdoff it is counted in SUPPRESSED; otherwise its record is the last of the RAM buffer, which keeps the 512 most recent, SEQ goes up by 1, and a trigger whose FLUSH is 1, or the 64th unflushed record, flushes. A write to flash puts the first 1,024 records in the
permanent area, which loses none; a full one sends them to the circulating area, which loses only its oldest and never falls below 8,192. A freeze holds until it is cleared or expires. A lookup finds a record of its SEQ in RAM, the permanent or the circulating area, or shows that none stands there. -/
def Obligations.Sundial : Prop :=
  ∀ (s : State) (t : Fin 64) (ctx v : Word32) (l : Fin 4),
    let d := s.dev
    let sun := fun (x : Sun) => ({ d with sun := x } : Dev)
    let e : Dev := { d with fired := d.fired.erase (t.val, ctx) }
    let li := e.fld (Reg.SUN_TRIG_CFG t.val) F.SUN_TRIG_CFG_LIST
    let es := e.sunList li
    let rec_ := e.sunRecord t.val ctx li (es.map (fun w => e.readReg (entryOff w))) (es.any (fun w => e.hidden (entryOff w)))
    let go := d.trigOn t.val = true ∧ (d.sun.frozenAt = none ∨ t.val = 21)
    let new := d.sun.ram.drop (d.sun.ram.length - d.sun.unflushed)
    let last := fun (r : Dev) (t : Nat) (x : SunRec) => r.sun.ram.getLast? = some x ∧ r.sun.ram.length = min 512 (d.sun.ram.length + 1) ∧
      r.sun.next = (d.sun.next + 1) % 2 ^ 32 ∧ Tab.get none r.sun.last t = some d.clock ∧ Tab.get 0 r.sun.supp t = 0 ∧ r.sun.lost = 0 ∧
      (t ≠ 21 → d.fld (Reg.SUN_TRIG_CFG t) F.SUN_TRIG_CFG_FLUSH = 1 ∨ 64 ≤ d.sun.unflushed + 1 → r.sun.unflushed = 0) ∧
      (t = 21 ∨ (d.fld (Reg.SUN_TRIG_CFG t) F.SUN_TRIG_CFG_FLUSH ≠ 1 ∧ d.sun.unflushed + 1 < 64) → r.sun.unflushed = d.sun.unflushed + 1 ∧
        r.sun.perm = d.sun.perm ∧ r.sun.circ = d.sun.circ) ∧ r.regs = d.regs ∧ r.pavs = d.pavs ∧ r.mem = d.mem
    (d.trigOn t.val = false → Ends (.sundialTrigger t ctx) s e) ∧
    (d.trigOn t.val = true → d.sun.frozenAt ≠ none → t.val ≠ 21 → EndsIn (.sundialTrigger t ctx) s (fun r =>
      r.sun = { d.sun with lost := min 0xFFFF (d.sun.lost + 1) } ∧
      r.fld Reg.SUN_LOST F.SUN_LOST_RECORDS = min (2 ^ F.SUN_LOST_RECORDS.width - 1) (d.fld Reg.SUN_LOST F.SUN_LOST_RECORDS + 1))) ∧
    (go → d.heldOff t.val = true → EndsIn (.sundialTrigger t ctx) s (fun r => r.regs = d.regs ∧
      r.sun = { d.sun with supp := Tab.upd 0 d.sun.supp t.val (fun n => min 0xFFFF (n + 1)) })) ∧
    (go → d.heldOff t.val = false → 512 ≤ d.sun.unflushed → EndsIn (.sundialTrigger t ctx) s (fun r =>
      r.sun = { d.sun with next := (d.sun.next + 1) % 2 ^ 32, lost := min 0xFFFF (d.sun.lost + 1) })) ∧
    (go → d.heldOff t.val = false → d.sun.unflushed < 512 → EndsIn (.sundialTrigger t ctx) s (fun r => last r t.val rec_)) ∧
    EndsIn .sundialWrite s (fun r => r.sun.unflushed = 0 ∧ r.sun.ram = d.sun.ram ∧ r.regs = d.regs ∧ (∃ x, r.sun.perm = d.sun.perm ++ x) ∧
      (d.sun.perm.length ≤ 1024 → r.sun.perm.length ≤ 1024) ∧ (8192 ≤ d.sun.circ.length → 8192 ≤ r.sun.circ.length) ∧
      (d.sun.perm.length + new.length ≤ 1024 → r.sun.perm = d.sun.perm ++ new ∧ r.sun.circ = d.sun.circ) ∧
      (1024 ≤ d.sun.perm.length → r.sun.perm = d.sun.perm ∧ ∃ x, x ++ r.sun.circ = d.sun.circ ++ new)) ∧
    (Tab.get none d.sun.changed l.val = none → Ends (.listChangeRecord l) s d) ∧
    (Tab.get none d.sun.changed l.val ≠ none → EndsIn (.listChangeRecord l) s (fun r => Tab.get none r.sun.changed l.val = none ∧
      (d.trigOn 61 = true → d.sun.frozenAt = none → d.heldOff 61 = false → d.sun.unflushed < 512 →
        last r 61 (d.sunRecord 61 (BitVec.ofNat 32 l.val) l.val (d.sunList l.val) false)))) ∧
    EndsIn (.freeze v) s (fun r => r.fld Reg.SUN_CTRL F.SUN_CTRL_FREEZE = F.SUN_CTRL_FREEZE.get v ∧
      (F.SUN_CTRL_FREEZE.get v = 0 → r.sun = { d.sun with frozenAt := none }) ∧
      (F.SUN_CTRL_FREEZE.get v = 1 → d.sun.frozenAt = none → r.sun = { d.sun with frozenAt := some d.clock }) ∧
      (F.SUN_CTRL_FREEZE.get v = 1 → d.sun.frozenAt ≠ none → r.sun = d.sun)) ∧
    Ends .freezeExpiry s (if d.sun.frozenAt.isSome then (sun { d.sun with frozenAt := none }).setFld Reg.SUN_CTRL F.SUN_CTRL_FREEZE 0 else d) ∧
    EndsIn (.sunSoft v) s (fun r => r = { d with fired := r.fired } ∧ r.fired = d.fired ++
      (if v.toNat.testBit 0 then [(62, BitVec.ofNat 32 (F.SUN_SOFT_CONTEXT.get v))] else []) ++
      (if v.toNat.testBit 1 then [(63, BitVec.ofNat 32 (F.SUN_SOFT_CONTEXT.get v))] else [])) ∧
    EndsIn (.sunRdSeq v) s (fun r => r.reg Reg.SUN_RD_SEQ = v ∧ r.sun = { d.sun with busy := true } ∧ ∀ o, o ≠ Reg.SUN_RD_SEQ → r.reg o = d.reg o) ∧
    (d.sun.busy = false → Ends .sundialLookupEnd s d) ∧
    (d.sun.busy = true → EndsIn .sundialLookupEnd s (fun r => r.sun.busy = false ∧ r.regs = d.regs ∧ r.sun.ram = d.sun.ram ∧
      (∀ x, r.sun.found = some x → x.seq = (d.reg Reg.SUN_RD_SEQ).toNat ∧
        (r.sun.place = 1 ∧ x ∈ d.sun.ram ∨ r.sun.place = 2 ∧ x ∈ d.sun.perm ∨ r.sun.place = 3 ∧ x ∈ d.sun.circ)) ∧
      (r.sun.found = none → r.sun.place = 0 ∧ ∀ x ∈ d.sun.ram ++ d.sun.perm ++ d.sun.circ, x.seq ≠ (d.reg Reg.SUN_RD_SEQ).toNat)))

/-- Accesses to registers from outside. A write follows the access codes bit by bit: RW takes the bit, RWL while its lock is clear, a 1 sets RW1S and clears RW1C, and every other bit stays; a read returns the register and clears its RC fields, and of a gated block it returns 0; an
access of another size or alignment is dropped, reads as zeros and sets GLB_ACC_EVT; a 64-bit write takes the upper dword first, a 64-bit read the lower; a read of the low half of a pair latches the high half. Before the function is ready, and in Lodge outside PF BAR2, no access has an effect. -/
def Obligations.RegisterAccess : Prop :=
  ∀ (s : State) (off size : Nat) (v : Word64) (wr : Bool),
    let d := s.dev
    let lo := v.setWidth 32
    let refused := if off < 0x4000000 then d.raise Reg.GLB_ACC_EVT else d
    let isRegister := fun (x : RegRow) => regRowAt off = some x
    let m32 := fun (n : Nat) => BitVec.ofNat 32 n
    (d.noBar off = true → Ends (.registerWrite off v size) s d ∧ Ends (.rcFieldRead off size) s d ∧ Ends (.bar0RefusedAccess off size wr) s d) ∧
    (d.noBar off = false →
      Ends (.bar0RefusedAccess off size true) s refused ∧ Ends (.bar0RefusedAccess off size false) s (refused.emit (.regData off size 0)) ∧
      (¬ (size = 4 ∧ off % 4 = 0 ∨ size = 8 ∧ off % 8 = 0) →
        Ends (.registerWrite off v size) s refused ∧ Ends (.rcFieldRead off size) s (refused.emit (.regData off size 0)))) ∧
    (refused.fld Reg.GLB_ACC_EVT ⟨0, 1⟩ = if off < 0x4000000 then 1 else d.fld Reg.GLB_ACC_EVT ⟨0, 1⟩) ∧
    (d.reaches off → plainWrite off → ∀ x, isRegister x → EndsIn (.registerWrite off v 4) s (fun r =>
      r = { d with regs := r.regs } ∧ (∀ o, o ≠ off → r.reg o = d.reg o) ∧
      ∀ k, k < 32 → (r.reg off).getLsbD k =
        if (m32 x.rw1c).getLsbD k && lo.getLsbD k then false
        else if (m32 x.rw1s).getLsbD k && lo.getLsbD k then true
        else if (m32 x.rw).getLsbD k || ((m32 x.rwl).getLsbD k && !d.isLocked x) then lo.getLsbD k
        else (d.reg off).getLsbD k)) ∧
    (d.reaches off → plainWrite off → regRowAt off = none → Ends (.registerWrite off v 4) s d) ∧
    (d.reaches off → off ≠ Reg.TBC_NT_LO → off ≠ Reg.SUN_OPSEC_LO → ∀ x, isRegister x → EndsIn (.rcFieldRead off 4) s (fun r =>
      r.outbox = d.outbox ++ [.regData off 4 ((d.readReg off).setWidth 64)] ∧ r.reg off = d.reg off &&& ~~~ (m32 x.rc) ∧
      (∀ o, o ≠ off → r.reg o = d.reg o) ∧ r.pavs = d.pavs ∧ r.mem = d.mem)) ∧
    (d.reaches Reg.TBC_NT_LO → EndsIn (.rcFieldRead Reg.TBC_NT_LO 4) s (fun r => r.time = { d.time with ntHi := d.nt / 2 ^ 32 })) ∧
    (d.reaches Reg.SUN_OPSEC_LO → EndsIn (.rcFieldRead Reg.SUN_OPSEC_LO 4) s (fun r => r.sun = { d.sun with opsecHi := d.opsec / 2 ^ 32 })) ∧
    (d.reaches off → d.reaches (off + 4) → off % 8 = 0 → off ≠ Reg.TBC_NT_LO → off ≠ Reg.SUN_OPSEC_LO → regRowAt off ≠ none → regRowAt (off + 4) ≠ none →
      ∀ t, Ends (.rcFieldRead off 4) s t → EndsIn (.rcFieldRead off 8) s (fun r => r.outbox = d.outbox ++
        [.regData off 8 (BitVec.ofNat 64 ((t.readReg (off + 4)).toNat * 2 ^ 32 + (d.readReg off).toNat))])) ∧
    (d.hp.ready = true → d.inLodge = false → off % 4 = 0 → off < 0x4000000 → d.hidden off = true →
      Ends (.rcFieldRead off 4) s (d.emit (.regData off 4 0)) ∧ Ends (.registerWrite off v 4) s d) ∧
    (∀ t, off % 8 = 0 → Ends (.registerWrite (off + 4) (v >>> 32) 4) s t → ∀ u, Ends (.registerWrite off v 4) { s with dev := t } u →
      Ends (.registerWrite off v 8) s u)

/-- Operator debug. Every instruction sets SESSION, an access MEM_ACCESS, a halt HALTED; a halted unit is released by a resume alone; an inspection shows a steward's pc and scalars, or a core's state; an access to a bed, a plot or a register shows or writes what stands there, and outside them it shows nothing and changes nothing but the debug word; the cable's presence is ATTACHED. -/
def Obligations.OperatorDebug : Prop :=
  ∀ (s : State) (p : Pv) (u : DebugUnit) (a n off : Nat) (bs : Bytes) (v : Word32) (on : Bool),
    let d := s.dev
    let w := (d.reg Reg.GHM_DEBUG).toNat % 64
    let word := fun (r : Dev) (k : Nat) => (r.reg Reg.GHM_DEBUG).toNat = w ||| k
    let inBed := a + n ≤ 2621440
    let jtag := fun (op : JtagOp) => Instr.privateJtagInstruction op
    let halted := fun (r : Dev) (h : Bool) => (∀ q : Pv, (r.pav q.val).halted = if u = .steward q then h else (d.pav q.val).halted) ∧
      (∀ k : Core, (r.coreRec (coreIx k)).halt = if u = .core k then h else (d.coreRec (coreIx k)).halt) ∧ r.mem = d.mem ∧ r.outbox = d.outbox
    let shows := fun (r : Dev) (b : Bytes) => r.outbox = d.outbox ++ [.jtag b]
    let isReg := off % 4 = 0 ∧ off < 0x4000000
    EndsIn (.debugHalt u) s (fun r => halted r true ∧ word r 0x6) ∧
    EndsIn (jtag (.halt u)) s (fun r => halted r true ∧ word r 0x6) ∧
    EndsIn (jtag (.resume u)) s (fun r => halted r false ∧ word r 0x2) ∧
    EndsIn (jtag (.inspect u)) s (fun r => word r 0x2 ∧ r.pavs = d.pavs ∧ r.mem = d.mem ∧ r.pair = d.pair ∧
      (∀ q, u = .steward q → shows r (leBytes 8 (d.pav q.val).pc.toNat ++ (List.range 32).flatMap (fun k => leBytes 8 (Tab.get 0 (d.pav q.val).s k).toNat))) ∧
      (∀ k, u = .core k → shows r (leBytes 4 (d.coreSt (coreIx k))))) ∧
    EndsIn (jtag (.readBed p a n)) s (fun r => word r 0x22 ∧ r.pavs = d.pavs ∧ r.mem = d.mem ∧
      (inBed → shows r ((d.pav p.val).bedRead a n)) ∧ (¬ inBed → shows r [])) ∧
    EndsIn (jtag (.writeBed p a bs)) s (fun r => word r 0x22 ∧ r.mem = d.mem ∧ (∀ q, q ≠ p.val → r.pav q = d.pav q) ∧
      (a + bs.length ≤ 2621440 → r.pav p.val = (d.pav p.val).bedWrite a bs ∧ (r.pav p.val).bedRead a bs.length = bs) ∧
      (2621440 < a + bs.length → r.pavs = d.pavs)) ∧
    (d.maExists a n = false ∨ d.mem.trained = false → EndsIn (jtag (.readPlot a n)) s (fun r => word r 0x22 ∧ r.mem = d.mem ∧ r.pavs = d.pavs ∧ shows r [])) ∧
    (d.maExists a bs.length = false ∨ d.mem.trained = false → EndsIn (jtag (.writePlot a bs)) s (fun r => word r 0x22 ∧ r.mem = d.mem ∧ r.pavs = d.pavs)) ∧
    (d.maExists a n = true → d.mem.trained = true → Ends (jtag (.readPlot a n)) s ((d.readArrives [] a n .jtag).debugBits 0 0x22) ∧
      (∀ e r, d.blocked a n = false → d.tryRead [] a n .jtag = (e, r) → r ≠ .wait →
        d.readArrives [] a n .jtag = e.emit (.jtag (match r with | .ok b => b | _ => [])))) ∧
    (d.maExists a bs.length = true → d.mem.trained = true → Ends (jtag (.writePlot a bs)) s ((d.writeArrives [] a bs false .jtag).debugBits 0 0x22)) ∧
    (isReg → EndsIn (jtag (.readReg off)) s (fun r => r.outbox = d.outbox ++ [.jtag (leBytes 4 (d.takeReg off).2.toNat)] ∧ r.pavs = d.pavs) ∧
      Ends (jtag (.writeReg off v)) s ((d.writeReg off v).debugBits 0 0x22)) ∧
    (¬ isReg → EndsIn (jtag (.readReg off)) s (fun r => word r 0x22 ∧ r.pavs = d.pavs ∧ r.mem = d.mem ∧ shows r []) ∧
      EndsIn (jtag (.writeReg off v)) s (fun r => word r 0x22 ∧ r.pavs = d.pavs ∧ r.mem = d.mem ∧ r.outbox = d.outbox)) ∧
    EndsIn (.attachedChange on) s (fun r => (r.reg Reg.GHM_DEBUG).toNat = w - w % 2 + bit on ∧ r.pavs = d.pavs ∧
      (w = (d.reg Reg.GHM_DEBUG).toNat → w % 2 = bit on → r = d))

/-- The block after a POWER reset: no command waits, every table is in its canonical form, queues are DISABLED and allotments UNBOUND, no memory byte is listed and no granule is clean, every Pavilion, ledger block and port is at its reset value, no start has begun, the journal's SEQ rises, and every register reads its reset value. -/
def Obligations.ResetState : Prop :=
  let d := State.reset.dev
  State.reset.pending = [] ∧ d.canonical = true ∧ d.gate.journalRises ∧ d.outbox = [] ∧ d.mem.raw = [] ∧ d.mem.clean = [] ∧
  (∀ q, (d.queue q).st = .disabled) ∧ (∀ a, (d.allot a).st = .unbound ∧ (d.allot a).serial = 0) ∧ (∀ off, d.reg off = regReset off) ∧
  (∀ p, d.pav p = Pav.reset p ∧ (d.pav p).share = none ∧ (d.pav p).s = [] ∧ (d.pav p).bed = [] ∧ (d.pav p).flags = 0 ∧ (d.pav p).allot = 0) ∧
  (∀ b, (d.blk b) = CisBlk.reset) ∧ (∀ p, d.port p = Port.reset) ∧ d.boot.running = false ∧ d.boot.qualified = false ∧
  d.inLodge = false ∧ d.clamp = false ∧ d.sup.holdup = none

/-- Whatever command runs, in whatever state: of every valid record in the flash journal of stateful keys there stands afterwards a valid record of the same key and kind with the same or a later SEQ, and where SEQ rises strictly through the journal, it rises strictly through it afterwards. A bound once written is therefore superseded only by a later record, over signatures, changes of the sector, resets, hold-ups and failed starts. -/
def Obligations.JournalGrows : Prop :=
  ∀ s t : State, step s = .next t → s.dev.gate.recordsKept t.dev.gate ∧ (s.dev.gate.journalRises → t.dev.gate.journalRises)
end

