-- ==== Sys2Proof/Laws/Tab.lean ====
section
/-! SUPPORT. Sparse tables: a read after a write, on every table, and every operation keeps the canonical form. -/

namespace Sys2Proof.Machine

variable {α : Type}

theorem Tab.getD_del (dflt : Nat → α) (t : Tab α) (i j : Nat) :
    Tab.getD dflt (t.del i) j = if j = i then dflt j else Tab.getD dflt t j := by
  induction t with
  | nil => simp [Tab.del, Tab.getD]
  | cons e t ih =>
    obtain ⟨k, w⟩ := e
    by_cases hk : k = i
    · subst hk
      have : Tab.del ((k, w) :: t) k = Tab.del t k := by simp [Tab.del]
      rw [this, ih]
      by_cases hj : j = k <;> simp [Tab.getD, hj]
    · have : Tab.del ((k, w) :: t) i = (k, w) :: Tab.del t i := by simp [Tab.del, hk]
      rw [this]
      simp only [Tab.getD, ih]
      by_cases hj : j = k
      · subst hj; simp [hk]
      · simp [hj]

theorem Tab.getD_ins (dflt : Nat → α) (t : Tab α) (i j : Nat) (v : α) (h : ∀ e ∈ t, e.1 ≠ i) :
    Tab.getD dflt (Tab.ins i v t) j = if j = i then v else Tab.getD dflt t j := by
  induction t with
  | nil => simp [Tab.ins, Tab.getD]
  | cons e t ih =>
    obtain ⟨k, w⟩ := e
    have hk : k ≠ i := h (k, w) (by simp)
    have ih := ih (fun e he => h e (by simp [he]))
    by_cases hlt : i < k
    · simp [Tab.ins, hlt, Tab.getD]
    · simp only [Tab.ins, hlt, if_false, Tab.getD, ih]
      by_cases hj : j = k
      · subst hj; simp [hk]
      · simp [hj]

/-- A read after a write, whatever the table. -/
theorem Tab.getD_setD [DecidableEq α] (dflt : Nat → α) (t : Tab α) (i j : Nat) (v : α) :
    Tab.getD dflt (Tab.setD dflt t i v) j = if j = i then v else Tab.getD dflt t j := by
  unfold Tab.setD
  split
  · next h => rw [Tab.getD_del]; by_cases hj : j = i <;> simp [hj, h]
  · rw [Tab.getD_ins _ _ _ _ _ (by simp [Tab.del]), Tab.getD_del]
    by_cases hj : j = i <;> simp [hj]

@[simp] theorem Tab.getD_setD_self [DecidableEq α] (dflt : Nat → α) (t : Tab α) (i : Nat) (v : α) :
    Tab.getD dflt (Tab.setD dflt t i v) i = v := by simp [Tab.getD_setD]

theorem Tab.getD_setD_ne [DecidableEq α] (dflt : Nat → α) (t : Tab α) {i j : Nat} (v : α) (h : j ≠ i) :
    Tab.getD dflt (Tab.setD dflt t i v) j = Tab.getD dflt t j := by simp [Tab.getD_setD, h]

@[simp] theorem Tab.get_set_self [DecidableEq α] (d : α) (t : Tab α) (i : Nat) (v : α) : (t.set d i v).get d i = v := by
  simp [Tab.get, Tab.set]

theorem Tab.get_set [DecidableEq α] (d : α) (t : Tab α) (i j : Nat) (v : α) :
    (t.set d i v).get d j = if j = i then v else t.get d j := by
  simp [Tab.get, Tab.set, Tab.getD_setD]

theorem Tab.get_set_ne [DecidableEq α] (d : α) (t : Tab α) {i j : Nat} (v : α) (h : j ≠ i) :
    (t.set d i v).get d j = t.get d j := by simp [Tab.get_set, h]

@[simp] theorem Tab.get_nil (d : α) (i : Nat) : Tab.get d ([] : Tab α) i = d := rfl

/-- A read at key `j` after a run of writes from key `i`. -/
theorem Tab.get_setRun [DecidableEq α] (d : α) (vs : List α) (t : Tab α) (i j : Nat) :
    (t.setRun d i vs).get d j = if i ≤ j ∧ j < i + vs.length then vs.getD (j - i) d else t.get d j := by
  induction vs generalizing t i with
  | nil => rw [Tab.setRun, if_neg (by simp)]
  | cons v vs ih =>
    rw [Tab.setRun, ih]
    by_cases h1 : i + 1 ≤ j ∧ j < i + 1 + vs.length
    · have h2 : i ≤ j ∧ j < i + (v :: vs).length := by simp; omega
      rw [if_pos h1, if_pos h2]
      obtain ⟨m, hm⟩ : ∃ m, j - i = m + 1 := ⟨j - i - 1, by omega⟩
      have : j - (i + 1) = m := by omega
      rw [hm, this]; simp
    · rw [if_neg h1, Tab.get_set]
      by_cases h2 : j = i
      · subst h2; simp
      · rw [if_neg h2, if_neg]; simp; omega

@[simp] theorem Tab.getRun_length (d : α) (t : Tab α) (i n : Nat) : (t.getRun d i n).length = n := by
  induction n generalizing i with
  | zero => rfl
  | succ n ih => simp [Tab.getRun, ih]

theorem Tab.getRun_getD (d : α) (t : Tab α) (i n k : Nat) (h : k < n) : (t.getRun d i n).getD k d = t.get d (i + k) := by
  induction n generalizing i k with
  | zero => omega
  | succ n ih =>
    cases k with
    | zero => simp [Tab.getRun]
    | succ k => simp only [Tab.getRun, List.getD_cons_succ]; rw [ih (i + 1) k (by omega)]; congr 1; omega

/-- A run of writes read back. -/
theorem Tab.getRun_setRun [DecidableEq α] (d : α) (vs : List α) (t : Tab α) (i : Nat) :
    (t.setRun d i vs).getRun d i vs.length = vs := by
  apply List.ext_getElem (by simp)
  intro k h1 h2
  have := Tab.getRun_getD d (t.setRun d i vs) i vs.length k h2
  rw [Tab.get_setRun, if_pos (by omega)] at this
  simpa [List.getD_eq_getElem?_getD, h1, h2] using this

/-! ### The canonical form -/

theorem Tab.wfFrom_mono [DecidableEq α] (dflt : Nat → α) {b c : Nat} (h : b ≤ c) :
    ∀ t : Tab α, Tab.wfFrom dflt c t = true → Tab.wfFrom dflt b t = true
  | [], _ => rfl
  | (k, v) :: t, hw => by
    simp only [Tab.wfFrom, Bool.and_eq_true, decide_eq_true_eq] at hw ⊢
    exact ⟨⟨by omega, hw.1.2⟩, hw.2⟩

theorem Tab.wfFrom_filter [DecidableEq α] (dflt : Nat → α) (p : Nat × α → Bool) :
    ∀ (b : Nat) (t : Tab α), Tab.wfFrom dflt b t = true → Tab.wfFrom dflt b (t.filter p) = true
  | _, [], _ => rfl
  | b, (k, v) :: t, hw => by
    simp only [Tab.wfFrom, Bool.and_eq_true, decide_eq_true_eq] at hw
    have ih := Tab.wfFrom_filter dflt p (k + 1) t hw.2
    by_cases hp : p (k, v)
    · simp only [List.filter, hp, Tab.wfFrom, Bool.and_eq_true, decide_eq_true_eq]
      exact ⟨hw.1, ih⟩
    · simp only [List.filter, hp]
      exact Tab.wfFrom_mono dflt (by omega) _ ih

theorem Tab.wfFrom_ins [DecidableEq α] (dflt : Nat → α) (i : Nat) (v : α) (hv : v ≠ dflt i) :
    ∀ (b : Nat) (t : Tab α), b ≤ i → (∀ e ∈ t, e.1 ≠ i) → Tab.wfFrom dflt b t = true →
      Tab.wfFrom dflt b (Tab.ins i v t) = true
  | b, [], hb, _, _ => by simp [Tab.ins, Tab.wfFrom, hb, hv]
  | b, (k, w) :: t, hb, hne, hw => by
    have hk : k ≠ i := hne (k, w) (by simp)
    simp only [Tab.wfFrom, Bool.and_eq_true, decide_eq_true_eq] at hw
    by_cases hlt : i < k
    · simp only [Tab.ins, hlt, if_true, Tab.wfFrom, Bool.and_eq_true, decide_eq_true_eq]
      exact ⟨⟨hb, hv⟩, ⟨by omega, hw.1.2⟩, hw.2⟩
    · simp only [Tab.ins, hlt, if_false, Tab.wfFrom, Bool.and_eq_true, decide_eq_true_eq]
      exact ⟨hw.1, Tab.wfFrom_ins dflt i v hv (k + 1) t (by omega) (fun e he => hne e (by simp [he])) hw.2⟩

/-- A write keeps the canonical form. -/
theorem Tab.wf_setD [DecidableEq α] (dflt : Nat → α) (t : Tab α) (i : Nat) (v : α) (h : Tab.wf dflt t = true) :
    Tab.wf dflt (Tab.setD dflt t i v) = true := by
  have hd := Tab.wfFrom_filter dflt (fun e => e.1 != i) 0 t h
  unfold Tab.setD
  split
  · exact hd
  · next hv => exact Tab.wfFrom_ins dflt i v hv 0 _ (by omega) (by simp [Tab.del]) hd

theorem Tab.wf_set [DecidableEq α] (d : α) (t : Tab α) (i : Nat) (v : α) (h : Tab.wf (fun _ => d) t = true) :
    Tab.wf (fun _ => d) (t.set d i v) = true := Tab.wf_setD _ t i v h

theorem Tab.wf_setRun [DecidableEq α] (d : α) (vs : List α) (t : Tab α) (i : Nat) (h : Tab.wf (fun _ => d) t = true) :
    Tab.wf (fun _ => d) (t.setRun d i vs) = true := by
  induction vs generalizing t i with
  | nil => exact h
  | cons v vs ih => exact ih _ _ (Tab.wf_set d t i v h)

theorem Tab.wf_clearRange [DecidableEq α] (dflt : Nat → α) (t : Tab α) (lo hi : Nat) (h : Tab.wf dflt t = true) :
    Tab.wf dflt (t.clearRange lo hi) = true := Tab.wfFrom_filter dflt _ 0 t h

theorem Tab.wf_filter [DecidableEq α] (dflt : Nat → α) (t : Tab α) (p : Nat × α → Bool) (h : Tab.wf dflt t = true) :
    Tab.wf dflt (t.filter p) = true := Tab.wfFrom_filter dflt p 0 t h

theorem Tab.wf_mapV [DecidableEq α] (dflt : Nat → α) (f : Nat → α → α) (t : Tab α) (h : Tab.wf dflt t = true) :
    Tab.wf dflt (t.mapV dflt f) = true := by
  have go : ∀ (l t' : Tab α), Tab.wf dflt t' = true →
      Tab.wf dflt (l.foldl (fun a e => Tab.setD dflt a e.1 (f e.1 (Tab.getD dflt t e.1))) t') = true := by
    intro l
    induction l with
    | nil => intro t' h'; exact h'
    | cons e l ih => intro t' h'; exact ih _ (Tab.wf_setD dflt t' _ _ h')
  exact go t t h

/-- Mapping the listed values is mapping every value, when the default maps to itself. -/
theorem Tab.getD_mapV [DecidableEq α] (dflt : Nat → α) (f : Nat → α → α) (t : Tab α) (i : Nat) (hf : ∀ k, f k (dflt k) = dflt k) :
    Tab.getD dflt (t.mapV dflt f) i = f i (Tab.getD dflt t i) := by
  have out : ∀ (u : Tab α), (∀ e ∈ u, e.1 ≠ i) → Tab.getD dflt u i = dflt i := by
    intro u
    induction u with
    | nil => intro _; rfl
    | cons e u ih =>
      intro hu
      have h1 : i ≠ e.1 := fun h => hu e (by simp) h.symm
      simp [Tab.getD, h1, ih (fun e he => hu e (by simp [he]))]
  have go : ∀ (l t' : Tab α),
      Tab.getD dflt (l.foldl (fun a e => Tab.setD dflt a e.1 (f e.1 (Tab.getD dflt t e.1))) t') i =
        if ∃ e ∈ l, e.1 = i then f i (Tab.getD dflt t i) else Tab.getD dflt t' i := by
    intro l
    induction l with
    | nil => intro t'; simp
    | cons e l ih =>
      intro t'
      simp only [List.foldl, ih]
      by_cases h1 : ∃ e ∈ l, e.1 = i
      · have h2 : ∃ x ∈ e :: l, x.1 = i := by obtain ⟨x, hx, hi⟩ := h1; exact ⟨x, by simp [hx], hi⟩
        rw [if_pos h1, if_pos h2]
      · rw [if_neg h1, Tab.getD_setD]
        by_cases h2 : i = e.1
        · rw [if_pos h2, if_pos ⟨e, by simp, h2.symm⟩, h2]
        · rw [if_neg h2, if_neg]
          rintro ⟨x, hx, hi⟩
          rcases List.mem_cons.1 hx with rfl | hx
          · exact h2 hi.symm
          · exact h1 ⟨x, hx, hi⟩
  unfold Tab.mapV
  rw [go]
  split
  · rfl
  · next h => rw [out t (fun e he hi => h ⟨e, he, hi⟩), hf]

end Sys2Proof.Machine
end

