-- ==== Sys2Proof/Laws/State.lean ====
section
/-! SUPPORT. What each update of the block and of a Pavilion leaves unchanged, one lemma per field, and what its own field reads
as afterwards, so that no proof unfolds a record update. -/

namespace Sys2Proof.Machine

/-! ### Updates of the block -/

@[simp] theorem Dev.setReg_pavs (d : Dev) (off : Nat) (v : Word32) : (d.setReg off v).pavs = d.pavs := rfl
@[simp] theorem Dev.setReg_blks (d : Dev) (off : Nat) (v : Word32) : (d.setReg off v).blks = d.blks := rfl
@[simp] theorem Dev.setReg_cisMarks (d : Dev) (off : Nat) (v : Word32) : (d.setReg off v).cisMarks = d.cisMarks := rfl
@[simp] theorem Dev.setReg_mem (d : Dev) (off : Nat) (v : Word32) : (d.setReg off v).mem = d.mem := rfl
@[simp] theorem Dev.setReg_hp (d : Dev) (off : Nat) (v : Word32) : (d.setReg off v).hp = d.hp := rfl
@[simp] theorem Dev.setReg_qs (d : Dev) (off : Nat) (v : Word32) : (d.setReg off v).qs = d.qs := rfl
@[simp] theorem Dev.setReg_allots (d : Dev) (off : Nat) (v : Word32) : (d.setReg off v).allots = d.allots := rfl
@[simp] theorem Dev.setReg_clearOp (d : Dev) (off : Nat) (v : Word32) : (d.setReg off v).clearOp = d.clearOp := rfl
@[simp] theorem Dev.setReg_keys (d : Dev) (off : Nat) (v : Word32) : (d.setReg off v).keys = d.keys := rfl
@[simp] theorem Dev.setReg_trl (d : Dev) (off : Nat) (v : Word32) : (d.setReg off v).trl = d.trl := rfl
@[simp] theorem Dev.setReg_vdr (d : Dev) (off : Nat) (v : Word32) : (d.setReg off v).vdr = d.vdr := rfl
@[simp] theorem Dev.setReg_org (d : Dev) (off : Nat) (v : Word32) : (d.setReg off v).org = d.org := rfl
@[simp] theorem Dev.setReg_cans (d : Dev) (off : Nat) (v : Word32) : (d.setReg off v).cans = d.cans := rfl
@[simp] theorem Dev.setReg_time (d : Dev) (off : Nat) (v : Word32) : (d.setReg off v).time = d.time := rfl
@[simp] theorem Dev.setReg_hb (d : Dev) (off : Nat) (v : Word32) : (d.setReg off v).hb = d.hb := rfl
@[simp] theorem Dev.setReg_gate (d : Dev) (off : Nat) (v : Word32) : (d.setReg off v).gate = d.gate := rfl
@[simp] theorem Dev.setReg_clk (d : Dev) (off : Nat) (v : Word32) : (d.setReg off v).clk = d.clk := rfl
@[simp] theorem Dev.setReg_sup (d : Dev) (off : Nat) (v : Word32) : (d.setReg off v).sup = d.sup := rfl
@[simp] theorem Dev.setReg_boot (d : Dev) (off : Nat) (v : Word32) : (d.setReg off v).boot = d.boot := rfl
@[simp] theorem Dev.setReg_pair (d : Dev) (off : Nat) (v : Word32) : (d.setReg off v).pair = d.pair := rfl
@[simp] theorem Dev.setReg_sun (d : Dev) (off : Nat) (v : Word32) : (d.setReg off v).sun = d.sun := rfl
@[simp] theorem Dev.setReg_fired (d : Dev) (off : Nat) (v : Word32) : (d.setReg off v).fired = d.fired := rfl
@[simp] theorem Dev.setReg_clamp (d : Dev) (off : Nat) (v : Word32) : (d.setReg off v).clamp = d.clamp := rfl
@[simp] theorem Dev.setReg_clockLoss (d : Dev) (off : Nat) (v : Word32) : (d.setReg off v).clockLoss = d.clockLoss := rfl
@[simp] theorem Dev.setReg_m1024 (d : Dev) (off : Nat) (v : Word32) : (d.setReg off v).m1024 = d.m1024 := rfl
@[simp] theorem Dev.setReg_clock (d : Dev) (off : Nat) (v : Word32) : (d.setReg off v).clock = d.clock := rfl
@[simp] theorem Dev.setReg_steward (d : Dev) (off : Nat) (v : Word32) : (d.setReg off v).steward = d.steward := rfl
@[simp] theorem Dev.setReg_freeIx (d : Dev) (off : Nat) (v : Word32) : (d.setReg off v).freeIx = d.freeIx := rfl
@[simp] theorem Dev.setReg_acceptIx (d : Dev) (off : Nat) (v : Word32) : (d.setReg off v).acceptIx = d.acceptIx := rfl
@[simp] theorem Dev.setReg_outbox (d : Dev) (off : Nat) (v : Word32) : (d.setReg off v).outbox = d.outbox := rfl
@[simp] theorem Dev.setFld_pavs (d : Dev) (off : Nat) (f : Fld) (v : Nat) : (d.setFld off f v).pavs = d.pavs := rfl
@[simp] theorem Dev.setFld_blks (d : Dev) (off : Nat) (f : Fld) (v : Nat) : (d.setFld off f v).blks = d.blks := rfl
@[simp] theorem Dev.setFld_cisMarks (d : Dev) (off : Nat) (f : Fld) (v : Nat) : (d.setFld off f v).cisMarks = d.cisMarks := rfl
@[simp] theorem Dev.setFld_mem (d : Dev) (off : Nat) (f : Fld) (v : Nat) : (d.setFld off f v).mem = d.mem := rfl
@[simp] theorem Dev.setFld_hp (d : Dev) (off : Nat) (f : Fld) (v : Nat) : (d.setFld off f v).hp = d.hp := rfl
@[simp] theorem Dev.setFld_qs (d : Dev) (off : Nat) (f : Fld) (v : Nat) : (d.setFld off f v).qs = d.qs := rfl
@[simp] theorem Dev.setFld_allots (d : Dev) (off : Nat) (f : Fld) (v : Nat) : (d.setFld off f v).allots = d.allots := rfl
@[simp] theorem Dev.setFld_clearOp (d : Dev) (off : Nat) (f : Fld) (v : Nat) : (d.setFld off f v).clearOp = d.clearOp := rfl
@[simp] theorem Dev.setFld_keys (d : Dev) (off : Nat) (f : Fld) (v : Nat) : (d.setFld off f v).keys = d.keys := rfl
@[simp] theorem Dev.setFld_trl (d : Dev) (off : Nat) (f : Fld) (v : Nat) : (d.setFld off f v).trl = d.trl := rfl
@[simp] theorem Dev.setFld_vdr (d : Dev) (off : Nat) (f : Fld) (v : Nat) : (d.setFld off f v).vdr = d.vdr := rfl
@[simp] theorem Dev.setFld_org (d : Dev) (off : Nat) (f : Fld) (v : Nat) : (d.setFld off f v).org = d.org := rfl
@[simp] theorem Dev.setFld_cans (d : Dev) (off : Nat) (f : Fld) (v : Nat) : (d.setFld off f v).cans = d.cans := rfl
@[simp] theorem Dev.setFld_time (d : Dev) (off : Nat) (f : Fld) (v : Nat) : (d.setFld off f v).time = d.time := rfl
@[simp] theorem Dev.setFld_hb (d : Dev) (off : Nat) (f : Fld) (v : Nat) : (d.setFld off f v).hb = d.hb := rfl
@[simp] theorem Dev.setFld_gate (d : Dev) (off : Nat) (f : Fld) (v : Nat) : (d.setFld off f v).gate = d.gate := rfl
@[simp] theorem Dev.setFld_clk (d : Dev) (off : Nat) (f : Fld) (v : Nat) : (d.setFld off f v).clk = d.clk := rfl
@[simp] theorem Dev.setFld_sup (d : Dev) (off : Nat) (f : Fld) (v : Nat) : (d.setFld off f v).sup = d.sup := rfl
@[simp] theorem Dev.setFld_boot (d : Dev) (off : Nat) (f : Fld) (v : Nat) : (d.setFld off f v).boot = d.boot := rfl
@[simp] theorem Dev.setFld_pair (d : Dev) (off : Nat) (f : Fld) (v : Nat) : (d.setFld off f v).pair = d.pair := rfl
@[simp] theorem Dev.setFld_sun (d : Dev) (off : Nat) (f : Fld) (v : Nat) : (d.setFld off f v).sun = d.sun := rfl
@[simp] theorem Dev.setFld_fired (d : Dev) (off : Nat) (f : Fld) (v : Nat) : (d.setFld off f v).fired = d.fired := rfl
@[simp] theorem Dev.setFld_clamp (d : Dev) (off : Nat) (f : Fld) (v : Nat) : (d.setFld off f v).clamp = d.clamp := rfl
@[simp] theorem Dev.setFld_clockLoss (d : Dev) (off : Nat) (f : Fld) (v : Nat) : (d.setFld off f v).clockLoss = d.clockLoss := rfl
@[simp] theorem Dev.setFld_m1024 (d : Dev) (off : Nat) (f : Fld) (v : Nat) : (d.setFld off f v).m1024 = d.m1024 := rfl
@[simp] theorem Dev.setFld_clock (d : Dev) (off : Nat) (f : Fld) (v : Nat) : (d.setFld off f v).clock = d.clock := rfl
@[simp] theorem Dev.setFld_steward (d : Dev) (off : Nat) (f : Fld) (v : Nat) : (d.setFld off f v).steward = d.steward := rfl
@[simp] theorem Dev.setFld_freeIx (d : Dev) (off : Nat) (f : Fld) (v : Nat) : (d.setFld off f v).freeIx = d.freeIx := rfl
@[simp] theorem Dev.setFld_acceptIx (d : Dev) (off : Nat) (f : Fld) (v : Nat) : (d.setFld off f v).acceptIx = d.acceptIx := rfl
@[simp] theorem Dev.setFld_outbox (d : Dev) (off : Nat) (f : Fld) (v : Nat) : (d.setFld off f v).outbox = d.outbox := rfl
@[simp] theorem Dev.raise_pavs (d : Dev) (off : Nat) : (d.raise off).pavs = d.pavs := Dev.setReg_pavs ..
@[simp] theorem Dev.raise_blks (d : Dev) (off : Nat) : (d.raise off).blks = d.blks := Dev.setReg_blks ..
@[simp] theorem Dev.raise_cisMarks (d : Dev) (off : Nat) : (d.raise off).cisMarks = d.cisMarks := Dev.setReg_cisMarks ..
@[simp] theorem Dev.raise_mem (d : Dev) (off : Nat) : (d.raise off).mem = d.mem := Dev.setReg_mem ..
@[simp] theorem Dev.raise_hp (d : Dev) (off : Nat) : (d.raise off).hp = d.hp := Dev.setReg_hp ..
@[simp] theorem Dev.raise_qs (d : Dev) (off : Nat) : (d.raise off).qs = d.qs := Dev.setReg_qs ..
@[simp] theorem Dev.raise_allots (d : Dev) (off : Nat) : (d.raise off).allots = d.allots := Dev.setReg_allots ..
@[simp] theorem Dev.raise_clearOp (d : Dev) (off : Nat) : (d.raise off).clearOp = d.clearOp := Dev.setReg_clearOp ..
@[simp] theorem Dev.raise_keys (d : Dev) (off : Nat) : (d.raise off).keys = d.keys := Dev.setReg_keys ..
@[simp] theorem Dev.raise_trl (d : Dev) (off : Nat) : (d.raise off).trl = d.trl := Dev.setReg_trl ..
@[simp] theorem Dev.raise_vdr (d : Dev) (off : Nat) : (d.raise off).vdr = d.vdr := Dev.setReg_vdr ..
@[simp] theorem Dev.raise_org (d : Dev) (off : Nat) : (d.raise off).org = d.org := Dev.setReg_org ..
@[simp] theorem Dev.raise_cans (d : Dev) (off : Nat) : (d.raise off).cans = d.cans := Dev.setReg_cans ..
@[simp] theorem Dev.raise_time (d : Dev) (off : Nat) : (d.raise off).time = d.time := Dev.setReg_time ..
@[simp] theorem Dev.raise_hb (d : Dev) (off : Nat) : (d.raise off).hb = d.hb := Dev.setReg_hb ..
@[simp] theorem Dev.raise_gate (d : Dev) (off : Nat) : (d.raise off).gate = d.gate := Dev.setReg_gate ..
@[simp] theorem Dev.raise_clk (d : Dev) (off : Nat) : (d.raise off).clk = d.clk := Dev.setReg_clk ..
@[simp] theorem Dev.raise_sup (d : Dev) (off : Nat) : (d.raise off).sup = d.sup := Dev.setReg_sup ..
@[simp] theorem Dev.raise_boot (d : Dev) (off : Nat) : (d.raise off).boot = d.boot := Dev.setReg_boot ..
@[simp] theorem Dev.raise_pair (d : Dev) (off : Nat) : (d.raise off).pair = d.pair := Dev.setReg_pair ..
@[simp] theorem Dev.raise_sun (d : Dev) (off : Nat) : (d.raise off).sun = d.sun := Dev.setReg_sun ..
@[simp] theorem Dev.raise_fired (d : Dev) (off : Nat) : (d.raise off).fired = d.fired := Dev.setReg_fired ..
@[simp] theorem Dev.raise_clamp (d : Dev) (off : Nat) : (d.raise off).clamp = d.clamp := Dev.setReg_clamp ..
@[simp] theorem Dev.raise_clockLoss (d : Dev) (off : Nat) : (d.raise off).clockLoss = d.clockLoss := Dev.setReg_clockLoss ..
@[simp] theorem Dev.raise_m1024 (d : Dev) (off : Nat) : (d.raise off).m1024 = d.m1024 := Dev.setReg_m1024 ..
@[simp] theorem Dev.raise_clock (d : Dev) (off : Nat) : (d.raise off).clock = d.clock := Dev.setReg_clock ..
@[simp] theorem Dev.raise_steward (d : Dev) (off : Nat) : (d.raise off).steward = d.steward := Dev.setReg_steward ..
@[simp] theorem Dev.raise_freeIx (d : Dev) (off : Nat) : (d.raise off).freeIx = d.freeIx := Dev.setReg_freeIx ..
@[simp] theorem Dev.raise_acceptIx (d : Dev) (off : Nat) : (d.raise off).acceptIx = d.acceptIx := Dev.setReg_acceptIx ..
@[simp] theorem Dev.raise_outbox (d : Dev) (off : Nat) : (d.raise off).outbox = d.outbox := Dev.setReg_outbox ..
@[simp] theorem Dev.bump_pavs (d : Dev) (off : Nat) (f : Fld) (n : Nat) : (d.bump off f n).pavs = d.pavs := rfl
@[simp] theorem Dev.bump_blks (d : Dev) (off : Nat) (f : Fld) (n : Nat) : (d.bump off f n).blks = d.blks := rfl
@[simp] theorem Dev.bump_cisMarks (d : Dev) (off : Nat) (f : Fld) (n : Nat) : (d.bump off f n).cisMarks = d.cisMarks := rfl
@[simp] theorem Dev.bump_mem (d : Dev) (off : Nat) (f : Fld) (n : Nat) : (d.bump off f n).mem = d.mem := rfl
@[simp] theorem Dev.bump_hp (d : Dev) (off : Nat) (f : Fld) (n : Nat) : (d.bump off f n).hp = d.hp := rfl
@[simp] theorem Dev.bump_qs (d : Dev) (off : Nat) (f : Fld) (n : Nat) : (d.bump off f n).qs = d.qs := rfl
@[simp] theorem Dev.bump_allots (d : Dev) (off : Nat) (f : Fld) (n : Nat) : (d.bump off f n).allots = d.allots := rfl
@[simp] theorem Dev.bump_clearOp (d : Dev) (off : Nat) (f : Fld) (n : Nat) : (d.bump off f n).clearOp = d.clearOp := rfl
@[simp] theorem Dev.bump_keys (d : Dev) (off : Nat) (f : Fld) (n : Nat) : (d.bump off f n).keys = d.keys := rfl
@[simp] theorem Dev.bump_trl (d : Dev) (off : Nat) (f : Fld) (n : Nat) : (d.bump off f n).trl = d.trl := rfl
@[simp] theorem Dev.bump_vdr (d : Dev) (off : Nat) (f : Fld) (n : Nat) : (d.bump off f n).vdr = d.vdr := rfl
@[simp] theorem Dev.bump_org (d : Dev) (off : Nat) (f : Fld) (n : Nat) : (d.bump off f n).org = d.org := rfl
@[simp] theorem Dev.bump_cans (d : Dev) (off : Nat) (f : Fld) (n : Nat) : (d.bump off f n).cans = d.cans := rfl
@[simp] theorem Dev.bump_time (d : Dev) (off : Nat) (f : Fld) (n : Nat) : (d.bump off f n).time = d.time := rfl
@[simp] theorem Dev.bump_hb (d : Dev) (off : Nat) (f : Fld) (n : Nat) : (d.bump off f n).hb = d.hb := rfl
@[simp] theorem Dev.bump_gate (d : Dev) (off : Nat) (f : Fld) (n : Nat) : (d.bump off f n).gate = d.gate := rfl
@[simp] theorem Dev.bump_clk (d : Dev) (off : Nat) (f : Fld) (n : Nat) : (d.bump off f n).clk = d.clk := rfl
@[simp] theorem Dev.bump_sup (d : Dev) (off : Nat) (f : Fld) (n : Nat) : (d.bump off f n).sup = d.sup := rfl
@[simp] theorem Dev.bump_boot (d : Dev) (off : Nat) (f : Fld) (n : Nat) : (d.bump off f n).boot = d.boot := rfl
@[simp] theorem Dev.bump_pair (d : Dev) (off : Nat) (f : Fld) (n : Nat) : (d.bump off f n).pair = d.pair := rfl
@[simp] theorem Dev.bump_sun (d : Dev) (off : Nat) (f : Fld) (n : Nat) : (d.bump off f n).sun = d.sun := rfl
@[simp] theorem Dev.bump_fired (d : Dev) (off : Nat) (f : Fld) (n : Nat) : (d.bump off f n).fired = d.fired := rfl
@[simp] theorem Dev.bump_clamp (d : Dev) (off : Nat) (f : Fld) (n : Nat) : (d.bump off f n).clamp = d.clamp := rfl
@[simp] theorem Dev.bump_clockLoss (d : Dev) (off : Nat) (f : Fld) (n : Nat) : (d.bump off f n).clockLoss = d.clockLoss := rfl
@[simp] theorem Dev.bump_m1024 (d : Dev) (off : Nat) (f : Fld) (n : Nat) : (d.bump off f n).m1024 = d.m1024 := rfl
@[simp] theorem Dev.bump_clock (d : Dev) (off : Nat) (f : Fld) (n : Nat) : (d.bump off f n).clock = d.clock := rfl
@[simp] theorem Dev.bump_steward (d : Dev) (off : Nat) (f : Fld) (n : Nat) : (d.bump off f n).steward = d.steward := rfl
@[simp] theorem Dev.bump_freeIx (d : Dev) (off : Nat) (f : Fld) (n : Nat) : (d.bump off f n).freeIx = d.freeIx := rfl
@[simp] theorem Dev.bump_acceptIx (d : Dev) (off : Nat) (f : Fld) (n : Nat) : (d.bump off f n).acceptIx = d.acceptIx := rfl
@[simp] theorem Dev.bump_outbox (d : Dev) (off : Nat) (f : Fld) (n : Nat) : (d.bump off f n).outbox = d.outbox := rfl
@[simp] theorem Dev.setPav_regs (d : Dev) (p : Nat) (x : Pav) : (d.setPav p x).regs = d.regs := rfl
@[simp] theorem Dev.setPav_blks (d : Dev) (p : Nat) (x : Pav) : (d.setPav p x).blks = d.blks := rfl
@[simp] theorem Dev.setPav_cisMarks (d : Dev) (p : Nat) (x : Pav) : (d.setPav p x).cisMarks = d.cisMarks := rfl
@[simp] theorem Dev.setPav_mem (d : Dev) (p : Nat) (x : Pav) : (d.setPav p x).mem = d.mem := rfl
@[simp] theorem Dev.setPav_hp (d : Dev) (p : Nat) (x : Pav) : (d.setPav p x).hp = d.hp := rfl
@[simp] theorem Dev.setPav_qs (d : Dev) (p : Nat) (x : Pav) : (d.setPav p x).qs = d.qs := rfl
@[simp] theorem Dev.setPav_allots (d : Dev) (p : Nat) (x : Pav) : (d.setPav p x).allots = d.allots := rfl
@[simp] theorem Dev.setPav_clearOp (d : Dev) (p : Nat) (x : Pav) : (d.setPav p x).clearOp = d.clearOp := rfl
@[simp] theorem Dev.setPav_keys (d : Dev) (p : Nat) (x : Pav) : (d.setPav p x).keys = d.keys := rfl
@[simp] theorem Dev.setPav_trl (d : Dev) (p : Nat) (x : Pav) : (d.setPav p x).trl = d.trl := rfl
@[simp] theorem Dev.setPav_vdr (d : Dev) (p : Nat) (x : Pav) : (d.setPav p x).vdr = d.vdr := rfl
@[simp] theorem Dev.setPav_org (d : Dev) (p : Nat) (x : Pav) : (d.setPav p x).org = d.org := rfl
@[simp] theorem Dev.setPav_cans (d : Dev) (p : Nat) (x : Pav) : (d.setPav p x).cans = d.cans := rfl
@[simp] theorem Dev.setPav_time (d : Dev) (p : Nat) (x : Pav) : (d.setPav p x).time = d.time := rfl
@[simp] theorem Dev.setPav_hb (d : Dev) (p : Nat) (x : Pav) : (d.setPav p x).hb = d.hb := rfl
@[simp] theorem Dev.setPav_gate (d : Dev) (p : Nat) (x : Pav) : (d.setPav p x).gate = d.gate := rfl
@[simp] theorem Dev.setPav_clk (d : Dev) (p : Nat) (x : Pav) : (d.setPav p x).clk = d.clk := rfl
@[simp] theorem Dev.setPav_sup (d : Dev) (p : Nat) (x : Pav) : (d.setPav p x).sup = d.sup := rfl
@[simp] theorem Dev.setPav_boot (d : Dev) (p : Nat) (x : Pav) : (d.setPav p x).boot = d.boot := rfl
@[simp] theorem Dev.setPav_pair (d : Dev) (p : Nat) (x : Pav) : (d.setPav p x).pair = d.pair := rfl
@[simp] theorem Dev.setPav_sun (d : Dev) (p : Nat) (x : Pav) : (d.setPav p x).sun = d.sun := rfl
@[simp] theorem Dev.setPav_fired (d : Dev) (p : Nat) (x : Pav) : (d.setPav p x).fired = d.fired := rfl
@[simp] theorem Dev.setPav_clamp (d : Dev) (p : Nat) (x : Pav) : (d.setPav p x).clamp = d.clamp := rfl
@[simp] theorem Dev.setPav_clockLoss (d : Dev) (p : Nat) (x : Pav) : (d.setPav p x).clockLoss = d.clockLoss := rfl
@[simp] theorem Dev.setPav_m1024 (d : Dev) (p : Nat) (x : Pav) : (d.setPav p x).m1024 = d.m1024 := rfl
@[simp] theorem Dev.setPav_clock (d : Dev) (p : Nat) (x : Pav) : (d.setPav p x).clock = d.clock := rfl
@[simp] theorem Dev.setPav_steward (d : Dev) (p : Nat) (x : Pav) : (d.setPav p x).steward = d.steward := rfl
@[simp] theorem Dev.setPav_freeIx (d : Dev) (p : Nat) (x : Pav) : (d.setPav p x).freeIx = d.freeIx := rfl
@[simp] theorem Dev.setPav_acceptIx (d : Dev) (p : Nat) (x : Pav) : (d.setPav p x).acceptIx = d.acceptIx := rfl
@[simp] theorem Dev.setPav_outbox (d : Dev) (p : Nat) (x : Pav) : (d.setPav p x).outbox = d.outbox := rfl
@[simp] theorem Dev.updPav_regs (d : Dev) (p : Nat) (f : Pav → Pav) : (d.updPav p f).regs = d.regs := rfl
@[simp] theorem Dev.updPav_blks (d : Dev) (p : Nat) (f : Pav → Pav) : (d.updPav p f).blks = d.blks := rfl
@[simp] theorem Dev.updPav_cisMarks (d : Dev) (p : Nat) (f : Pav → Pav) : (d.updPav p f).cisMarks = d.cisMarks := rfl
@[simp] theorem Dev.updPav_mem (d : Dev) (p : Nat) (f : Pav → Pav) : (d.updPav p f).mem = d.mem := rfl
@[simp] theorem Dev.updPav_hp (d : Dev) (p : Nat) (f : Pav → Pav) : (d.updPav p f).hp = d.hp := rfl
@[simp] theorem Dev.updPav_qs (d : Dev) (p : Nat) (f : Pav → Pav) : (d.updPav p f).qs = d.qs := rfl
@[simp] theorem Dev.updPav_allots (d : Dev) (p : Nat) (f : Pav → Pav) : (d.updPav p f).allots = d.allots := rfl
@[simp] theorem Dev.updPav_clearOp (d : Dev) (p : Nat) (f : Pav → Pav) : (d.updPav p f).clearOp = d.clearOp := rfl
@[simp] theorem Dev.updPav_keys (d : Dev) (p : Nat) (f : Pav → Pav) : (d.updPav p f).keys = d.keys := rfl
@[simp] theorem Dev.updPav_trl (d : Dev) (p : Nat) (f : Pav → Pav) : (d.updPav p f).trl = d.trl := rfl
@[simp] theorem Dev.updPav_vdr (d : Dev) (p : Nat) (f : Pav → Pav) : (d.updPav p f).vdr = d.vdr := rfl
@[simp] theorem Dev.updPav_org (d : Dev) (p : Nat) (f : Pav → Pav) : (d.updPav p f).org = d.org := rfl
@[simp] theorem Dev.updPav_cans (d : Dev) (p : Nat) (f : Pav → Pav) : (d.updPav p f).cans = d.cans := rfl
@[simp] theorem Dev.updPav_time (d : Dev) (p : Nat) (f : Pav → Pav) : (d.updPav p f).time = d.time := rfl
@[simp] theorem Dev.updPav_hb (d : Dev) (p : Nat) (f : Pav → Pav) : (d.updPav p f).hb = d.hb := rfl
@[simp] theorem Dev.updPav_gate (d : Dev) (p : Nat) (f : Pav → Pav) : (d.updPav p f).gate = d.gate := rfl
@[simp] theorem Dev.updPav_clk (d : Dev) (p : Nat) (f : Pav → Pav) : (d.updPav p f).clk = d.clk := rfl
@[simp] theorem Dev.updPav_sup (d : Dev) (p : Nat) (f : Pav → Pav) : (d.updPav p f).sup = d.sup := rfl
@[simp] theorem Dev.updPav_boot (d : Dev) (p : Nat) (f : Pav → Pav) : (d.updPav p f).boot = d.boot := rfl
@[simp] theorem Dev.updPav_pair (d : Dev) (p : Nat) (f : Pav → Pav) : (d.updPav p f).pair = d.pair := rfl
@[simp] theorem Dev.updPav_sun (d : Dev) (p : Nat) (f : Pav → Pav) : (d.updPav p f).sun = d.sun := rfl
@[simp] theorem Dev.updPav_fired (d : Dev) (p : Nat) (f : Pav → Pav) : (d.updPav p f).fired = d.fired := rfl
@[simp] theorem Dev.updPav_clamp (d : Dev) (p : Nat) (f : Pav → Pav) : (d.updPav p f).clamp = d.clamp := rfl
@[simp] theorem Dev.updPav_clockLoss (d : Dev) (p : Nat) (f : Pav → Pav) : (d.updPav p f).clockLoss = d.clockLoss := rfl
@[simp] theorem Dev.updPav_m1024 (d : Dev) (p : Nat) (f : Pav → Pav) : (d.updPav p f).m1024 = d.m1024 := rfl
@[simp] theorem Dev.updPav_clock (d : Dev) (p : Nat) (f : Pav → Pav) : (d.updPav p f).clock = d.clock := rfl
@[simp] theorem Dev.updPav_steward (d : Dev) (p : Nat) (f : Pav → Pav) : (d.updPav p f).steward = d.steward := rfl
@[simp] theorem Dev.updPav_freeIx (d : Dev) (p : Nat) (f : Pav → Pav) : (d.updPav p f).freeIx = d.freeIx := rfl
@[simp] theorem Dev.updPav_acceptIx (d : Dev) (p : Nat) (f : Pav → Pav) : (d.updPav p f).acceptIx = d.acceptIx := rfl
@[simp] theorem Dev.updPav_outbox (d : Dev) (p : Nat) (f : Pav → Pav) : (d.updPav p f).outbox = d.outbox := rfl
@[simp] theorem Dev.setBlk_regs (d : Dev) (b : Nat) (x : CisBlk) : (d.setBlk b x).regs = d.regs := rfl
@[simp] theorem Dev.setBlk_pavs (d : Dev) (b : Nat) (x : CisBlk) : (d.setBlk b x).pavs = d.pavs := rfl
@[simp] theorem Dev.setBlk_cisMarks (d : Dev) (b : Nat) (x : CisBlk) : (d.setBlk b x).cisMarks = d.cisMarks := rfl
@[simp] theorem Dev.setBlk_mem (d : Dev) (b : Nat) (x : CisBlk) : (d.setBlk b x).mem = d.mem := rfl
@[simp] theorem Dev.setBlk_hp (d : Dev) (b : Nat) (x : CisBlk) : (d.setBlk b x).hp = d.hp := rfl
@[simp] theorem Dev.setBlk_qs (d : Dev) (b : Nat) (x : CisBlk) : (d.setBlk b x).qs = d.qs := rfl
@[simp] theorem Dev.setBlk_allots (d : Dev) (b : Nat) (x : CisBlk) : (d.setBlk b x).allots = d.allots := rfl
@[simp] theorem Dev.setBlk_clearOp (d : Dev) (b : Nat) (x : CisBlk) : (d.setBlk b x).clearOp = d.clearOp := rfl
@[simp] theorem Dev.setBlk_keys (d : Dev) (b : Nat) (x : CisBlk) : (d.setBlk b x).keys = d.keys := rfl
@[simp] theorem Dev.setBlk_trl (d : Dev) (b : Nat) (x : CisBlk) : (d.setBlk b x).trl = d.trl := rfl
@[simp] theorem Dev.setBlk_vdr (d : Dev) (b : Nat) (x : CisBlk) : (d.setBlk b x).vdr = d.vdr := rfl
@[simp] theorem Dev.setBlk_org (d : Dev) (b : Nat) (x : CisBlk) : (d.setBlk b x).org = d.org := rfl
@[simp] theorem Dev.setBlk_cans (d : Dev) (b : Nat) (x : CisBlk) : (d.setBlk b x).cans = d.cans := rfl
@[simp] theorem Dev.setBlk_time (d : Dev) (b : Nat) (x : CisBlk) : (d.setBlk b x).time = d.time := rfl
@[simp] theorem Dev.setBlk_hb (d : Dev) (b : Nat) (x : CisBlk) : (d.setBlk b x).hb = d.hb := rfl
@[simp] theorem Dev.setBlk_gate (d : Dev) (b : Nat) (x : CisBlk) : (d.setBlk b x).gate = d.gate := rfl
@[simp] theorem Dev.setBlk_clk (d : Dev) (b : Nat) (x : CisBlk) : (d.setBlk b x).clk = d.clk := rfl
@[simp] theorem Dev.setBlk_sup (d : Dev) (b : Nat) (x : CisBlk) : (d.setBlk b x).sup = d.sup := rfl
@[simp] theorem Dev.setBlk_boot (d : Dev) (b : Nat) (x : CisBlk) : (d.setBlk b x).boot = d.boot := rfl
@[simp] theorem Dev.setBlk_pair (d : Dev) (b : Nat) (x : CisBlk) : (d.setBlk b x).pair = d.pair := rfl
@[simp] theorem Dev.setBlk_sun (d : Dev) (b : Nat) (x : CisBlk) : (d.setBlk b x).sun = d.sun := rfl
@[simp] theorem Dev.setBlk_fired (d : Dev) (b : Nat) (x : CisBlk) : (d.setBlk b x).fired = d.fired := rfl
@[simp] theorem Dev.setBlk_clamp (d : Dev) (b : Nat) (x : CisBlk) : (d.setBlk b x).clamp = d.clamp := rfl
@[simp] theorem Dev.setBlk_clockLoss (d : Dev) (b : Nat) (x : CisBlk) : (d.setBlk b x).clockLoss = d.clockLoss := rfl
@[simp] theorem Dev.setBlk_m1024 (d : Dev) (b : Nat) (x : CisBlk) : (d.setBlk b x).m1024 = d.m1024 := rfl
@[simp] theorem Dev.setBlk_clock (d : Dev) (b : Nat) (x : CisBlk) : (d.setBlk b x).clock = d.clock := rfl
@[simp] theorem Dev.setBlk_steward (d : Dev) (b : Nat) (x : CisBlk) : (d.setBlk b x).steward = d.steward := rfl
@[simp] theorem Dev.setBlk_freeIx (d : Dev) (b : Nat) (x : CisBlk) : (d.setBlk b x).freeIx = d.freeIx := rfl
@[simp] theorem Dev.setBlk_acceptIx (d : Dev) (b : Nat) (x : CisBlk) : (d.setBlk b x).acceptIx = d.acceptIx := rfl
@[simp] theorem Dev.setBlk_outbox (d : Dev) (b : Nat) (x : CisBlk) : (d.setBlk b x).outbox = d.outbox := rfl
@[simp] theorem Dev.updBlk_regs (d : Dev) (b : Nat) (f : CisBlk → CisBlk) : (d.updBlk b f).regs = d.regs := rfl
@[simp] theorem Dev.updBlk_pavs (d : Dev) (b : Nat) (f : CisBlk → CisBlk) : (d.updBlk b f).pavs = d.pavs := rfl
@[simp] theorem Dev.updBlk_cisMarks (d : Dev) (b : Nat) (f : CisBlk → CisBlk) : (d.updBlk b f).cisMarks = d.cisMarks := rfl
@[simp] theorem Dev.updBlk_mem (d : Dev) (b : Nat) (f : CisBlk → CisBlk) : (d.updBlk b f).mem = d.mem := rfl
@[simp] theorem Dev.updBlk_hp (d : Dev) (b : Nat) (f : CisBlk → CisBlk) : (d.updBlk b f).hp = d.hp := rfl
@[simp] theorem Dev.updBlk_qs (d : Dev) (b : Nat) (f : CisBlk → CisBlk) : (d.updBlk b f).qs = d.qs := rfl
@[simp] theorem Dev.updBlk_allots (d : Dev) (b : Nat) (f : CisBlk → CisBlk) : (d.updBlk b f).allots = d.allots := rfl
@[simp] theorem Dev.updBlk_clearOp (d : Dev) (b : Nat) (f : CisBlk → CisBlk) : (d.updBlk b f).clearOp = d.clearOp := rfl
@[simp] theorem Dev.updBlk_keys (d : Dev) (b : Nat) (f : CisBlk → CisBlk) : (d.updBlk b f).keys = d.keys := rfl
@[simp] theorem Dev.updBlk_trl (d : Dev) (b : Nat) (f : CisBlk → CisBlk) : (d.updBlk b f).trl = d.trl := rfl
@[simp] theorem Dev.updBlk_vdr (d : Dev) (b : Nat) (f : CisBlk → CisBlk) : (d.updBlk b f).vdr = d.vdr := rfl
@[simp] theorem Dev.updBlk_org (d : Dev) (b : Nat) (f : CisBlk → CisBlk) : (d.updBlk b f).org = d.org := rfl
@[simp] theorem Dev.updBlk_cans (d : Dev) (b : Nat) (f : CisBlk → CisBlk) : (d.updBlk b f).cans = d.cans := rfl
@[simp] theorem Dev.updBlk_time (d : Dev) (b : Nat) (f : CisBlk → CisBlk) : (d.updBlk b f).time = d.time := rfl
@[simp] theorem Dev.updBlk_hb (d : Dev) (b : Nat) (f : CisBlk → CisBlk) : (d.updBlk b f).hb = d.hb := rfl
@[simp] theorem Dev.updBlk_gate (d : Dev) (b : Nat) (f : CisBlk → CisBlk) : (d.updBlk b f).gate = d.gate := rfl
@[simp] theorem Dev.updBlk_clk (d : Dev) (b : Nat) (f : CisBlk → CisBlk) : (d.updBlk b f).clk = d.clk := rfl
@[simp] theorem Dev.updBlk_sup (d : Dev) (b : Nat) (f : CisBlk → CisBlk) : (d.updBlk b f).sup = d.sup := rfl
@[simp] theorem Dev.updBlk_boot (d : Dev) (b : Nat) (f : CisBlk → CisBlk) : (d.updBlk b f).boot = d.boot := rfl
@[simp] theorem Dev.updBlk_pair (d : Dev) (b : Nat) (f : CisBlk → CisBlk) : (d.updBlk b f).pair = d.pair := rfl
@[simp] theorem Dev.updBlk_sun (d : Dev) (b : Nat) (f : CisBlk → CisBlk) : (d.updBlk b f).sun = d.sun := rfl
@[simp] theorem Dev.updBlk_fired (d : Dev) (b : Nat) (f : CisBlk → CisBlk) : (d.updBlk b f).fired = d.fired := rfl
@[simp] theorem Dev.updBlk_clamp (d : Dev) (b : Nat) (f : CisBlk → CisBlk) : (d.updBlk b f).clamp = d.clamp := rfl
@[simp] theorem Dev.updBlk_clockLoss (d : Dev) (b : Nat) (f : CisBlk → CisBlk) : (d.updBlk b f).clockLoss = d.clockLoss := rfl
@[simp] theorem Dev.updBlk_m1024 (d : Dev) (b : Nat) (f : CisBlk → CisBlk) : (d.updBlk b f).m1024 = d.m1024 := rfl
@[simp] theorem Dev.updBlk_clock (d : Dev) (b : Nat) (f : CisBlk → CisBlk) : (d.updBlk b f).clock = d.clock := rfl
@[simp] theorem Dev.updBlk_steward (d : Dev) (b : Nat) (f : CisBlk → CisBlk) : (d.updBlk b f).steward = d.steward := rfl
@[simp] theorem Dev.updBlk_freeIx (d : Dev) (b : Nat) (f : CisBlk → CisBlk) : (d.updBlk b f).freeIx = d.freeIx := rfl
@[simp] theorem Dev.updBlk_acceptIx (d : Dev) (b : Nat) (f : CisBlk → CisBlk) : (d.updBlk b f).acceptIx = d.acceptIx := rfl
@[simp] theorem Dev.updBlk_outbox (d : Dev) (b : Nat) (f : CisBlk → CisBlk) : (d.updBlk b f).outbox = d.outbox := rfl
@[simp] theorem Dev.setQueue_regs (d : Dev) (q : Nat) (x : Queue) : (d.setQueue q x).regs = d.regs := rfl
@[simp] theorem Dev.setQueue_pavs (d : Dev) (q : Nat) (x : Queue) : (d.setQueue q x).pavs = d.pavs := rfl
@[simp] theorem Dev.setQueue_blks (d : Dev) (q : Nat) (x : Queue) : (d.setQueue q x).blks = d.blks := rfl
@[simp] theorem Dev.setQueue_cisMarks (d : Dev) (q : Nat) (x : Queue) : (d.setQueue q x).cisMarks = d.cisMarks := rfl
@[simp] theorem Dev.setQueue_mem (d : Dev) (q : Nat) (x : Queue) : (d.setQueue q x).mem = d.mem := rfl
@[simp] theorem Dev.setQueue_hp (d : Dev) (q : Nat) (x : Queue) : (d.setQueue q x).hp = d.hp := rfl
@[simp] theorem Dev.setQueue_allots (d : Dev) (q : Nat) (x : Queue) : (d.setQueue q x).allots = d.allots := rfl
@[simp] theorem Dev.setQueue_clearOp (d : Dev) (q : Nat) (x : Queue) : (d.setQueue q x).clearOp = d.clearOp := rfl
@[simp] theorem Dev.setQueue_keys (d : Dev) (q : Nat) (x : Queue) : (d.setQueue q x).keys = d.keys := rfl
@[simp] theorem Dev.setQueue_trl (d : Dev) (q : Nat) (x : Queue) : (d.setQueue q x).trl = d.trl := rfl
@[simp] theorem Dev.setQueue_vdr (d : Dev) (q : Nat) (x : Queue) : (d.setQueue q x).vdr = d.vdr := rfl
@[simp] theorem Dev.setQueue_org (d : Dev) (q : Nat) (x : Queue) : (d.setQueue q x).org = d.org := rfl
@[simp] theorem Dev.setQueue_cans (d : Dev) (q : Nat) (x : Queue) : (d.setQueue q x).cans = d.cans := rfl
@[simp] theorem Dev.setQueue_time (d : Dev) (q : Nat) (x : Queue) : (d.setQueue q x).time = d.time := rfl
@[simp] theorem Dev.setQueue_hb (d : Dev) (q : Nat) (x : Queue) : (d.setQueue q x).hb = d.hb := rfl
@[simp] theorem Dev.setQueue_gate (d : Dev) (q : Nat) (x : Queue) : (d.setQueue q x).gate = d.gate := rfl
@[simp] theorem Dev.setQueue_clk (d : Dev) (q : Nat) (x : Queue) : (d.setQueue q x).clk = d.clk := rfl
@[simp] theorem Dev.setQueue_sup (d : Dev) (q : Nat) (x : Queue) : (d.setQueue q x).sup = d.sup := rfl
@[simp] theorem Dev.setQueue_boot (d : Dev) (q : Nat) (x : Queue) : (d.setQueue q x).boot = d.boot := rfl
@[simp] theorem Dev.setQueue_pair (d : Dev) (q : Nat) (x : Queue) : (d.setQueue q x).pair = d.pair := rfl
@[simp] theorem Dev.setQueue_sun (d : Dev) (q : Nat) (x : Queue) : (d.setQueue q x).sun = d.sun := rfl
@[simp] theorem Dev.setQueue_fired (d : Dev) (q : Nat) (x : Queue) : (d.setQueue q x).fired = d.fired := rfl
@[simp] theorem Dev.setQueue_clamp (d : Dev) (q : Nat) (x : Queue) : (d.setQueue q x).clamp = d.clamp := rfl
@[simp] theorem Dev.setQueue_clockLoss (d : Dev) (q : Nat) (x : Queue) : (d.setQueue q x).clockLoss = d.clockLoss := rfl
@[simp] theorem Dev.setQueue_m1024 (d : Dev) (q : Nat) (x : Queue) : (d.setQueue q x).m1024 = d.m1024 := rfl
@[simp] theorem Dev.setQueue_clock (d : Dev) (q : Nat) (x : Queue) : (d.setQueue q x).clock = d.clock := rfl
@[simp] theorem Dev.setQueue_steward (d : Dev) (q : Nat) (x : Queue) : (d.setQueue q x).steward = d.steward := rfl
@[simp] theorem Dev.setQueue_freeIx (d : Dev) (q : Nat) (x : Queue) : (d.setQueue q x).freeIx = d.freeIx := rfl
@[simp] theorem Dev.setQueue_acceptIx (d : Dev) (q : Nat) (x : Queue) : (d.setQueue q x).acceptIx = d.acceptIx := rfl
@[simp] theorem Dev.setQueue_outbox (d : Dev) (q : Nat) (x : Queue) : (d.setQueue q x).outbox = d.outbox := rfl
@[simp] theorem Dev.updQueue_regs (d : Dev) (q : Nat) (f : Queue → Queue) : (d.updQueue q f).regs = d.regs := rfl
@[simp] theorem Dev.updQueue_pavs (d : Dev) (q : Nat) (f : Queue → Queue) : (d.updQueue q f).pavs = d.pavs := rfl
@[simp] theorem Dev.updQueue_blks (d : Dev) (q : Nat) (f : Queue → Queue) : (d.updQueue q f).blks = d.blks := rfl
@[simp] theorem Dev.updQueue_cisMarks (d : Dev) (q : Nat) (f : Queue → Queue) : (d.updQueue q f).cisMarks = d.cisMarks := rfl
@[simp] theorem Dev.updQueue_mem (d : Dev) (q : Nat) (f : Queue → Queue) : (d.updQueue q f).mem = d.mem := rfl
@[simp] theorem Dev.updQueue_hp (d : Dev) (q : Nat) (f : Queue → Queue) : (d.updQueue q f).hp = d.hp := rfl
@[simp] theorem Dev.updQueue_allots (d : Dev) (q : Nat) (f : Queue → Queue) : (d.updQueue q f).allots = d.allots := rfl
@[simp] theorem Dev.updQueue_clearOp (d : Dev) (q : Nat) (f : Queue → Queue) : (d.updQueue q f).clearOp = d.clearOp := rfl
@[simp] theorem Dev.updQueue_keys (d : Dev) (q : Nat) (f : Queue → Queue) : (d.updQueue q f).keys = d.keys := rfl
@[simp] theorem Dev.updQueue_trl (d : Dev) (q : Nat) (f : Queue → Queue) : (d.updQueue q f).trl = d.trl := rfl
@[simp] theorem Dev.updQueue_vdr (d : Dev) (q : Nat) (f : Queue → Queue) : (d.updQueue q f).vdr = d.vdr := rfl
@[simp] theorem Dev.updQueue_org (d : Dev) (q : Nat) (f : Queue → Queue) : (d.updQueue q f).org = d.org := rfl
@[simp] theorem Dev.updQueue_cans (d : Dev) (q : Nat) (f : Queue → Queue) : (d.updQueue q f).cans = d.cans := rfl
@[simp] theorem Dev.updQueue_time (d : Dev) (q : Nat) (f : Queue → Queue) : (d.updQueue q f).time = d.time := rfl
@[simp] theorem Dev.updQueue_hb (d : Dev) (q : Nat) (f : Queue → Queue) : (d.updQueue q f).hb = d.hb := rfl
@[simp] theorem Dev.updQueue_gate (d : Dev) (q : Nat) (f : Queue → Queue) : (d.updQueue q f).gate = d.gate := rfl
@[simp] theorem Dev.updQueue_clk (d : Dev) (q : Nat) (f : Queue → Queue) : (d.updQueue q f).clk = d.clk := rfl
@[simp] theorem Dev.updQueue_sup (d : Dev) (q : Nat) (f : Queue → Queue) : (d.updQueue q f).sup = d.sup := rfl
@[simp] theorem Dev.updQueue_boot (d : Dev) (q : Nat) (f : Queue → Queue) : (d.updQueue q f).boot = d.boot := rfl
@[simp] theorem Dev.updQueue_pair (d : Dev) (q : Nat) (f : Queue → Queue) : (d.updQueue q f).pair = d.pair := rfl
@[simp] theorem Dev.updQueue_sun (d : Dev) (q : Nat) (f : Queue → Queue) : (d.updQueue q f).sun = d.sun := rfl
@[simp] theorem Dev.updQueue_fired (d : Dev) (q : Nat) (f : Queue → Queue) : (d.updQueue q f).fired = d.fired := rfl
@[simp] theorem Dev.updQueue_clamp (d : Dev) (q : Nat) (f : Queue → Queue) : (d.updQueue q f).clamp = d.clamp := rfl
@[simp] theorem Dev.updQueue_clockLoss (d : Dev) (q : Nat) (f : Queue → Queue) : (d.updQueue q f).clockLoss = d.clockLoss := rfl
@[simp] theorem Dev.updQueue_m1024 (d : Dev) (q : Nat) (f : Queue → Queue) : (d.updQueue q f).m1024 = d.m1024 := rfl
@[simp] theorem Dev.updQueue_clock (d : Dev) (q : Nat) (f : Queue → Queue) : (d.updQueue q f).clock = d.clock := rfl
@[simp] theorem Dev.updQueue_steward (d : Dev) (q : Nat) (f : Queue → Queue) : (d.updQueue q f).steward = d.steward := rfl
@[simp] theorem Dev.updQueue_freeIx (d : Dev) (q : Nat) (f : Queue → Queue) : (d.updQueue q f).freeIx = d.freeIx := rfl
@[simp] theorem Dev.updQueue_acceptIx (d : Dev) (q : Nat) (f : Queue → Queue) : (d.updQueue q f).acceptIx = d.acceptIx := rfl
@[simp] theorem Dev.updQueue_outbox (d : Dev) (q : Nat) (f : Queue → Queue) : (d.updQueue q f).outbox = d.outbox := rfl
@[simp] theorem Dev.setAllot_regs (d : Dev) (a : Nat) (x : Allot) : (d.setAllot a x).regs = d.regs := rfl
@[simp] theorem Dev.setAllot_pavs (d : Dev) (a : Nat) (x : Allot) : (d.setAllot a x).pavs = d.pavs := rfl
@[simp] theorem Dev.setAllot_blks (d : Dev) (a : Nat) (x : Allot) : (d.setAllot a x).blks = d.blks := rfl
@[simp] theorem Dev.setAllot_cisMarks (d : Dev) (a : Nat) (x : Allot) : (d.setAllot a x).cisMarks = d.cisMarks := rfl
@[simp] theorem Dev.setAllot_mem (d : Dev) (a : Nat) (x : Allot) : (d.setAllot a x).mem = d.mem := rfl
@[simp] theorem Dev.setAllot_hp (d : Dev) (a : Nat) (x : Allot) : (d.setAllot a x).hp = d.hp := rfl
@[simp] theorem Dev.setAllot_qs (d : Dev) (a : Nat) (x : Allot) : (d.setAllot a x).qs = d.qs := rfl
@[simp] theorem Dev.setAllot_clearOp (d : Dev) (a : Nat) (x : Allot) : (d.setAllot a x).clearOp = d.clearOp := rfl
@[simp] theorem Dev.setAllot_keys (d : Dev) (a : Nat) (x : Allot) : (d.setAllot a x).keys = d.keys := rfl
@[simp] theorem Dev.setAllot_trl (d : Dev) (a : Nat) (x : Allot) : (d.setAllot a x).trl = d.trl := rfl
@[simp] theorem Dev.setAllot_vdr (d : Dev) (a : Nat) (x : Allot) : (d.setAllot a x).vdr = d.vdr := rfl
@[simp] theorem Dev.setAllot_org (d : Dev) (a : Nat) (x : Allot) : (d.setAllot a x).org = d.org := rfl
@[simp] theorem Dev.setAllot_cans (d : Dev) (a : Nat) (x : Allot) : (d.setAllot a x).cans = d.cans := rfl
@[simp] theorem Dev.setAllot_time (d : Dev) (a : Nat) (x : Allot) : (d.setAllot a x).time = d.time := rfl
@[simp] theorem Dev.setAllot_hb (d : Dev) (a : Nat) (x : Allot) : (d.setAllot a x).hb = d.hb := rfl
@[simp] theorem Dev.setAllot_gate (d : Dev) (a : Nat) (x : Allot) : (d.setAllot a x).gate = d.gate := rfl
@[simp] theorem Dev.setAllot_clk (d : Dev) (a : Nat) (x : Allot) : (d.setAllot a x).clk = d.clk := rfl
@[simp] theorem Dev.setAllot_sup (d : Dev) (a : Nat) (x : Allot) : (d.setAllot a x).sup = d.sup := rfl
@[simp] theorem Dev.setAllot_boot (d : Dev) (a : Nat) (x : Allot) : (d.setAllot a x).boot = d.boot := rfl
@[simp] theorem Dev.setAllot_pair (d : Dev) (a : Nat) (x : Allot) : (d.setAllot a x).pair = d.pair := rfl
@[simp] theorem Dev.setAllot_sun (d : Dev) (a : Nat) (x : Allot) : (d.setAllot a x).sun = d.sun := rfl
@[simp] theorem Dev.setAllot_fired (d : Dev) (a : Nat) (x : Allot) : (d.setAllot a x).fired = d.fired := rfl
@[simp] theorem Dev.setAllot_clamp (d : Dev) (a : Nat) (x : Allot) : (d.setAllot a x).clamp = d.clamp := rfl
@[simp] theorem Dev.setAllot_clockLoss (d : Dev) (a : Nat) (x : Allot) : (d.setAllot a x).clockLoss = d.clockLoss := rfl
@[simp] theorem Dev.setAllot_m1024 (d : Dev) (a : Nat) (x : Allot) : (d.setAllot a x).m1024 = d.m1024 := rfl
@[simp] theorem Dev.setAllot_clock (d : Dev) (a : Nat) (x : Allot) : (d.setAllot a x).clock = d.clock := rfl
@[simp] theorem Dev.setAllot_steward (d : Dev) (a : Nat) (x : Allot) : (d.setAllot a x).steward = d.steward := rfl
@[simp] theorem Dev.setAllot_freeIx (d : Dev) (a : Nat) (x : Allot) : (d.setAllot a x).freeIx = d.freeIx := rfl
@[simp] theorem Dev.setAllot_acceptIx (d : Dev) (a : Nat) (x : Allot) : (d.setAllot a x).acceptIx = d.acceptIx := rfl
@[simp] theorem Dev.setAllot_outbox (d : Dev) (a : Nat) (x : Allot) : (d.setAllot a x).outbox = d.outbox := rfl
@[simp] theorem Dev.updAllot_regs (d : Dev) (a : Nat) (f : Allot → Allot) : (d.updAllot a f).regs = d.regs := rfl
@[simp] theorem Dev.updAllot_pavs (d : Dev) (a : Nat) (f : Allot → Allot) : (d.updAllot a f).pavs = d.pavs := rfl
@[simp] theorem Dev.updAllot_blks (d : Dev) (a : Nat) (f : Allot → Allot) : (d.updAllot a f).blks = d.blks := rfl
@[simp] theorem Dev.updAllot_cisMarks (d : Dev) (a : Nat) (f : Allot → Allot) : (d.updAllot a f).cisMarks = d.cisMarks := rfl
@[simp] theorem Dev.updAllot_mem (d : Dev) (a : Nat) (f : Allot → Allot) : (d.updAllot a f).mem = d.mem := rfl
@[simp] theorem Dev.updAllot_hp (d : Dev) (a : Nat) (f : Allot → Allot) : (d.updAllot a f).hp = d.hp := rfl
@[simp] theorem Dev.updAllot_qs (d : Dev) (a : Nat) (f : Allot → Allot) : (d.updAllot a f).qs = d.qs := rfl
@[simp] theorem Dev.updAllot_clearOp (d : Dev) (a : Nat) (f : Allot → Allot) : (d.updAllot a f).clearOp = d.clearOp := rfl
@[simp] theorem Dev.updAllot_keys (d : Dev) (a : Nat) (f : Allot → Allot) : (d.updAllot a f).keys = d.keys := rfl
@[simp] theorem Dev.updAllot_trl (d : Dev) (a : Nat) (f : Allot → Allot) : (d.updAllot a f).trl = d.trl := rfl
@[simp] theorem Dev.updAllot_vdr (d : Dev) (a : Nat) (f : Allot → Allot) : (d.updAllot a f).vdr = d.vdr := rfl
@[simp] theorem Dev.updAllot_org (d : Dev) (a : Nat) (f : Allot → Allot) : (d.updAllot a f).org = d.org := rfl
@[simp] theorem Dev.updAllot_cans (d : Dev) (a : Nat) (f : Allot → Allot) : (d.updAllot a f).cans = d.cans := rfl
@[simp] theorem Dev.updAllot_time (d : Dev) (a : Nat) (f : Allot → Allot) : (d.updAllot a f).time = d.time := rfl
@[simp] theorem Dev.updAllot_hb (d : Dev) (a : Nat) (f : Allot → Allot) : (d.updAllot a f).hb = d.hb := rfl
@[simp] theorem Dev.updAllot_gate (d : Dev) (a : Nat) (f : Allot → Allot) : (d.updAllot a f).gate = d.gate := rfl
@[simp] theorem Dev.updAllot_clk (d : Dev) (a : Nat) (f : Allot → Allot) : (d.updAllot a f).clk = d.clk := rfl
@[simp] theorem Dev.updAllot_sup (d : Dev) (a : Nat) (f : Allot → Allot) : (d.updAllot a f).sup = d.sup := rfl
@[simp] theorem Dev.updAllot_boot (d : Dev) (a : Nat) (f : Allot → Allot) : (d.updAllot a f).boot = d.boot := rfl
@[simp] theorem Dev.updAllot_pair (d : Dev) (a : Nat) (f : Allot → Allot) : (d.updAllot a f).pair = d.pair := rfl
@[simp] theorem Dev.updAllot_sun (d : Dev) (a : Nat) (f : Allot → Allot) : (d.updAllot a f).sun = d.sun := rfl
@[simp] theorem Dev.updAllot_fired (d : Dev) (a : Nat) (f : Allot → Allot) : (d.updAllot a f).fired = d.fired := rfl
@[simp] theorem Dev.updAllot_clamp (d : Dev) (a : Nat) (f : Allot → Allot) : (d.updAllot a f).clamp = d.clamp := rfl
@[simp] theorem Dev.updAllot_clockLoss (d : Dev) (a : Nat) (f : Allot → Allot) : (d.updAllot a f).clockLoss = d.clockLoss := rfl
@[simp] theorem Dev.updAllot_m1024 (d : Dev) (a : Nat) (f : Allot → Allot) : (d.updAllot a f).m1024 = d.m1024 := rfl
@[simp] theorem Dev.updAllot_clock (d : Dev) (a : Nat) (f : Allot → Allot) : (d.updAllot a f).clock = d.clock := rfl
@[simp] theorem Dev.updAllot_steward (d : Dev) (a : Nat) (f : Allot → Allot) : (d.updAllot a f).steward = d.steward := rfl
@[simp] theorem Dev.updAllot_freeIx (d : Dev) (a : Nat) (f : Allot → Allot) : (d.updAllot a f).freeIx = d.freeIx := rfl
@[simp] theorem Dev.updAllot_acceptIx (d : Dev) (a : Nat) (f : Allot → Allot) : (d.updAllot a f).acceptIx = d.acceptIx := rfl
@[simp] theorem Dev.updAllot_outbox (d : Dev) (a : Nat) (f : Allot → Allot) : (d.updAllot a f).outbox = d.outbox := rfl
@[simp] theorem Dev.setPort_regs (d : Dev) (p : Nat) (x : Port) : (d.setPort p x).regs = d.regs := rfl
@[simp] theorem Dev.setPort_pavs (d : Dev) (p : Nat) (x : Port) : (d.setPort p x).pavs = d.pavs := rfl
@[simp] theorem Dev.setPort_blks (d : Dev) (p : Nat) (x : Port) : (d.setPort p x).blks = d.blks := rfl
@[simp] theorem Dev.setPort_cisMarks (d : Dev) (p : Nat) (x : Port) : (d.setPort p x).cisMarks = d.cisMarks := rfl
@[simp] theorem Dev.setPort_mem (d : Dev) (p : Nat) (x : Port) : (d.setPort p x).mem = d.mem := rfl
@[simp] theorem Dev.setPort_hp (d : Dev) (p : Nat) (x : Port) : (d.setPort p x).hp = d.hp := rfl
@[simp] theorem Dev.setPort_qs (d : Dev) (p : Nat) (x : Port) : (d.setPort p x).qs = d.qs := rfl
@[simp] theorem Dev.setPort_allots (d : Dev) (p : Nat) (x : Port) : (d.setPort p x).allots = d.allots := rfl
@[simp] theorem Dev.setPort_clearOp (d : Dev) (p : Nat) (x : Port) : (d.setPort p x).clearOp = d.clearOp := rfl
@[simp] theorem Dev.setPort_keys (d : Dev) (p : Nat) (x : Port) : (d.setPort p x).keys = d.keys := rfl
@[simp] theorem Dev.setPort_vdr (d : Dev) (p : Nat) (x : Port) : (d.setPort p x).vdr = d.vdr := rfl
@[simp] theorem Dev.setPort_org (d : Dev) (p : Nat) (x : Port) : (d.setPort p x).org = d.org := rfl
@[simp] theorem Dev.setPort_cans (d : Dev) (p : Nat) (x : Port) : (d.setPort p x).cans = d.cans := rfl
@[simp] theorem Dev.setPort_time (d : Dev) (p : Nat) (x : Port) : (d.setPort p x).time = d.time := rfl
@[simp] theorem Dev.setPort_hb (d : Dev) (p : Nat) (x : Port) : (d.setPort p x).hb = d.hb := rfl
@[simp] theorem Dev.setPort_gate (d : Dev) (p : Nat) (x : Port) : (d.setPort p x).gate = d.gate := rfl
@[simp] theorem Dev.setPort_clk (d : Dev) (p : Nat) (x : Port) : (d.setPort p x).clk = d.clk := rfl
@[simp] theorem Dev.setPort_sup (d : Dev) (p : Nat) (x : Port) : (d.setPort p x).sup = d.sup := rfl
@[simp] theorem Dev.setPort_boot (d : Dev) (p : Nat) (x : Port) : (d.setPort p x).boot = d.boot := rfl
@[simp] theorem Dev.setPort_pair (d : Dev) (p : Nat) (x : Port) : (d.setPort p x).pair = d.pair := rfl
@[simp] theorem Dev.setPort_sun (d : Dev) (p : Nat) (x : Port) : (d.setPort p x).sun = d.sun := rfl
@[simp] theorem Dev.setPort_fired (d : Dev) (p : Nat) (x : Port) : (d.setPort p x).fired = d.fired := rfl
@[simp] theorem Dev.setPort_clamp (d : Dev) (p : Nat) (x : Port) : (d.setPort p x).clamp = d.clamp := rfl
@[simp] theorem Dev.setPort_clockLoss (d : Dev) (p : Nat) (x : Port) : (d.setPort p x).clockLoss = d.clockLoss := rfl
@[simp] theorem Dev.setPort_m1024 (d : Dev) (p : Nat) (x : Port) : (d.setPort p x).m1024 = d.m1024 := rfl
@[simp] theorem Dev.setPort_clock (d : Dev) (p : Nat) (x : Port) : (d.setPort p x).clock = d.clock := rfl
@[simp] theorem Dev.setPort_steward (d : Dev) (p : Nat) (x : Port) : (d.setPort p x).steward = d.steward := rfl
@[simp] theorem Dev.setPort_freeIx (d : Dev) (p : Nat) (x : Port) : (d.setPort p x).freeIx = d.freeIx := rfl
@[simp] theorem Dev.setPort_acceptIx (d : Dev) (p : Nat) (x : Port) : (d.setPort p x).acceptIx = d.acceptIx := rfl
@[simp] theorem Dev.setPort_outbox (d : Dev) (p : Nat) (x : Port) : (d.setPort p x).outbox = d.outbox := rfl
@[simp] theorem Dev.updPort_regs (d : Dev) (p : Nat) (f : Port → Port) : (d.updPort p f).regs = d.regs := rfl
@[simp] theorem Dev.updPort_pavs (d : Dev) (p : Nat) (f : Port → Port) : (d.updPort p f).pavs = d.pavs := rfl
@[simp] theorem Dev.updPort_blks (d : Dev) (p : Nat) (f : Port → Port) : (d.updPort p f).blks = d.blks := rfl
@[simp] theorem Dev.updPort_cisMarks (d : Dev) (p : Nat) (f : Port → Port) : (d.updPort p f).cisMarks = d.cisMarks := rfl
@[simp] theorem Dev.updPort_mem (d : Dev) (p : Nat) (f : Port → Port) : (d.updPort p f).mem = d.mem := rfl
@[simp] theorem Dev.updPort_hp (d : Dev) (p : Nat) (f : Port → Port) : (d.updPort p f).hp = d.hp := rfl
@[simp] theorem Dev.updPort_qs (d : Dev) (p : Nat) (f : Port → Port) : (d.updPort p f).qs = d.qs := rfl
@[simp] theorem Dev.updPort_allots (d : Dev) (p : Nat) (f : Port → Port) : (d.updPort p f).allots = d.allots := rfl
@[simp] theorem Dev.updPort_clearOp (d : Dev) (p : Nat) (f : Port → Port) : (d.updPort p f).clearOp = d.clearOp := rfl
@[simp] theorem Dev.updPort_keys (d : Dev) (p : Nat) (f : Port → Port) : (d.updPort p f).keys = d.keys := rfl
@[simp] theorem Dev.updPort_vdr (d : Dev) (p : Nat) (f : Port → Port) : (d.updPort p f).vdr = d.vdr := rfl
@[simp] theorem Dev.updPort_org (d : Dev) (p : Nat) (f : Port → Port) : (d.updPort p f).org = d.org := rfl
@[simp] theorem Dev.updPort_cans (d : Dev) (p : Nat) (f : Port → Port) : (d.updPort p f).cans = d.cans := rfl
@[simp] theorem Dev.updPort_time (d : Dev) (p : Nat) (f : Port → Port) : (d.updPort p f).time = d.time := rfl
@[simp] theorem Dev.updPort_hb (d : Dev) (p : Nat) (f : Port → Port) : (d.updPort p f).hb = d.hb := rfl
@[simp] theorem Dev.updPort_gate (d : Dev) (p : Nat) (f : Port → Port) : (d.updPort p f).gate = d.gate := rfl
@[simp] theorem Dev.updPort_clk (d : Dev) (p : Nat) (f : Port → Port) : (d.updPort p f).clk = d.clk := rfl
@[simp] theorem Dev.updPort_sup (d : Dev) (p : Nat) (f : Port → Port) : (d.updPort p f).sup = d.sup := rfl
@[simp] theorem Dev.updPort_boot (d : Dev) (p : Nat) (f : Port → Port) : (d.updPort p f).boot = d.boot := rfl
@[simp] theorem Dev.updPort_pair (d : Dev) (p : Nat) (f : Port → Port) : (d.updPort p f).pair = d.pair := rfl
@[simp] theorem Dev.updPort_sun (d : Dev) (p : Nat) (f : Port → Port) : (d.updPort p f).sun = d.sun := rfl
@[simp] theorem Dev.updPort_fired (d : Dev) (p : Nat) (f : Port → Port) : (d.updPort p f).fired = d.fired := rfl
@[simp] theorem Dev.updPort_clamp (d : Dev) (p : Nat) (f : Port → Port) : (d.updPort p f).clamp = d.clamp := rfl
@[simp] theorem Dev.updPort_clockLoss (d : Dev) (p : Nat) (f : Port → Port) : (d.updPort p f).clockLoss = d.clockLoss := rfl
@[simp] theorem Dev.updPort_m1024 (d : Dev) (p : Nat) (f : Port → Port) : (d.updPort p f).m1024 = d.m1024 := rfl
@[simp] theorem Dev.updPort_clock (d : Dev) (p : Nat) (f : Port → Port) : (d.updPort p f).clock = d.clock := rfl
@[simp] theorem Dev.updPort_steward (d : Dev) (p : Nat) (f : Port → Port) : (d.updPort p f).steward = d.steward := rfl
@[simp] theorem Dev.updPort_freeIx (d : Dev) (p : Nat) (f : Port → Port) : (d.updPort p f).freeIx = d.freeIx := rfl
@[simp] theorem Dev.updPort_acceptIx (d : Dev) (p : Nat) (f : Port → Port) : (d.updPort p f).acceptIx = d.acceptIx := rfl
@[simp] theorem Dev.updPort_outbox (d : Dev) (p : Nat) (f : Port → Port) : (d.updPort p f).outbox = d.outbox := rfl
@[simp] theorem Dev.emit_regs (d : Dev) (o : Output) : (d.emit o).regs = d.regs := rfl
@[simp] theorem Dev.emit_pavs (d : Dev) (o : Output) : (d.emit o).pavs = d.pavs := rfl
@[simp] theorem Dev.emit_blks (d : Dev) (o : Output) : (d.emit o).blks = d.blks := rfl
@[simp] theorem Dev.emit_cisMarks (d : Dev) (o : Output) : (d.emit o).cisMarks = d.cisMarks := rfl
@[simp] theorem Dev.emit_mem (d : Dev) (o : Output) : (d.emit o).mem = d.mem := rfl
@[simp] theorem Dev.emit_hp (d : Dev) (o : Output) : (d.emit o).hp = d.hp := rfl
@[simp] theorem Dev.emit_qs (d : Dev) (o : Output) : (d.emit o).qs = d.qs := rfl
@[simp] theorem Dev.emit_allots (d : Dev) (o : Output) : (d.emit o).allots = d.allots := rfl
@[simp] theorem Dev.emit_clearOp (d : Dev) (o : Output) : (d.emit o).clearOp = d.clearOp := rfl
@[simp] theorem Dev.emit_keys (d : Dev) (o : Output) : (d.emit o).keys = d.keys := rfl
@[simp] theorem Dev.emit_trl (d : Dev) (o : Output) : (d.emit o).trl = d.trl := rfl
@[simp] theorem Dev.emit_vdr (d : Dev) (o : Output) : (d.emit o).vdr = d.vdr := rfl
@[simp] theorem Dev.emit_org (d : Dev) (o : Output) : (d.emit o).org = d.org := rfl
@[simp] theorem Dev.emit_cans (d : Dev) (o : Output) : (d.emit o).cans = d.cans := rfl
@[simp] theorem Dev.emit_time (d : Dev) (o : Output) : (d.emit o).time = d.time := rfl
@[simp] theorem Dev.emit_hb (d : Dev) (o : Output) : (d.emit o).hb = d.hb := rfl
@[simp] theorem Dev.emit_gate (d : Dev) (o : Output) : (d.emit o).gate = d.gate := rfl
@[simp] theorem Dev.emit_clk (d : Dev) (o : Output) : (d.emit o).clk = d.clk := rfl
@[simp] theorem Dev.emit_sup (d : Dev) (o : Output) : (d.emit o).sup = d.sup := rfl
@[simp] theorem Dev.emit_boot (d : Dev) (o : Output) : (d.emit o).boot = d.boot := rfl
@[simp] theorem Dev.emit_pair (d : Dev) (o : Output) : (d.emit o).pair = d.pair := rfl
@[simp] theorem Dev.emit_sun (d : Dev) (o : Output) : (d.emit o).sun = d.sun := rfl
@[simp] theorem Dev.emit_fired (d : Dev) (o : Output) : (d.emit o).fired = d.fired := rfl
@[simp] theorem Dev.emit_clamp (d : Dev) (o : Output) : (d.emit o).clamp = d.clamp := rfl
@[simp] theorem Dev.emit_clockLoss (d : Dev) (o : Output) : (d.emit o).clockLoss = d.clockLoss := rfl
@[simp] theorem Dev.emit_m1024 (d : Dev) (o : Output) : (d.emit o).m1024 = d.m1024 := rfl
@[simp] theorem Dev.emit_clock (d : Dev) (o : Output) : (d.emit o).clock = d.clock := rfl
@[simp] theorem Dev.emit_steward (d : Dev) (o : Output) : (d.emit o).steward = d.steward := rfl
@[simp] theorem Dev.emit_freeIx (d : Dev) (o : Output) : (d.emit o).freeIx = d.freeIx := rfl
@[simp] theorem Dev.emit_acceptIx (d : Dev) (o : Output) : (d.emit o).acceptIx = d.acceptIx := rfl
@[simp] theorem Dev.fire_regs (d : Dev) (t : Nat) (c : Nat) : (d.fire t c).regs = d.regs := rfl
@[simp] theorem Dev.fire_pavs (d : Dev) (t : Nat) (c : Nat) : (d.fire t c).pavs = d.pavs := rfl
@[simp] theorem Dev.fire_blks (d : Dev) (t : Nat) (c : Nat) : (d.fire t c).blks = d.blks := rfl
@[simp] theorem Dev.fire_cisMarks (d : Dev) (t : Nat) (c : Nat) : (d.fire t c).cisMarks = d.cisMarks := rfl
@[simp] theorem Dev.fire_mem (d : Dev) (t : Nat) (c : Nat) : (d.fire t c).mem = d.mem := rfl
@[simp] theorem Dev.fire_hp (d : Dev) (t : Nat) (c : Nat) : (d.fire t c).hp = d.hp := rfl
@[simp] theorem Dev.fire_qs (d : Dev) (t : Nat) (c : Nat) : (d.fire t c).qs = d.qs := rfl
@[simp] theorem Dev.fire_allots (d : Dev) (t : Nat) (c : Nat) : (d.fire t c).allots = d.allots := rfl
@[simp] theorem Dev.fire_clearOp (d : Dev) (t : Nat) (c : Nat) : (d.fire t c).clearOp = d.clearOp := rfl
@[simp] theorem Dev.fire_keys (d : Dev) (t : Nat) (c : Nat) : (d.fire t c).keys = d.keys := rfl
@[simp] theorem Dev.fire_trl (d : Dev) (t : Nat) (c : Nat) : (d.fire t c).trl = d.trl := rfl
@[simp] theorem Dev.fire_vdr (d : Dev) (t : Nat) (c : Nat) : (d.fire t c).vdr = d.vdr := rfl
@[simp] theorem Dev.fire_org (d : Dev) (t : Nat) (c : Nat) : (d.fire t c).org = d.org := rfl
@[simp] theorem Dev.fire_cans (d : Dev) (t : Nat) (c : Nat) : (d.fire t c).cans = d.cans := rfl
@[simp] theorem Dev.fire_time (d : Dev) (t : Nat) (c : Nat) : (d.fire t c).time = d.time := rfl
@[simp] theorem Dev.fire_hb (d : Dev) (t : Nat) (c : Nat) : (d.fire t c).hb = d.hb := rfl
@[simp] theorem Dev.fire_gate (d : Dev) (t : Nat) (c : Nat) : (d.fire t c).gate = d.gate := rfl
@[simp] theorem Dev.fire_clk (d : Dev) (t : Nat) (c : Nat) : (d.fire t c).clk = d.clk := rfl
@[simp] theorem Dev.fire_sup (d : Dev) (t : Nat) (c : Nat) : (d.fire t c).sup = d.sup := rfl
@[simp] theorem Dev.fire_boot (d : Dev) (t : Nat) (c : Nat) : (d.fire t c).boot = d.boot := rfl
@[simp] theorem Dev.fire_pair (d : Dev) (t : Nat) (c : Nat) : (d.fire t c).pair = d.pair := rfl
@[simp] theorem Dev.fire_sun (d : Dev) (t : Nat) (c : Nat) : (d.fire t c).sun = d.sun := rfl
@[simp] theorem Dev.fire_clamp (d : Dev) (t : Nat) (c : Nat) : (d.fire t c).clamp = d.clamp := rfl
@[simp] theorem Dev.fire_clockLoss (d : Dev) (t : Nat) (c : Nat) : (d.fire t c).clockLoss = d.clockLoss := rfl
@[simp] theorem Dev.fire_m1024 (d : Dev) (t : Nat) (c : Nat) : (d.fire t c).m1024 = d.m1024 := rfl
@[simp] theorem Dev.fire_clock (d : Dev) (t : Nat) (c : Nat) : (d.fire t c).clock = d.clock := rfl
@[simp] theorem Dev.fire_steward (d : Dev) (t : Nat) (c : Nat) : (d.fire t c).steward = d.steward := rfl
@[simp] theorem Dev.fire_freeIx (d : Dev) (t : Nat) (c : Nat) : (d.fire t c).freeIx = d.freeIx := rfl
@[simp] theorem Dev.fire_acceptIx (d : Dev) (t : Nat) (c : Nat) : (d.fire t c).acceptIx = d.acceptIx := rfl
@[simp] theorem Dev.fire_outbox (d : Dev) (t : Nat) (c : Nat) : (d.fire t c).outbox = d.outbox := rfl
@[simp] theorem Dev.updGate_regs (d : Dev) (f : Gate → Gate) : (d.updGate f).regs = d.regs := rfl
@[simp] theorem Dev.updGate_pavs (d : Dev) (f : Gate → Gate) : (d.updGate f).pavs = d.pavs := rfl
@[simp] theorem Dev.updGate_blks (d : Dev) (f : Gate → Gate) : (d.updGate f).blks = d.blks := rfl
@[simp] theorem Dev.updGate_cisMarks (d : Dev) (f : Gate → Gate) : (d.updGate f).cisMarks = d.cisMarks := rfl
@[simp] theorem Dev.updGate_mem (d : Dev) (f : Gate → Gate) : (d.updGate f).mem = d.mem := rfl
@[simp] theorem Dev.updGate_hp (d : Dev) (f : Gate → Gate) : (d.updGate f).hp = d.hp := rfl
@[simp] theorem Dev.updGate_qs (d : Dev) (f : Gate → Gate) : (d.updGate f).qs = d.qs := rfl
@[simp] theorem Dev.updGate_allots (d : Dev) (f : Gate → Gate) : (d.updGate f).allots = d.allots := rfl
@[simp] theorem Dev.updGate_clearOp (d : Dev) (f : Gate → Gate) : (d.updGate f).clearOp = d.clearOp := rfl
@[simp] theorem Dev.updGate_keys (d : Dev) (f : Gate → Gate) : (d.updGate f).keys = d.keys := rfl
@[simp] theorem Dev.updGate_trl (d : Dev) (f : Gate → Gate) : (d.updGate f).trl = d.trl := rfl
@[simp] theorem Dev.updGate_vdr (d : Dev) (f : Gate → Gate) : (d.updGate f).vdr = d.vdr := rfl
@[simp] theorem Dev.updGate_org (d : Dev) (f : Gate → Gate) : (d.updGate f).org = d.org := rfl
@[simp] theorem Dev.updGate_cans (d : Dev) (f : Gate → Gate) : (d.updGate f).cans = d.cans := rfl
@[simp] theorem Dev.updGate_time (d : Dev) (f : Gate → Gate) : (d.updGate f).time = d.time := rfl
@[simp] theorem Dev.updGate_hb (d : Dev) (f : Gate → Gate) : (d.updGate f).hb = d.hb := rfl
@[simp] theorem Dev.updGate_clk (d : Dev) (f : Gate → Gate) : (d.updGate f).clk = d.clk := rfl
@[simp] theorem Dev.updGate_sup (d : Dev) (f : Gate → Gate) : (d.updGate f).sup = d.sup := rfl
@[simp] theorem Dev.updGate_boot (d : Dev) (f : Gate → Gate) : (d.updGate f).boot = d.boot := rfl
@[simp] theorem Dev.updGate_pair (d : Dev) (f : Gate → Gate) : (d.updGate f).pair = d.pair := rfl
@[simp] theorem Dev.updGate_sun (d : Dev) (f : Gate → Gate) : (d.updGate f).sun = d.sun := rfl
@[simp] theorem Dev.updGate_fired (d : Dev) (f : Gate → Gate) : (d.updGate f).fired = d.fired := rfl
@[simp] theorem Dev.updGate_clamp (d : Dev) (f : Gate → Gate) : (d.updGate f).clamp = d.clamp := rfl
@[simp] theorem Dev.updGate_clockLoss (d : Dev) (f : Gate → Gate) : (d.updGate f).clockLoss = d.clockLoss := rfl
@[simp] theorem Dev.updGate_m1024 (d : Dev) (f : Gate → Gate) : (d.updGate f).m1024 = d.m1024 := rfl
@[simp] theorem Dev.updGate_clock (d : Dev) (f : Gate → Gate) : (d.updGate f).clock = d.clock := rfl
@[simp] theorem Dev.updGate_steward (d : Dev) (f : Gate → Gate) : (d.updGate f).steward = d.steward := rfl
@[simp] theorem Dev.updGate_freeIx (d : Dev) (f : Gate → Gate) : (d.updGate f).freeIx = d.freeIx := rfl
@[simp] theorem Dev.updGate_acceptIx (d : Dev) (f : Gate → Gate) : (d.updGate f).acceptIx = d.acceptIx := rfl
@[simp] theorem Dev.updGate_outbox (d : Dev) (f : Gate → Gate) : (d.updGate f).outbox = d.outbox := rfl
@[simp] theorem Dev.setChan_regs (d : Dev) (c : Nat) (x : Chan) : (d.setChan c x).regs = d.regs := rfl
@[simp] theorem Dev.setChan_pavs (d : Dev) (c : Nat) (x : Chan) : (d.setChan c x).pavs = d.pavs := rfl
@[simp] theorem Dev.setChan_blks (d : Dev) (c : Nat) (x : Chan) : (d.setChan c x).blks = d.blks := rfl
@[simp] theorem Dev.setChan_cisMarks (d : Dev) (c : Nat) (x : Chan) : (d.setChan c x).cisMarks = d.cisMarks := rfl
@[simp] theorem Dev.setChan_mem (d : Dev) (c : Nat) (x : Chan) : (d.setChan c x).mem = d.mem := rfl
@[simp] theorem Dev.setChan_hp (d : Dev) (c : Nat) (x : Chan) : (d.setChan c x).hp = d.hp := rfl
@[simp] theorem Dev.setChan_qs (d : Dev) (c : Nat) (x : Chan) : (d.setChan c x).qs = d.qs := rfl
@[simp] theorem Dev.setChan_allots (d : Dev) (c : Nat) (x : Chan) : (d.setChan c x).allots = d.allots := rfl
@[simp] theorem Dev.setChan_clearOp (d : Dev) (c : Nat) (x : Chan) : (d.setChan c x).clearOp = d.clearOp := rfl
@[simp] theorem Dev.setChan_keys (d : Dev) (c : Nat) (x : Chan) : (d.setChan c x).keys = d.keys := rfl
@[simp] theorem Dev.setChan_trl (d : Dev) (c : Nat) (x : Chan) : (d.setChan c x).trl = d.trl := rfl
@[simp] theorem Dev.setChan_org (d : Dev) (c : Nat) (x : Chan) : (d.setChan c x).org = d.org := rfl
@[simp] theorem Dev.setChan_cans (d : Dev) (c : Nat) (x : Chan) : (d.setChan c x).cans = d.cans := rfl
@[simp] theorem Dev.setChan_time (d : Dev) (c : Nat) (x : Chan) : (d.setChan c x).time = d.time := rfl
@[simp] theorem Dev.setChan_hb (d : Dev) (c : Nat) (x : Chan) : (d.setChan c x).hb = d.hb := rfl
@[simp] theorem Dev.setChan_gate (d : Dev) (c : Nat) (x : Chan) : (d.setChan c x).gate = d.gate := rfl
@[simp] theorem Dev.setChan_clk (d : Dev) (c : Nat) (x : Chan) : (d.setChan c x).clk = d.clk := rfl
@[simp] theorem Dev.setChan_sup (d : Dev) (c : Nat) (x : Chan) : (d.setChan c x).sup = d.sup := rfl
@[simp] theorem Dev.setChan_boot (d : Dev) (c : Nat) (x : Chan) : (d.setChan c x).boot = d.boot := rfl
@[simp] theorem Dev.setChan_pair (d : Dev) (c : Nat) (x : Chan) : (d.setChan c x).pair = d.pair := rfl
@[simp] theorem Dev.setChan_sun (d : Dev) (c : Nat) (x : Chan) : (d.setChan c x).sun = d.sun := rfl
@[simp] theorem Dev.setChan_fired (d : Dev) (c : Nat) (x : Chan) : (d.setChan c x).fired = d.fired := rfl
@[simp] theorem Dev.setChan_clamp (d : Dev) (c : Nat) (x : Chan) : (d.setChan c x).clamp = d.clamp := rfl
@[simp] theorem Dev.setChan_clockLoss (d : Dev) (c : Nat) (x : Chan) : (d.setChan c x).clockLoss = d.clockLoss := rfl
@[simp] theorem Dev.setChan_m1024 (d : Dev) (c : Nat) (x : Chan) : (d.setChan c x).m1024 = d.m1024 := rfl
@[simp] theorem Dev.setChan_clock (d : Dev) (c : Nat) (x : Chan) : (d.setChan c x).clock = d.clock := rfl
@[simp] theorem Dev.setChan_steward (d : Dev) (c : Nat) (x : Chan) : (d.setChan c x).steward = d.steward := rfl
@[simp] theorem Dev.setChan_freeIx (d : Dev) (c : Nat) (x : Chan) : (d.setChan c x).freeIx = d.freeIx := rfl
@[simp] theorem Dev.setChan_acceptIx (d : Dev) (c : Nat) (x : Chan) : (d.setChan c x).acceptIx = d.acceptIx := rfl
@[simp] theorem Dev.setChan_outbox (d : Dev) (c : Nat) (x : Chan) : (d.setChan c x).outbox = d.outbox := rfl
@[simp] theorem Dev.updChan_regs (d : Dev) (c : Nat) (f : Chan → Chan) : (d.updChan c f).regs = d.regs := rfl
@[simp] theorem Dev.updChan_pavs (d : Dev) (c : Nat) (f : Chan → Chan) : (d.updChan c f).pavs = d.pavs := rfl
@[simp] theorem Dev.updChan_blks (d : Dev) (c : Nat) (f : Chan → Chan) : (d.updChan c f).blks = d.blks := rfl
@[simp] theorem Dev.updChan_cisMarks (d : Dev) (c : Nat) (f : Chan → Chan) : (d.updChan c f).cisMarks = d.cisMarks := rfl
@[simp] theorem Dev.updChan_mem (d : Dev) (c : Nat) (f : Chan → Chan) : (d.updChan c f).mem = d.mem := rfl
@[simp] theorem Dev.updChan_hp (d : Dev) (c : Nat) (f : Chan → Chan) : (d.updChan c f).hp = d.hp := rfl
@[simp] theorem Dev.updChan_qs (d : Dev) (c : Nat) (f : Chan → Chan) : (d.updChan c f).qs = d.qs := rfl
@[simp] theorem Dev.updChan_allots (d : Dev) (c : Nat) (f : Chan → Chan) : (d.updChan c f).allots = d.allots := rfl
@[simp] theorem Dev.updChan_clearOp (d : Dev) (c : Nat) (f : Chan → Chan) : (d.updChan c f).clearOp = d.clearOp := rfl
@[simp] theorem Dev.updChan_keys (d : Dev) (c : Nat) (f : Chan → Chan) : (d.updChan c f).keys = d.keys := rfl
@[simp] theorem Dev.updChan_trl (d : Dev) (c : Nat) (f : Chan → Chan) : (d.updChan c f).trl = d.trl := rfl
@[simp] theorem Dev.updChan_org (d : Dev) (c : Nat) (f : Chan → Chan) : (d.updChan c f).org = d.org := rfl
@[simp] theorem Dev.updChan_cans (d : Dev) (c : Nat) (f : Chan → Chan) : (d.updChan c f).cans = d.cans := rfl
@[simp] theorem Dev.updChan_time (d : Dev) (c : Nat) (f : Chan → Chan) : (d.updChan c f).time = d.time := rfl
@[simp] theorem Dev.updChan_hb (d : Dev) (c : Nat) (f : Chan → Chan) : (d.updChan c f).hb = d.hb := rfl
@[simp] theorem Dev.updChan_gate (d : Dev) (c : Nat) (f : Chan → Chan) : (d.updChan c f).gate = d.gate := rfl
@[simp] theorem Dev.updChan_clk (d : Dev) (c : Nat) (f : Chan → Chan) : (d.updChan c f).clk = d.clk := rfl
@[simp] theorem Dev.updChan_sup (d : Dev) (c : Nat) (f : Chan → Chan) : (d.updChan c f).sup = d.sup := rfl
@[simp] theorem Dev.updChan_boot (d : Dev) (c : Nat) (f : Chan → Chan) : (d.updChan c f).boot = d.boot := rfl
@[simp] theorem Dev.updChan_pair (d : Dev) (c : Nat) (f : Chan → Chan) : (d.updChan c f).pair = d.pair := rfl
@[simp] theorem Dev.updChan_sun (d : Dev) (c : Nat) (f : Chan → Chan) : (d.updChan c f).sun = d.sun := rfl
@[simp] theorem Dev.updChan_fired (d : Dev) (c : Nat) (f : Chan → Chan) : (d.updChan c f).fired = d.fired := rfl
@[simp] theorem Dev.updChan_clamp (d : Dev) (c : Nat) (f : Chan → Chan) : (d.updChan c f).clamp = d.clamp := rfl
@[simp] theorem Dev.updChan_clockLoss (d : Dev) (c : Nat) (f : Chan → Chan) : (d.updChan c f).clockLoss = d.clockLoss := rfl
@[simp] theorem Dev.updChan_m1024 (d : Dev) (c : Nat) (f : Chan → Chan) : (d.updChan c f).m1024 = d.m1024 := rfl
@[simp] theorem Dev.updChan_clock (d : Dev) (c : Nat) (f : Chan → Chan) : (d.updChan c f).clock = d.clock := rfl
@[simp] theorem Dev.updChan_steward (d : Dev) (c : Nat) (f : Chan → Chan) : (d.updChan c f).steward = d.steward := rfl
@[simp] theorem Dev.updChan_freeIx (d : Dev) (c : Nat) (f : Chan → Chan) : (d.updChan c f).freeIx = d.freeIx := rfl
@[simp] theorem Dev.updChan_acceptIx (d : Dev) (c : Nat) (f : Chan → Chan) : (d.updChan c f).acceptIx = d.acceptIx := rfl
@[simp] theorem Dev.updChan_outbox (d : Dev) (c : Nat) (f : Chan → Chan) : (d.updChan c f).outbox = d.outbox := rfl
@[simp] theorem Dev.setMsix_regs (d : Dev) (v : Nat) (m : Msix) : (d.setMsix v m).regs = d.regs := rfl
@[simp] theorem Dev.setMsix_pavs (d : Dev) (v : Nat) (m : Msix) : (d.setMsix v m).pavs = d.pavs := rfl
@[simp] theorem Dev.setMsix_blks (d : Dev) (v : Nat) (m : Msix) : (d.setMsix v m).blks = d.blks := rfl
@[simp] theorem Dev.setMsix_cisMarks (d : Dev) (v : Nat) (m : Msix) : (d.setMsix v m).cisMarks = d.cisMarks := rfl
@[simp] theorem Dev.setMsix_mem (d : Dev) (v : Nat) (m : Msix) : (d.setMsix v m).mem = d.mem := rfl
@[simp] theorem Dev.setMsix_qs (d : Dev) (v : Nat) (m : Msix) : (d.setMsix v m).qs = d.qs := rfl
@[simp] theorem Dev.setMsix_allots (d : Dev) (v : Nat) (m : Msix) : (d.setMsix v m).allots = d.allots := rfl
@[simp] theorem Dev.setMsix_clearOp (d : Dev) (v : Nat) (m : Msix) : (d.setMsix v m).clearOp = d.clearOp := rfl
@[simp] theorem Dev.setMsix_keys (d : Dev) (v : Nat) (m : Msix) : (d.setMsix v m).keys = d.keys := rfl
@[simp] theorem Dev.setMsix_trl (d : Dev) (v : Nat) (m : Msix) : (d.setMsix v m).trl = d.trl := rfl
@[simp] theorem Dev.setMsix_vdr (d : Dev) (v : Nat) (m : Msix) : (d.setMsix v m).vdr = d.vdr := rfl
@[simp] theorem Dev.setMsix_org (d : Dev) (v : Nat) (m : Msix) : (d.setMsix v m).org = d.org := rfl
@[simp] theorem Dev.setMsix_cans (d : Dev) (v : Nat) (m : Msix) : (d.setMsix v m).cans = d.cans := rfl
@[simp] theorem Dev.setMsix_time (d : Dev) (v : Nat) (m : Msix) : (d.setMsix v m).time = d.time := rfl
@[simp] theorem Dev.setMsix_hb (d : Dev) (v : Nat) (m : Msix) : (d.setMsix v m).hb = d.hb := rfl
@[simp] theorem Dev.setMsix_gate (d : Dev) (v : Nat) (m : Msix) : (d.setMsix v m).gate = d.gate := rfl
@[simp] theorem Dev.setMsix_clk (d : Dev) (v : Nat) (m : Msix) : (d.setMsix v m).clk = d.clk := rfl
@[simp] theorem Dev.setMsix_sup (d : Dev) (v : Nat) (m : Msix) : (d.setMsix v m).sup = d.sup := rfl
@[simp] theorem Dev.setMsix_boot (d : Dev) (v : Nat) (m : Msix) : (d.setMsix v m).boot = d.boot := rfl
@[simp] theorem Dev.setMsix_pair (d : Dev) (v : Nat) (m : Msix) : (d.setMsix v m).pair = d.pair := rfl
@[simp] theorem Dev.setMsix_sun (d : Dev) (v : Nat) (m : Msix) : (d.setMsix v m).sun = d.sun := rfl
@[simp] theorem Dev.setMsix_fired (d : Dev) (v : Nat) (m : Msix) : (d.setMsix v m).fired = d.fired := rfl
@[simp] theorem Dev.setMsix_clamp (d : Dev) (v : Nat) (m : Msix) : (d.setMsix v m).clamp = d.clamp := rfl
@[simp] theorem Dev.setMsix_clockLoss (d : Dev) (v : Nat) (m : Msix) : (d.setMsix v m).clockLoss = d.clockLoss := rfl
@[simp] theorem Dev.setMsix_m1024 (d : Dev) (v : Nat) (m : Msix) : (d.setMsix v m).m1024 = d.m1024 := rfl
@[simp] theorem Dev.setMsix_clock (d : Dev) (v : Nat) (m : Msix) : (d.setMsix v m).clock = d.clock := rfl
@[simp] theorem Dev.setMsix_steward (d : Dev) (v : Nat) (m : Msix) : (d.setMsix v m).steward = d.steward := rfl
@[simp] theorem Dev.setMsix_freeIx (d : Dev) (v : Nat) (m : Msix) : (d.setMsix v m).freeIx = d.freeIx := rfl
@[simp] theorem Dev.setMsix_acceptIx (d : Dev) (v : Nat) (m : Msix) : (d.setMsix v m).acceptIx = d.acceptIx := rfl
@[simp] theorem Dev.setMsix_outbox (d : Dev) (v : Nat) (m : Msix) : (d.setMsix v m).outbox = d.outbox := rfl
@[simp] theorem Dev.updSensor_regs (d : Dev) (n : Nat) (f : Sensor → Sensor) : (d.updSensor n f).regs = d.regs := rfl
@[simp] theorem Dev.updSensor_pavs (d : Dev) (n : Nat) (f : Sensor → Sensor) : (d.updSensor n f).pavs = d.pavs := rfl
@[simp] theorem Dev.updSensor_blks (d : Dev) (n : Nat) (f : Sensor → Sensor) : (d.updSensor n f).blks = d.blks := rfl
@[simp] theorem Dev.updSensor_cisMarks (d : Dev) (n : Nat) (f : Sensor → Sensor) : (d.updSensor n f).cisMarks = d.cisMarks := rfl
@[simp] theorem Dev.updSensor_mem (d : Dev) (n : Nat) (f : Sensor → Sensor) : (d.updSensor n f).mem = d.mem := rfl
@[simp] theorem Dev.updSensor_hp (d : Dev) (n : Nat) (f : Sensor → Sensor) : (d.updSensor n f).hp = d.hp := rfl
@[simp] theorem Dev.updSensor_qs (d : Dev) (n : Nat) (f : Sensor → Sensor) : (d.updSensor n f).qs = d.qs := rfl
@[simp] theorem Dev.updSensor_allots (d : Dev) (n : Nat) (f : Sensor → Sensor) : (d.updSensor n f).allots = d.allots := rfl
@[simp] theorem Dev.updSensor_clearOp (d : Dev) (n : Nat) (f : Sensor → Sensor) : (d.updSensor n f).clearOp = d.clearOp := rfl
@[simp] theorem Dev.updSensor_keys (d : Dev) (n : Nat) (f : Sensor → Sensor) : (d.updSensor n f).keys = d.keys := rfl
@[simp] theorem Dev.updSensor_trl (d : Dev) (n : Nat) (f : Sensor → Sensor) : (d.updSensor n f).trl = d.trl := rfl
@[simp] theorem Dev.updSensor_vdr (d : Dev) (n : Nat) (f : Sensor → Sensor) : (d.updSensor n f).vdr = d.vdr := rfl
@[simp] theorem Dev.updSensor_cans (d : Dev) (n : Nat) (f : Sensor → Sensor) : (d.updSensor n f).cans = d.cans := rfl
@[simp] theorem Dev.updSensor_time (d : Dev) (n : Nat) (f : Sensor → Sensor) : (d.updSensor n f).time = d.time := rfl
@[simp] theorem Dev.updSensor_hb (d : Dev) (n : Nat) (f : Sensor → Sensor) : (d.updSensor n f).hb = d.hb := rfl
@[simp] theorem Dev.updSensor_gate (d : Dev) (n : Nat) (f : Sensor → Sensor) : (d.updSensor n f).gate = d.gate := rfl
@[simp] theorem Dev.updSensor_clk (d : Dev) (n : Nat) (f : Sensor → Sensor) : (d.updSensor n f).clk = d.clk := rfl
@[simp] theorem Dev.updSensor_sup (d : Dev) (n : Nat) (f : Sensor → Sensor) : (d.updSensor n f).sup = d.sup := rfl
@[simp] theorem Dev.updSensor_boot (d : Dev) (n : Nat) (f : Sensor → Sensor) : (d.updSensor n f).boot = d.boot := rfl
@[simp] theorem Dev.updSensor_pair (d : Dev) (n : Nat) (f : Sensor → Sensor) : (d.updSensor n f).pair = d.pair := rfl
@[simp] theorem Dev.updSensor_sun (d : Dev) (n : Nat) (f : Sensor → Sensor) : (d.updSensor n f).sun = d.sun := rfl
@[simp] theorem Dev.updSensor_fired (d : Dev) (n : Nat) (f : Sensor → Sensor) : (d.updSensor n f).fired = d.fired := rfl
@[simp] theorem Dev.updSensor_clamp (d : Dev) (n : Nat) (f : Sensor → Sensor) : (d.updSensor n f).clamp = d.clamp := rfl
@[simp] theorem Dev.updSensor_clockLoss (d : Dev) (n : Nat) (f : Sensor → Sensor) : (d.updSensor n f).clockLoss = d.clockLoss := rfl
@[simp] theorem Dev.updSensor_m1024 (d : Dev) (n : Nat) (f : Sensor → Sensor) : (d.updSensor n f).m1024 = d.m1024 := rfl
@[simp] theorem Dev.updSensor_clock (d : Dev) (n : Nat) (f : Sensor → Sensor) : (d.updSensor n f).clock = d.clock := rfl
@[simp] theorem Dev.updSensor_steward (d : Dev) (n : Nat) (f : Sensor → Sensor) : (d.updSensor n f).steward = d.steward := rfl
@[simp] theorem Dev.updSensor_freeIx (d : Dev) (n : Nat) (f : Sensor → Sensor) : (d.updSensor n f).freeIx = d.freeIx := rfl
@[simp] theorem Dev.updSensor_acceptIx (d : Dev) (n : Nat) (f : Sensor → Sensor) : (d.updSensor n f).acceptIx = d.acceptIx := rfl
@[simp] theorem Dev.updSensor_outbox (d : Dev) (n : Nat) (f : Sensor → Sensor) : (d.updSensor n f).outbox = d.outbox := rfl
@[simp] theorem Dev.updZone_regs (d : Dev) (z : Nat) (f : Zone → Zone) : (d.updZone z f).regs = d.regs := rfl
@[simp] theorem Dev.updZone_pavs (d : Dev) (z : Nat) (f : Zone → Zone) : (d.updZone z f).pavs = d.pavs := rfl
@[simp] theorem Dev.updZone_blks (d : Dev) (z : Nat) (f : Zone → Zone) : (d.updZone z f).blks = d.blks := rfl
@[simp] theorem Dev.updZone_cisMarks (d : Dev) (z : Nat) (f : Zone → Zone) : (d.updZone z f).cisMarks = d.cisMarks := rfl
@[simp] theorem Dev.updZone_mem (d : Dev) (z : Nat) (f : Zone → Zone) : (d.updZone z f).mem = d.mem := rfl
@[simp] theorem Dev.updZone_hp (d : Dev) (z : Nat) (f : Zone → Zone) : (d.updZone z f).hp = d.hp := rfl
@[simp] theorem Dev.updZone_qs (d : Dev) (z : Nat) (f : Zone → Zone) : (d.updZone z f).qs = d.qs := rfl
@[simp] theorem Dev.updZone_allots (d : Dev) (z : Nat) (f : Zone → Zone) : (d.updZone z f).allots = d.allots := rfl
@[simp] theorem Dev.updZone_clearOp (d : Dev) (z : Nat) (f : Zone → Zone) : (d.updZone z f).clearOp = d.clearOp := rfl
@[simp] theorem Dev.updZone_keys (d : Dev) (z : Nat) (f : Zone → Zone) : (d.updZone z f).keys = d.keys := rfl
@[simp] theorem Dev.updZone_trl (d : Dev) (z : Nat) (f : Zone → Zone) : (d.updZone z f).trl = d.trl := rfl
@[simp] theorem Dev.updZone_vdr (d : Dev) (z : Nat) (f : Zone → Zone) : (d.updZone z f).vdr = d.vdr := rfl
@[simp] theorem Dev.updZone_cans (d : Dev) (z : Nat) (f : Zone → Zone) : (d.updZone z f).cans = d.cans := rfl
@[simp] theorem Dev.updZone_time (d : Dev) (z : Nat) (f : Zone → Zone) : (d.updZone z f).time = d.time := rfl
@[simp] theorem Dev.updZone_hb (d : Dev) (z : Nat) (f : Zone → Zone) : (d.updZone z f).hb = d.hb := rfl
@[simp] theorem Dev.updZone_gate (d : Dev) (z : Nat) (f : Zone → Zone) : (d.updZone z f).gate = d.gate := rfl
@[simp] theorem Dev.updZone_clk (d : Dev) (z : Nat) (f : Zone → Zone) : (d.updZone z f).clk = d.clk := rfl
@[simp] theorem Dev.updZone_sup (d : Dev) (z : Nat) (f : Zone → Zone) : (d.updZone z f).sup = d.sup := rfl
@[simp] theorem Dev.updZone_boot (d : Dev) (z : Nat) (f : Zone → Zone) : (d.updZone z f).boot = d.boot := rfl
@[simp] theorem Dev.updZone_pair (d : Dev) (z : Nat) (f : Zone → Zone) : (d.updZone z f).pair = d.pair := rfl
@[simp] theorem Dev.updZone_sun (d : Dev) (z : Nat) (f : Zone → Zone) : (d.updZone z f).sun = d.sun := rfl
@[simp] theorem Dev.updZone_fired (d : Dev) (z : Nat) (f : Zone → Zone) : (d.updZone z f).fired = d.fired := rfl
@[simp] theorem Dev.updZone_clamp (d : Dev) (z : Nat) (f : Zone → Zone) : (d.updZone z f).clamp = d.clamp := rfl
@[simp] theorem Dev.updZone_clockLoss (d : Dev) (z : Nat) (f : Zone → Zone) : (d.updZone z f).clockLoss = d.clockLoss := rfl
@[simp] theorem Dev.updZone_m1024 (d : Dev) (z : Nat) (f : Zone → Zone) : (d.updZone z f).m1024 = d.m1024 := rfl
@[simp] theorem Dev.updZone_clock (d : Dev) (z : Nat) (f : Zone → Zone) : (d.updZone z f).clock = d.clock := rfl
@[simp] theorem Dev.updZone_steward (d : Dev) (z : Nat) (f : Zone → Zone) : (d.updZone z f).steward = d.steward := rfl
@[simp] theorem Dev.updZone_freeIx (d : Dev) (z : Nat) (f : Zone → Zone) : (d.updZone z f).freeIx = d.freeIx := rfl
@[simp] theorem Dev.updZone_acceptIx (d : Dev) (z : Nat) (f : Zone → Zone) : (d.updZone z f).acceptIx = d.acceptIx := rfl
@[simp] theorem Dev.updZone_outbox (d : Dev) (z : Nat) (f : Zone → Zone) : (d.updZone z f).outbox = d.outbox := rfl
@[simp] theorem Dev.updBoot_regs (d : Dev) (f : Start → Start) : (d.updBoot f).regs = d.regs := rfl
@[simp] theorem Dev.updBoot_pavs (d : Dev) (f : Start → Start) : (d.updBoot f).pavs = d.pavs := rfl
@[simp] theorem Dev.updBoot_blks (d : Dev) (f : Start → Start) : (d.updBoot f).blks = d.blks := rfl
@[simp] theorem Dev.updBoot_cisMarks (d : Dev) (f : Start → Start) : (d.updBoot f).cisMarks = d.cisMarks := rfl
@[simp] theorem Dev.updBoot_mem (d : Dev) (f : Start → Start) : (d.updBoot f).mem = d.mem := rfl
@[simp] theorem Dev.updBoot_hp (d : Dev) (f : Start → Start) : (d.updBoot f).hp = d.hp := rfl
@[simp] theorem Dev.updBoot_qs (d : Dev) (f : Start → Start) : (d.updBoot f).qs = d.qs := rfl
@[simp] theorem Dev.updBoot_allots (d : Dev) (f : Start → Start) : (d.updBoot f).allots = d.allots := rfl
@[simp] theorem Dev.updBoot_clearOp (d : Dev) (f : Start → Start) : (d.updBoot f).clearOp = d.clearOp := rfl
@[simp] theorem Dev.updBoot_keys (d : Dev) (f : Start → Start) : (d.updBoot f).keys = d.keys := rfl
@[simp] theorem Dev.updBoot_trl (d : Dev) (f : Start → Start) : (d.updBoot f).trl = d.trl := rfl
@[simp] theorem Dev.updBoot_vdr (d : Dev) (f : Start → Start) : (d.updBoot f).vdr = d.vdr := rfl
@[simp] theorem Dev.updBoot_org (d : Dev) (f : Start → Start) : (d.updBoot f).org = d.org := rfl
@[simp] theorem Dev.updBoot_cans (d : Dev) (f : Start → Start) : (d.updBoot f).cans = d.cans := rfl
@[simp] theorem Dev.updBoot_time (d : Dev) (f : Start → Start) : (d.updBoot f).time = d.time := rfl
@[simp] theorem Dev.updBoot_hb (d : Dev) (f : Start → Start) : (d.updBoot f).hb = d.hb := rfl
@[simp] theorem Dev.updBoot_gate (d : Dev) (f : Start → Start) : (d.updBoot f).gate = d.gate := rfl
@[simp] theorem Dev.updBoot_clk (d : Dev) (f : Start → Start) : (d.updBoot f).clk = d.clk := rfl
@[simp] theorem Dev.updBoot_sup (d : Dev) (f : Start → Start) : (d.updBoot f).sup = d.sup := rfl
@[simp] theorem Dev.updBoot_pair (d : Dev) (f : Start → Start) : (d.updBoot f).pair = d.pair := rfl
@[simp] theorem Dev.updBoot_sun (d : Dev) (f : Start → Start) : (d.updBoot f).sun = d.sun := rfl
@[simp] theorem Dev.updBoot_fired (d : Dev) (f : Start → Start) : (d.updBoot f).fired = d.fired := rfl
@[simp] theorem Dev.updBoot_clamp (d : Dev) (f : Start → Start) : (d.updBoot f).clamp = d.clamp := rfl
@[simp] theorem Dev.updBoot_clockLoss (d : Dev) (f : Start → Start) : (d.updBoot f).clockLoss = d.clockLoss := rfl
@[simp] theorem Dev.updBoot_m1024 (d : Dev) (f : Start → Start) : (d.updBoot f).m1024 = d.m1024 := rfl
@[simp] theorem Dev.updBoot_clock (d : Dev) (f : Start → Start) : (d.updBoot f).clock = d.clock := rfl
@[simp] theorem Dev.updBoot_steward (d : Dev) (f : Start → Start) : (d.updBoot f).steward = d.steward := rfl
@[simp] theorem Dev.updBoot_freeIx (d : Dev) (f : Start → Start) : (d.updBoot f).freeIx = d.freeIx := rfl
@[simp] theorem Dev.updBoot_acceptIx (d : Dev) (f : Start → Start) : (d.updBoot f).acceptIx = d.acceptIx := rfl
@[simp] theorem Dev.updBoot_outbox (d : Dev) (f : Start → Start) : (d.updBoot f).outbox = d.outbox := rfl
@[simp] theorem Dev.updClk_regs (d : Dev) (f : Clk → Clk) : (d.updClk f).regs = d.regs := rfl
@[simp] theorem Dev.updClk_pavs (d : Dev) (f : Clk → Clk) : (d.updClk f).pavs = d.pavs := rfl
@[simp] theorem Dev.updClk_blks (d : Dev) (f : Clk → Clk) : (d.updClk f).blks = d.blks := rfl
@[simp] theorem Dev.updClk_cisMarks (d : Dev) (f : Clk → Clk) : (d.updClk f).cisMarks = d.cisMarks := rfl
@[simp] theorem Dev.updClk_mem (d : Dev) (f : Clk → Clk) : (d.updClk f).mem = d.mem := rfl
@[simp] theorem Dev.updClk_hp (d : Dev) (f : Clk → Clk) : (d.updClk f).hp = d.hp := rfl
@[simp] theorem Dev.updClk_qs (d : Dev) (f : Clk → Clk) : (d.updClk f).qs = d.qs := rfl
@[simp] theorem Dev.updClk_allots (d : Dev) (f : Clk → Clk) : (d.updClk f).allots = d.allots := rfl
@[simp] theorem Dev.updClk_clearOp (d : Dev) (f : Clk → Clk) : (d.updClk f).clearOp = d.clearOp := rfl
@[simp] theorem Dev.updClk_keys (d : Dev) (f : Clk → Clk) : (d.updClk f).keys = d.keys := rfl
@[simp] theorem Dev.updClk_trl (d : Dev) (f : Clk → Clk) : (d.updClk f).trl = d.trl := rfl
@[simp] theorem Dev.updClk_vdr (d : Dev) (f : Clk → Clk) : (d.updClk f).vdr = d.vdr := rfl
@[simp] theorem Dev.updClk_org (d : Dev) (f : Clk → Clk) : (d.updClk f).org = d.org := rfl
@[simp] theorem Dev.updClk_cans (d : Dev) (f : Clk → Clk) : (d.updClk f).cans = d.cans := rfl
@[simp] theorem Dev.updClk_time (d : Dev) (f : Clk → Clk) : (d.updClk f).time = d.time := rfl
@[simp] theorem Dev.updClk_hb (d : Dev) (f : Clk → Clk) : (d.updClk f).hb = d.hb := rfl
@[simp] theorem Dev.updClk_gate (d : Dev) (f : Clk → Clk) : (d.updClk f).gate = d.gate := rfl
@[simp] theorem Dev.updClk_sup (d : Dev) (f : Clk → Clk) : (d.updClk f).sup = d.sup := rfl
@[simp] theorem Dev.updClk_boot (d : Dev) (f : Clk → Clk) : (d.updClk f).boot = d.boot := rfl
@[simp] theorem Dev.updClk_pair (d : Dev) (f : Clk → Clk) : (d.updClk f).pair = d.pair := rfl
@[simp] theorem Dev.updClk_sun (d : Dev) (f : Clk → Clk) : (d.updClk f).sun = d.sun := rfl
@[simp] theorem Dev.updClk_fired (d : Dev) (f : Clk → Clk) : (d.updClk f).fired = d.fired := rfl
@[simp] theorem Dev.updClk_clamp (d : Dev) (f : Clk → Clk) : (d.updClk f).clamp = d.clamp := rfl
@[simp] theorem Dev.updClk_clockLoss (d : Dev) (f : Clk → Clk) : (d.updClk f).clockLoss = d.clockLoss := rfl
@[simp] theorem Dev.updClk_m1024 (d : Dev) (f : Clk → Clk) : (d.updClk f).m1024 = d.m1024 := rfl
@[simp] theorem Dev.updClk_clock (d : Dev) (f : Clk → Clk) : (d.updClk f).clock = d.clock := rfl
@[simp] theorem Dev.updClk_steward (d : Dev) (f : Clk → Clk) : (d.updClk f).steward = d.steward := rfl
@[simp] theorem Dev.updClk_freeIx (d : Dev) (f : Clk → Clk) : (d.updClk f).freeIx = d.freeIx := rfl
@[simp] theorem Dev.updClk_acceptIx (d : Dev) (f : Clk → Clk) : (d.updClk f).acceptIx = d.acceptIx := rfl
@[simp] theorem Dev.updClk_outbox (d : Dev) (f : Clk → Clk) : (d.updClk f).outbox = d.outbox := rfl
@[simp] theorem Dev.updCan_regs (d : Dev) (t : Nat) (f : Can → Can) : (d.updCan t f).regs = d.regs := rfl
@[simp] theorem Dev.updCan_pavs (d : Dev) (t : Nat) (f : Can → Can) : (d.updCan t f).pavs = d.pavs := rfl
@[simp] theorem Dev.updCan_blks (d : Dev) (t : Nat) (f : Can → Can) : (d.updCan t f).blks = d.blks := rfl
@[simp] theorem Dev.updCan_cisMarks (d : Dev) (t : Nat) (f : Can → Can) : (d.updCan t f).cisMarks = d.cisMarks := rfl
@[simp] theorem Dev.updCan_mem (d : Dev) (t : Nat) (f : Can → Can) : (d.updCan t f).mem = d.mem := rfl
@[simp] theorem Dev.updCan_hp (d : Dev) (t : Nat) (f : Can → Can) : (d.updCan t f).hp = d.hp := rfl
@[simp] theorem Dev.updCan_qs (d : Dev) (t : Nat) (f : Can → Can) : (d.updCan t f).qs = d.qs := rfl
@[simp] theorem Dev.updCan_allots (d : Dev) (t : Nat) (f : Can → Can) : (d.updCan t f).allots = d.allots := rfl
@[simp] theorem Dev.updCan_clearOp (d : Dev) (t : Nat) (f : Can → Can) : (d.updCan t f).clearOp = d.clearOp := rfl
@[simp] theorem Dev.updCan_keys (d : Dev) (t : Nat) (f : Can → Can) : (d.updCan t f).keys = d.keys := rfl
@[simp] theorem Dev.updCan_trl (d : Dev) (t : Nat) (f : Can → Can) : (d.updCan t f).trl = d.trl := rfl
@[simp] theorem Dev.updCan_vdr (d : Dev) (t : Nat) (f : Can → Can) : (d.updCan t f).vdr = d.vdr := rfl
@[simp] theorem Dev.updCan_org (d : Dev) (t : Nat) (f : Can → Can) : (d.updCan t f).org = d.org := rfl
@[simp] theorem Dev.updCan_time (d : Dev) (t : Nat) (f : Can → Can) : (d.updCan t f).time = d.time := rfl
@[simp] theorem Dev.updCan_hb (d : Dev) (t : Nat) (f : Can → Can) : (d.updCan t f).hb = d.hb := rfl
@[simp] theorem Dev.updCan_gate (d : Dev) (t : Nat) (f : Can → Can) : (d.updCan t f).gate = d.gate := rfl
@[simp] theorem Dev.updCan_clk (d : Dev) (t : Nat) (f : Can → Can) : (d.updCan t f).clk = d.clk := rfl
@[simp] theorem Dev.updCan_sup (d : Dev) (t : Nat) (f : Can → Can) : (d.updCan t f).sup = d.sup := rfl
@[simp] theorem Dev.updCan_boot (d : Dev) (t : Nat) (f : Can → Can) : (d.updCan t f).boot = d.boot := rfl
@[simp] theorem Dev.updCan_pair (d : Dev) (t : Nat) (f : Can → Can) : (d.updCan t f).pair = d.pair := rfl
@[simp] theorem Dev.updCan_sun (d : Dev) (t : Nat) (f : Can → Can) : (d.updCan t f).sun = d.sun := rfl
@[simp] theorem Dev.updCan_fired (d : Dev) (t : Nat) (f : Can → Can) : (d.updCan t f).fired = d.fired := rfl
@[simp] theorem Dev.updCan_clamp (d : Dev) (t : Nat) (f : Can → Can) : (d.updCan t f).clamp = d.clamp := rfl
@[simp] theorem Dev.updCan_clockLoss (d : Dev) (t : Nat) (f : Can → Can) : (d.updCan t f).clockLoss = d.clockLoss := rfl
@[simp] theorem Dev.updCan_m1024 (d : Dev) (t : Nat) (f : Can → Can) : (d.updCan t f).m1024 = d.m1024 := rfl
@[simp] theorem Dev.updCan_clock (d : Dev) (t : Nat) (f : Can → Can) : (d.updCan t f).clock = d.clock := rfl
@[simp] theorem Dev.updCan_steward (d : Dev) (t : Nat) (f : Can → Can) : (d.updCan t f).steward = d.steward := rfl
@[simp] theorem Dev.updCan_freeIx (d : Dev) (t : Nat) (f : Can → Can) : (d.updCan t f).freeIx = d.freeIx := rfl
@[simp] theorem Dev.updCan_acceptIx (d : Dev) (t : Nat) (f : Can → Can) : (d.updCan t f).acceptIx = d.acceptIx := rfl
@[simp] theorem Dev.updCan_outbox (d : Dev) (t : Nat) (f : Can → Can) : (d.updCan t f).outbox = d.outbox := rfl
@[simp] theorem Dev.takeFree_regs (d : Dev) : d.takeFree.1.regs = d.regs := rfl
@[simp] theorem Dev.takeFree_pavs (d : Dev) : d.takeFree.1.pavs = d.pavs := rfl
@[simp] theorem Dev.takeFree_blks (d : Dev) : d.takeFree.1.blks = d.blks := rfl
@[simp] theorem Dev.takeFree_cisMarks (d : Dev) : d.takeFree.1.cisMarks = d.cisMarks := rfl
@[simp] theorem Dev.takeFree_mem (d : Dev) : d.takeFree.1.mem = d.mem := rfl
@[simp] theorem Dev.takeFree_hp (d : Dev) : d.takeFree.1.hp = d.hp := rfl
@[simp] theorem Dev.takeFree_qs (d : Dev) : d.takeFree.1.qs = d.qs := rfl
@[simp] theorem Dev.takeFree_allots (d : Dev) : d.takeFree.1.allots = d.allots := rfl
@[simp] theorem Dev.takeFree_clearOp (d : Dev) : d.takeFree.1.clearOp = d.clearOp := rfl
@[simp] theorem Dev.takeFree_keys (d : Dev) : d.takeFree.1.keys = d.keys := rfl
@[simp] theorem Dev.takeFree_trl (d : Dev) : d.takeFree.1.trl = d.trl := rfl
@[simp] theorem Dev.takeFree_vdr (d : Dev) : d.takeFree.1.vdr = d.vdr := rfl
@[simp] theorem Dev.takeFree_org (d : Dev) : d.takeFree.1.org = d.org := rfl
@[simp] theorem Dev.takeFree_cans (d : Dev) : d.takeFree.1.cans = d.cans := rfl
@[simp] theorem Dev.takeFree_time (d : Dev) : d.takeFree.1.time = d.time := rfl
@[simp] theorem Dev.takeFree_hb (d : Dev) : d.takeFree.1.hb = d.hb := rfl
@[simp] theorem Dev.takeFree_gate (d : Dev) : d.takeFree.1.gate = d.gate := rfl
@[simp] theorem Dev.takeFree_clk (d : Dev) : d.takeFree.1.clk = d.clk := rfl
@[simp] theorem Dev.takeFree_sup (d : Dev) : d.takeFree.1.sup = d.sup := rfl
@[simp] theorem Dev.takeFree_boot (d : Dev) : d.takeFree.1.boot = d.boot := rfl
@[simp] theorem Dev.takeFree_pair (d : Dev) : d.takeFree.1.pair = d.pair := rfl
@[simp] theorem Dev.takeFree_sun (d : Dev) : d.takeFree.1.sun = d.sun := rfl
@[simp] theorem Dev.takeFree_fired (d : Dev) : d.takeFree.1.fired = d.fired := rfl
@[simp] theorem Dev.takeFree_clamp (d : Dev) : d.takeFree.1.clamp = d.clamp := rfl
@[simp] theorem Dev.takeFree_clockLoss (d : Dev) : d.takeFree.1.clockLoss = d.clockLoss := rfl
@[simp] theorem Dev.takeFree_m1024 (d : Dev) : d.takeFree.1.m1024 = d.m1024 := rfl
@[simp] theorem Dev.takeFree_clock (d : Dev) : d.takeFree.1.clock = d.clock := rfl
@[simp] theorem Dev.takeFree_steward (d : Dev) : d.takeFree.1.steward = d.steward := rfl
@[simp] theorem Dev.takeFree_acceptIx (d : Dev) : d.takeFree.1.acceptIx = d.acceptIx := rfl
@[simp] theorem Dev.takeFree_outbox (d : Dev) : d.takeFree.1.outbox = d.outbox := rfl
@[simp] theorem Dev.takeFree_freeIx (d : Dev) : d.takeFree.1.freeIx = d.freeIx + 1 := rfl
@[simp] theorem Dev.takeFree_snd (d : Dev) : d.takeFree.2 = d.freeIx := rfl

/-! ### What an update's own field reads as -/

@[simp] theorem Dev.emit_outbox (d : Dev) (o : Output) : (d.emit o).outbox = d.outbox ++ [o] := rfl
@[simp] theorem Dev.fire_fired (d : Dev) (t c : Nat) : (d.fire t c).fired = d.fired ++ [(t, BitVec.ofNat 32 c)] := rfl
@[simp] theorem Dev.updGate_gate (d : Dev) (f : Gate → Gate) : (d.updGate f).gate = f d.gate := rfl
theorem Dev.reg_setReg (d : Dev) (off o : Nat) (v : Word32) : (d.setReg off v).reg o = if o = off then v else d.reg o := Tab.getD_setD ..
@[simp] theorem Dev.reg_setReg_self (d : Dev) (off : Nat) (v : Word32) : (d.setReg off v).reg off = v := by simp [Dev.reg_setReg]
theorem Dev.reg_setReg_ne (d : Dev) {off o : Nat} (v : Word32) (h : o ≠ off) : (d.setReg off v).reg o = d.reg o := by simp [Dev.reg_setReg, h]
theorem Dev.pav_setPav (d : Dev) (p q : Nat) (x : Pav) : (d.setPav p x).pav q = if q = p then x else d.pav q := Tab.getD_setD ..
@[simp] theorem Dev.pav_setPav_self (d : Dev) (p : Nat) (x : Pav) : (d.setPav p x).pav p = x := by simp [Dev.pav_setPav]
theorem Dev.blk_setBlk (d : Dev) (p q : Nat) (x : CisBlk) : (d.setBlk p x).blk q = if q = p then x else d.blk q := Tab.get_set ..
theorem Dev.queue_setQueue (d : Dev) (p q : Nat) (x : Queue) : (d.setQueue p x).queue q = if q = p then x else d.queue q := Tab.get_set ..
theorem Dev.allot_setAllot (d : Dev) (p q : Nat) (x : Allot) : (d.setAllot p x).allot q = if q = p then x else d.allot q := Tab.get_set ..
theorem Dev.port_setPort (d : Dev) (p q : Nat) (x : Port) : (d.setPort p x).port q = if q = p then x else d.port q := Tab.get_set ..
theorem Dev.chan_setChan (d : Dev) (p q : Nat) (x : Chan) : (d.setChan p x).chan q = if q = p then x else d.chan q := Tab.get_set ..
theorem Dev.zone_updZone (d : Dev) (p q : Nat) (f : Zone → Zone) : (d.updZone p f).zone q = if q = p then f (d.zone p) else d.zone q := Tab.get_set ..
theorem Dev.sensor_updSensor (d : Dev) (p q : Nat) (f : Sensor → Sensor) :
    (d.updSensor p f).sensor q = if q = p then f (d.sensor p) else d.sensor q := Tab.get_set ..

/-! ### Accessors of the other parts -/

@[simp] theorem Dev.setPav_reg_ (d : Dev) (p_ : Nat) (x_ : Pav) (off : Nat) : (d.setPav p_ x_).reg off = d.reg off := rfl
@[simp] theorem Dev.updPav_reg_ (d : Dev) (p_ : Nat) (f_ : Pav → Pav) (off : Nat) : (d.updPav p_ f_).reg off = d.reg off := rfl
@[simp] theorem Dev.setBlk_reg_ (d : Dev) (b_ : Nat) (x_ : CisBlk) (off : Nat) : (d.setBlk b_ x_).reg off = d.reg off := rfl
@[simp] theorem Dev.updBlk_reg_ (d : Dev) (b_ : Nat) (f_ : CisBlk → CisBlk) (off : Nat) : (d.updBlk b_ f_).reg off = d.reg off := rfl
@[simp] theorem Dev.setQueue_reg_ (d : Dev) (q_ : Nat) (x_ : Queue) (off : Nat) : (d.setQueue q_ x_).reg off = d.reg off := rfl
@[simp] theorem Dev.updQueue_reg_ (d : Dev) (q_ : Nat) (f_ : Queue → Queue) (off : Nat) : (d.updQueue q_ f_).reg off = d.reg off := rfl
@[simp] theorem Dev.setAllot_reg_ (d : Dev) (a_ : Nat) (x_ : Allot) (off : Nat) : (d.setAllot a_ x_).reg off = d.reg off := rfl
@[simp] theorem Dev.updAllot_reg_ (d : Dev) (a_ : Nat) (f_ : Allot → Allot) (off : Nat) : (d.updAllot a_ f_).reg off = d.reg off := rfl
@[simp] theorem Dev.setPort_reg_ (d : Dev) (p_ : Nat) (x_ : Port) (off : Nat) : (d.setPort p_ x_).reg off = d.reg off := rfl
@[simp] theorem Dev.updPort_reg_ (d : Dev) (p_ : Nat) (f_ : Port → Port) (off : Nat) : (d.updPort p_ f_).reg off = d.reg off := rfl
@[simp] theorem Dev.emit_reg_ (d : Dev) (o_ : Output) (off : Nat) : (d.emit o_).reg off = d.reg off := rfl
@[simp] theorem Dev.fire_reg_ (d : Dev) (t_ : Nat) (c_ : Nat) (off : Nat) : (d.fire t_ c_).reg off = d.reg off := rfl
@[simp] theorem Dev.updGate_reg_ (d : Dev) (f_ : Gate → Gate) (off : Nat) : (d.updGate f_).reg off = d.reg off := rfl
@[simp] theorem Dev.setChan_reg_ (d : Dev) (c_ : Nat) (x_ : Chan) (off : Nat) : (d.setChan c_ x_).reg off = d.reg off := rfl
@[simp] theorem Dev.updChan_reg_ (d : Dev) (c_ : Nat) (f_ : Chan → Chan) (off : Nat) : (d.updChan c_ f_).reg off = d.reg off := rfl
@[simp] theorem Dev.setMsix_reg_ (d : Dev) (v_ : Nat) (m_ : Msix) (off : Nat) : (d.setMsix v_ m_).reg off = d.reg off := rfl
@[simp] theorem Dev.updSensor_reg_ (d : Dev) (n_ : Nat) (f_ : Sensor → Sensor) (off : Nat) : (d.updSensor n_ f_).reg off = d.reg off := rfl
@[simp] theorem Dev.updZone_reg_ (d : Dev) (z_ : Nat) (f_ : Zone → Zone) (off : Nat) : (d.updZone z_ f_).reg off = d.reg off := rfl
@[simp] theorem Dev.updBoot_reg_ (d : Dev) (f_ : Start → Start) (off : Nat) : (d.updBoot f_).reg off = d.reg off := rfl
@[simp] theorem Dev.updClk_reg_ (d : Dev) (f_ : Clk → Clk) (off : Nat) : (d.updClk f_).reg off = d.reg off := rfl
@[simp] theorem Dev.updCan_reg_ (d : Dev) (t_ : Nat) (f_ : Can → Can) (off : Nat) : (d.updCan t_ f_).reg off = d.reg off := rfl
@[simp] theorem Dev.setReg_pav_ (d : Dev) (off_ : Nat) (v_ : Word32) (p : Nat) : (d.setReg off_ v_).pav p = d.pav p := rfl
@[simp] theorem Dev.setFld_pav_ (d : Dev) (off_ : Nat) (f_ : Fld) (v_ : Nat) (p : Nat) : (d.setFld off_ f_ v_).pav p = d.pav p := rfl
@[simp] theorem Dev.raise_pav_ (d : Dev) (off_ : Nat) (p : Nat) : (d.raise off_).pav p = d.pav p := Dev.setReg_pav_ ..
@[simp] theorem Dev.bump_pav_ (d : Dev) (off_ : Nat) (f_ : Fld) (n_ : Nat) (p : Nat) : (d.bump off_ f_ n_).pav p = d.pav p := rfl
@[simp] theorem Dev.setBlk_pav_ (d : Dev) (b_ : Nat) (x_ : CisBlk) (p : Nat) : (d.setBlk b_ x_).pav p = d.pav p := rfl
@[simp] theorem Dev.updBlk_pav_ (d : Dev) (b_ : Nat) (f_ : CisBlk → CisBlk) (p : Nat) : (d.updBlk b_ f_).pav p = d.pav p := rfl
@[simp] theorem Dev.setQueue_pav_ (d : Dev) (q_ : Nat) (x_ : Queue) (p : Nat) : (d.setQueue q_ x_).pav p = d.pav p := rfl
@[simp] theorem Dev.updQueue_pav_ (d : Dev) (q_ : Nat) (f_ : Queue → Queue) (p : Nat) : (d.updQueue q_ f_).pav p = d.pav p := rfl
@[simp] theorem Dev.setAllot_pav_ (d : Dev) (a_ : Nat) (x_ : Allot) (p : Nat) : (d.setAllot a_ x_).pav p = d.pav p := rfl
@[simp] theorem Dev.updAllot_pav_ (d : Dev) (a_ : Nat) (f_ : Allot → Allot) (p : Nat) : (d.updAllot a_ f_).pav p = d.pav p := rfl
@[simp] theorem Dev.setPort_pav_ (d : Dev) (p_ : Nat) (x_ : Port) (p : Nat) : (d.setPort p_ x_).pav p = d.pav p := rfl
@[simp] theorem Dev.updPort_pav_ (d : Dev) (p_ : Nat) (f_ : Port → Port) (p : Nat) : (d.updPort p_ f_).pav p = d.pav p := rfl
@[simp] theorem Dev.emit_pav_ (d : Dev) (o_ : Output) (p : Nat) : (d.emit o_).pav p = d.pav p := rfl
@[simp] theorem Dev.fire_pav_ (d : Dev) (t_ : Nat) (c_ : Nat) (p : Nat) : (d.fire t_ c_).pav p = d.pav p := rfl
@[simp] theorem Dev.updGate_pav_ (d : Dev) (f_ : Gate → Gate) (p : Nat) : (d.updGate f_).pav p = d.pav p := rfl
@[simp] theorem Dev.setChan_pav_ (d : Dev) (c_ : Nat) (x_ : Chan) (p : Nat) : (d.setChan c_ x_).pav p = d.pav p := rfl
@[simp] theorem Dev.updChan_pav_ (d : Dev) (c_ : Nat) (f_ : Chan → Chan) (p : Nat) : (d.updChan c_ f_).pav p = d.pav p := rfl
@[simp] theorem Dev.setMsix_pav_ (d : Dev) (v_ : Nat) (m_ : Msix) (p : Nat) : (d.setMsix v_ m_).pav p = d.pav p := rfl
@[simp] theorem Dev.updSensor_pav_ (d : Dev) (n_ : Nat) (f_ : Sensor → Sensor) (p : Nat) : (d.updSensor n_ f_).pav p = d.pav p := rfl
@[simp] theorem Dev.updZone_pav_ (d : Dev) (z_ : Nat) (f_ : Zone → Zone) (p : Nat) : (d.updZone z_ f_).pav p = d.pav p := rfl
@[simp] theorem Dev.updBoot_pav_ (d : Dev) (f_ : Start → Start) (p : Nat) : (d.updBoot f_).pav p = d.pav p := rfl
@[simp] theorem Dev.updClk_pav_ (d : Dev) (f_ : Clk → Clk) (p : Nat) : (d.updClk f_).pav p = d.pav p := rfl
@[simp] theorem Dev.updCan_pav_ (d : Dev) (t_ : Nat) (f_ : Can → Can) (p : Nat) : (d.updCan t_ f_).pav p = d.pav p := rfl
@[simp] theorem Dev.setReg_blk_ (d : Dev) (off_ : Nat) (v_ : Word32) (b : Nat) : (d.setReg off_ v_).blk b = d.blk b := rfl
@[simp] theorem Dev.setFld_blk_ (d : Dev) (off_ : Nat) (f_ : Fld) (v_ : Nat) (b : Nat) : (d.setFld off_ f_ v_).blk b = d.blk b := rfl
@[simp] theorem Dev.raise_blk_ (d : Dev) (off_ : Nat) (b : Nat) : (d.raise off_).blk b = d.blk b := Dev.setReg_blk_ ..
@[simp] theorem Dev.bump_blk_ (d : Dev) (off_ : Nat) (f_ : Fld) (n_ : Nat) (b : Nat) : (d.bump off_ f_ n_).blk b = d.blk b := rfl
@[simp] theorem Dev.setPav_blk_ (d : Dev) (p_ : Nat) (x_ : Pav) (b : Nat) : (d.setPav p_ x_).blk b = d.blk b := rfl
@[simp] theorem Dev.updPav_blk_ (d : Dev) (p_ : Nat) (f_ : Pav → Pav) (b : Nat) : (d.updPav p_ f_).blk b = d.blk b := rfl
@[simp] theorem Dev.setQueue_blk_ (d : Dev) (q_ : Nat) (x_ : Queue) (b : Nat) : (d.setQueue q_ x_).blk b = d.blk b := rfl
@[simp] theorem Dev.updQueue_blk_ (d : Dev) (q_ : Nat) (f_ : Queue → Queue) (b : Nat) : (d.updQueue q_ f_).blk b = d.blk b := rfl
@[simp] theorem Dev.setAllot_blk_ (d : Dev) (a_ : Nat) (x_ : Allot) (b : Nat) : (d.setAllot a_ x_).blk b = d.blk b := rfl
@[simp] theorem Dev.updAllot_blk_ (d : Dev) (a_ : Nat) (f_ : Allot → Allot) (b : Nat) : (d.updAllot a_ f_).blk b = d.blk b := rfl
@[simp] theorem Dev.setPort_blk_ (d : Dev) (p_ : Nat) (x_ : Port) (b : Nat) : (d.setPort p_ x_).blk b = d.blk b := rfl
@[simp] theorem Dev.updPort_blk_ (d : Dev) (p_ : Nat) (f_ : Port → Port) (b : Nat) : (d.updPort p_ f_).blk b = d.blk b := rfl
@[simp] theorem Dev.emit_blk_ (d : Dev) (o_ : Output) (b : Nat) : (d.emit o_).blk b = d.blk b := rfl
@[simp] theorem Dev.fire_blk_ (d : Dev) (t_ : Nat) (c_ : Nat) (b : Nat) : (d.fire t_ c_).blk b = d.blk b := rfl
@[simp] theorem Dev.updGate_blk_ (d : Dev) (f_ : Gate → Gate) (b : Nat) : (d.updGate f_).blk b = d.blk b := rfl
@[simp] theorem Dev.setChan_blk_ (d : Dev) (c_ : Nat) (x_ : Chan) (b : Nat) : (d.setChan c_ x_).blk b = d.blk b := rfl
@[simp] theorem Dev.updChan_blk_ (d : Dev) (c_ : Nat) (f_ : Chan → Chan) (b : Nat) : (d.updChan c_ f_).blk b = d.blk b := rfl
@[simp] theorem Dev.setMsix_blk_ (d : Dev) (v_ : Nat) (m_ : Msix) (b : Nat) : (d.setMsix v_ m_).blk b = d.blk b := rfl
@[simp] theorem Dev.updSensor_blk_ (d : Dev) (n_ : Nat) (f_ : Sensor → Sensor) (b : Nat) : (d.updSensor n_ f_).blk b = d.blk b := rfl
@[simp] theorem Dev.updZone_blk_ (d : Dev) (z_ : Nat) (f_ : Zone → Zone) (b : Nat) : (d.updZone z_ f_).blk b = d.blk b := rfl
@[simp] theorem Dev.updBoot_blk_ (d : Dev) (f_ : Start → Start) (b : Nat) : (d.updBoot f_).blk b = d.blk b := rfl
@[simp] theorem Dev.updClk_blk_ (d : Dev) (f_ : Clk → Clk) (b : Nat) : (d.updClk f_).blk b = d.blk b := rfl
@[simp] theorem Dev.updCan_blk_ (d : Dev) (t_ : Nat) (f_ : Can → Can) (b : Nat) : (d.updCan t_ f_).blk b = d.blk b := rfl
@[simp] theorem Dev.setReg_queue_ (d : Dev) (off_ : Nat) (v_ : Word32) (q : Nat) : (d.setReg off_ v_).queue q = d.queue q := rfl
@[simp] theorem Dev.setFld_queue_ (d : Dev) (off_ : Nat) (f_ : Fld) (v_ : Nat) (q : Nat) : (d.setFld off_ f_ v_).queue q = d.queue q := rfl
@[simp] theorem Dev.raise_queue_ (d : Dev) (off_ : Nat) (q : Nat) : (d.raise off_).queue q = d.queue q := Dev.setReg_queue_ ..
@[simp] theorem Dev.bump_queue_ (d : Dev) (off_ : Nat) (f_ : Fld) (n_ : Nat) (q : Nat) : (d.bump off_ f_ n_).queue q = d.queue q := rfl
@[simp] theorem Dev.setPav_queue_ (d : Dev) (p_ : Nat) (x_ : Pav) (q : Nat) : (d.setPav p_ x_).queue q = d.queue q := rfl
@[simp] theorem Dev.updPav_queue_ (d : Dev) (p_ : Nat) (f_ : Pav → Pav) (q : Nat) : (d.updPav p_ f_).queue q = d.queue q := rfl
@[simp] theorem Dev.setBlk_queue_ (d : Dev) (b_ : Nat) (x_ : CisBlk) (q : Nat) : (d.setBlk b_ x_).queue q = d.queue q := rfl
@[simp] theorem Dev.updBlk_queue_ (d : Dev) (b_ : Nat) (f_ : CisBlk → CisBlk) (q : Nat) : (d.updBlk b_ f_).queue q = d.queue q := rfl
@[simp] theorem Dev.setAllot_queue_ (d : Dev) (a_ : Nat) (x_ : Allot) (q : Nat) : (d.setAllot a_ x_).queue q = d.queue q := rfl
@[simp] theorem Dev.updAllot_queue_ (d : Dev) (a_ : Nat) (f_ : Allot → Allot) (q : Nat) : (d.updAllot a_ f_).queue q = d.queue q := rfl
@[simp] theorem Dev.setPort_queue_ (d : Dev) (p_ : Nat) (x_ : Port) (q : Nat) : (d.setPort p_ x_).queue q = d.queue q := rfl
@[simp] theorem Dev.updPort_queue_ (d : Dev) (p_ : Nat) (f_ : Port → Port) (q : Nat) : (d.updPort p_ f_).queue q = d.queue q := rfl
@[simp] theorem Dev.emit_queue_ (d : Dev) (o_ : Output) (q : Nat) : (d.emit o_).queue q = d.queue q := rfl
@[simp] theorem Dev.fire_queue_ (d : Dev) (t_ : Nat) (c_ : Nat) (q : Nat) : (d.fire t_ c_).queue q = d.queue q := rfl
@[simp] theorem Dev.updGate_queue_ (d : Dev) (f_ : Gate → Gate) (q : Nat) : (d.updGate f_).queue q = d.queue q := rfl
@[simp] theorem Dev.setChan_queue_ (d : Dev) (c_ : Nat) (x_ : Chan) (q : Nat) : (d.setChan c_ x_).queue q = d.queue q := rfl
@[simp] theorem Dev.updChan_queue_ (d : Dev) (c_ : Nat) (f_ : Chan → Chan) (q : Nat) : (d.updChan c_ f_).queue q = d.queue q := rfl
@[simp] theorem Dev.setMsix_queue_ (d : Dev) (v_ : Nat) (m_ : Msix) (q : Nat) : (d.setMsix v_ m_).queue q = d.queue q := rfl
@[simp] theorem Dev.updSensor_queue_ (d : Dev) (n_ : Nat) (f_ : Sensor → Sensor) (q : Nat) : (d.updSensor n_ f_).queue q = d.queue q := rfl
@[simp] theorem Dev.updZone_queue_ (d : Dev) (z_ : Nat) (f_ : Zone → Zone) (q : Nat) : (d.updZone z_ f_).queue q = d.queue q := rfl
@[simp] theorem Dev.updBoot_queue_ (d : Dev) (f_ : Start → Start) (q : Nat) : (d.updBoot f_).queue q = d.queue q := rfl
@[simp] theorem Dev.updClk_queue_ (d : Dev) (f_ : Clk → Clk) (q : Nat) : (d.updClk f_).queue q = d.queue q := rfl
@[simp] theorem Dev.updCan_queue_ (d : Dev) (t_ : Nat) (f_ : Can → Can) (q : Nat) : (d.updCan t_ f_).queue q = d.queue q := rfl
@[simp] theorem Dev.setReg_allot_ (d : Dev) (off_ : Nat) (v_ : Word32) (a : Nat) : (d.setReg off_ v_).allot a = d.allot a := rfl
@[simp] theorem Dev.setFld_allot_ (d : Dev) (off_ : Nat) (f_ : Fld) (v_ : Nat) (a : Nat) : (d.setFld off_ f_ v_).allot a = d.allot a := rfl
@[simp] theorem Dev.raise_allot_ (d : Dev) (off_ : Nat) (a : Nat) : (d.raise off_).allot a = d.allot a := Dev.setReg_allot_ ..
@[simp] theorem Dev.bump_allot_ (d : Dev) (off_ : Nat) (f_ : Fld) (n_ : Nat) (a : Nat) : (d.bump off_ f_ n_).allot a = d.allot a := rfl
@[simp] theorem Dev.setPav_allot_ (d : Dev) (p_ : Nat) (x_ : Pav) (a : Nat) : (d.setPav p_ x_).allot a = d.allot a := rfl
@[simp] theorem Dev.updPav_allot_ (d : Dev) (p_ : Nat) (f_ : Pav → Pav) (a : Nat) : (d.updPav p_ f_).allot a = d.allot a := rfl
@[simp] theorem Dev.setBlk_allot_ (d : Dev) (b_ : Nat) (x_ : CisBlk) (a : Nat) : (d.setBlk b_ x_).allot a = d.allot a := rfl
@[simp] theorem Dev.updBlk_allot_ (d : Dev) (b_ : Nat) (f_ : CisBlk → CisBlk) (a : Nat) : (d.updBlk b_ f_).allot a = d.allot a := rfl
@[simp] theorem Dev.setQueue_allot_ (d : Dev) (q_ : Nat) (x_ : Queue) (a : Nat) : (d.setQueue q_ x_).allot a = d.allot a := rfl
@[simp] theorem Dev.updQueue_allot_ (d : Dev) (q_ : Nat) (f_ : Queue → Queue) (a : Nat) : (d.updQueue q_ f_).allot a = d.allot a := rfl
@[simp] theorem Dev.setPort_allot_ (d : Dev) (p_ : Nat) (x_ : Port) (a : Nat) : (d.setPort p_ x_).allot a = d.allot a := rfl
@[simp] theorem Dev.updPort_allot_ (d : Dev) (p_ : Nat) (f_ : Port → Port) (a : Nat) : (d.updPort p_ f_).allot a = d.allot a := rfl
@[simp] theorem Dev.emit_allot_ (d : Dev) (o_ : Output) (a : Nat) : (d.emit o_).allot a = d.allot a := rfl
@[simp] theorem Dev.fire_allot_ (d : Dev) (t_ : Nat) (c_ : Nat) (a : Nat) : (d.fire t_ c_).allot a = d.allot a := rfl
@[simp] theorem Dev.updGate_allot_ (d : Dev) (f_ : Gate → Gate) (a : Nat) : (d.updGate f_).allot a = d.allot a := rfl
@[simp] theorem Dev.setChan_allot_ (d : Dev) (c_ : Nat) (x_ : Chan) (a : Nat) : (d.setChan c_ x_).allot a = d.allot a := rfl
@[simp] theorem Dev.updChan_allot_ (d : Dev) (c_ : Nat) (f_ : Chan → Chan) (a : Nat) : (d.updChan c_ f_).allot a = d.allot a := rfl
@[simp] theorem Dev.setMsix_allot_ (d : Dev) (v_ : Nat) (m_ : Msix) (a : Nat) : (d.setMsix v_ m_).allot a = d.allot a := rfl
@[simp] theorem Dev.updSensor_allot_ (d : Dev) (n_ : Nat) (f_ : Sensor → Sensor) (a : Nat) : (d.updSensor n_ f_).allot a = d.allot a := rfl
@[simp] theorem Dev.updZone_allot_ (d : Dev) (z_ : Nat) (f_ : Zone → Zone) (a : Nat) : (d.updZone z_ f_).allot a = d.allot a := rfl
@[simp] theorem Dev.updBoot_allot_ (d : Dev) (f_ : Start → Start) (a : Nat) : (d.updBoot f_).allot a = d.allot a := rfl
@[simp] theorem Dev.updClk_allot_ (d : Dev) (f_ : Clk → Clk) (a : Nat) : (d.updClk f_).allot a = d.allot a := rfl
@[simp] theorem Dev.updCan_allot_ (d : Dev) (t_ : Nat) (f_ : Can → Can) (a : Nat) : (d.updCan t_ f_).allot a = d.allot a := rfl
@[simp] theorem Dev.setReg_port_ (d : Dev) (off_ : Nat) (v_ : Word32) (p : Nat) : (d.setReg off_ v_).port p = d.port p := rfl
@[simp] theorem Dev.setFld_port_ (d : Dev) (off_ : Nat) (f_ : Fld) (v_ : Nat) (p : Nat) : (d.setFld off_ f_ v_).port p = d.port p := rfl
@[simp] theorem Dev.raise_port_ (d : Dev) (off_ : Nat) (p : Nat) : (d.raise off_).port p = d.port p := Dev.setReg_port_ ..
@[simp] theorem Dev.bump_port_ (d : Dev) (off_ : Nat) (f_ : Fld) (n_ : Nat) (p : Nat) : (d.bump off_ f_ n_).port p = d.port p := rfl
@[simp] theorem Dev.setPav_port_ (d : Dev) (p_ : Nat) (x_ : Pav) (p : Nat) : (d.setPav p_ x_).port p = d.port p := rfl
@[simp] theorem Dev.updPav_port_ (d : Dev) (p_ : Nat) (f_ : Pav → Pav) (p : Nat) : (d.updPav p_ f_).port p = d.port p := rfl
@[simp] theorem Dev.setBlk_port_ (d : Dev) (b_ : Nat) (x_ : CisBlk) (p : Nat) : (d.setBlk b_ x_).port p = d.port p := rfl
@[simp] theorem Dev.updBlk_port_ (d : Dev) (b_ : Nat) (f_ : CisBlk → CisBlk) (p : Nat) : (d.updBlk b_ f_).port p = d.port p := rfl
@[simp] theorem Dev.setQueue_port_ (d : Dev) (q_ : Nat) (x_ : Queue) (p : Nat) : (d.setQueue q_ x_).port p = d.port p := rfl
@[simp] theorem Dev.updQueue_port_ (d : Dev) (q_ : Nat) (f_ : Queue → Queue) (p : Nat) : (d.updQueue q_ f_).port p = d.port p := rfl
@[simp] theorem Dev.setAllot_port_ (d : Dev) (a_ : Nat) (x_ : Allot) (p : Nat) : (d.setAllot a_ x_).port p = d.port p := rfl
@[simp] theorem Dev.updAllot_port_ (d : Dev) (a_ : Nat) (f_ : Allot → Allot) (p : Nat) : (d.updAllot a_ f_).port p = d.port p := rfl
@[simp] theorem Dev.emit_port_ (d : Dev) (o_ : Output) (p : Nat) : (d.emit o_).port p = d.port p := rfl
@[simp] theorem Dev.fire_port_ (d : Dev) (t_ : Nat) (c_ : Nat) (p : Nat) : (d.fire t_ c_).port p = d.port p := rfl
@[simp] theorem Dev.updGate_port_ (d : Dev) (f_ : Gate → Gate) (p : Nat) : (d.updGate f_).port p = d.port p := rfl
@[simp] theorem Dev.setChan_port_ (d : Dev) (c_ : Nat) (x_ : Chan) (p : Nat) : (d.setChan c_ x_).port p = d.port p := rfl
@[simp] theorem Dev.updChan_port_ (d : Dev) (c_ : Nat) (f_ : Chan → Chan) (p : Nat) : (d.updChan c_ f_).port p = d.port p := rfl
@[simp] theorem Dev.setMsix_port_ (d : Dev) (v_ : Nat) (m_ : Msix) (p : Nat) : (d.setMsix v_ m_).port p = d.port p := rfl
@[simp] theorem Dev.updSensor_port_ (d : Dev) (n_ : Nat) (f_ : Sensor → Sensor) (p : Nat) : (d.updSensor n_ f_).port p = d.port p := rfl
@[simp] theorem Dev.updZone_port_ (d : Dev) (z_ : Nat) (f_ : Zone → Zone) (p : Nat) : (d.updZone z_ f_).port p = d.port p := rfl
@[simp] theorem Dev.updBoot_port_ (d : Dev) (f_ : Start → Start) (p : Nat) : (d.updBoot f_).port p = d.port p := rfl
@[simp] theorem Dev.updClk_port_ (d : Dev) (f_ : Clk → Clk) (p : Nat) : (d.updClk f_).port p = d.port p := rfl
@[simp] theorem Dev.updCan_port_ (d : Dev) (t_ : Nat) (f_ : Can → Can) (p : Nat) : (d.updCan t_ f_).port p = d.port p := rfl
@[simp] theorem Dev.setReg_chan_ (d : Dev) (off_ : Nat) (v_ : Word32) (c : Nat) : (d.setReg off_ v_).chan c = d.chan c := rfl
@[simp] theorem Dev.setFld_chan_ (d : Dev) (off_ : Nat) (f_ : Fld) (v_ : Nat) (c : Nat) : (d.setFld off_ f_ v_).chan c = d.chan c := rfl
@[simp] theorem Dev.raise_chan_ (d : Dev) (off_ : Nat) (c : Nat) : (d.raise off_).chan c = d.chan c := Dev.setReg_chan_ ..
@[simp] theorem Dev.bump_chan_ (d : Dev) (off_ : Nat) (f_ : Fld) (n_ : Nat) (c : Nat) : (d.bump off_ f_ n_).chan c = d.chan c := rfl
@[simp] theorem Dev.setPav_chan_ (d : Dev) (p_ : Nat) (x_ : Pav) (c : Nat) : (d.setPav p_ x_).chan c = d.chan c := rfl
@[simp] theorem Dev.updPav_chan_ (d : Dev) (p_ : Nat) (f_ : Pav → Pav) (c : Nat) : (d.updPav p_ f_).chan c = d.chan c := rfl
@[simp] theorem Dev.setBlk_chan_ (d : Dev) (b_ : Nat) (x_ : CisBlk) (c : Nat) : (d.setBlk b_ x_).chan c = d.chan c := rfl
@[simp] theorem Dev.updBlk_chan_ (d : Dev) (b_ : Nat) (f_ : CisBlk → CisBlk) (c : Nat) : (d.updBlk b_ f_).chan c = d.chan c := rfl
@[simp] theorem Dev.setQueue_chan_ (d : Dev) (q_ : Nat) (x_ : Queue) (c : Nat) : (d.setQueue q_ x_).chan c = d.chan c := rfl
@[simp] theorem Dev.updQueue_chan_ (d : Dev) (q_ : Nat) (f_ : Queue → Queue) (c : Nat) : (d.updQueue q_ f_).chan c = d.chan c := rfl
@[simp] theorem Dev.setAllot_chan_ (d : Dev) (a_ : Nat) (x_ : Allot) (c : Nat) : (d.setAllot a_ x_).chan c = d.chan c := rfl
@[simp] theorem Dev.updAllot_chan_ (d : Dev) (a_ : Nat) (f_ : Allot → Allot) (c : Nat) : (d.updAllot a_ f_).chan c = d.chan c := rfl
@[simp] theorem Dev.setPort_chan_ (d : Dev) (p_ : Nat) (x_ : Port) (c : Nat) : (d.setPort p_ x_).chan c = d.chan c := rfl
@[simp] theorem Dev.updPort_chan_ (d : Dev) (p_ : Nat) (f_ : Port → Port) (c : Nat) : (d.updPort p_ f_).chan c = d.chan c := rfl
@[simp] theorem Dev.emit_chan_ (d : Dev) (o_ : Output) (c : Nat) : (d.emit o_).chan c = d.chan c := rfl
@[simp] theorem Dev.fire_chan_ (d : Dev) (t_ : Nat) (c_ : Nat) (c : Nat) : (d.fire t_ c_).chan c = d.chan c := rfl
@[simp] theorem Dev.updGate_chan_ (d : Dev) (f_ : Gate → Gate) (c : Nat) : (d.updGate f_).chan c = d.chan c := rfl
@[simp] theorem Dev.setMsix_chan_ (d : Dev) (v_ : Nat) (m_ : Msix) (c : Nat) : (d.setMsix v_ m_).chan c = d.chan c := rfl
@[simp] theorem Dev.updSensor_chan_ (d : Dev) (n_ : Nat) (f_ : Sensor → Sensor) (c : Nat) : (d.updSensor n_ f_).chan c = d.chan c := rfl
@[simp] theorem Dev.updZone_chan_ (d : Dev) (z_ : Nat) (f_ : Zone → Zone) (c : Nat) : (d.updZone z_ f_).chan c = d.chan c := rfl
@[simp] theorem Dev.updBoot_chan_ (d : Dev) (f_ : Start → Start) (c : Nat) : (d.updBoot f_).chan c = d.chan c := rfl
@[simp] theorem Dev.updClk_chan_ (d : Dev) (f_ : Clk → Clk) (c : Nat) : (d.updClk f_).chan c = d.chan c := rfl
@[simp] theorem Dev.updCan_chan_ (d : Dev) (t_ : Nat) (f_ : Can → Can) (c : Nat) : (d.updCan t_ f_).chan c = d.chan c := rfl
@[simp] theorem Dev.setReg_isGated_ (d : Dev) (off_ : Nat) (v_ : Word32) (g : Nat) : (d.setReg off_ v_).isGated g = d.isGated g := rfl
@[simp] theorem Dev.setFld_isGated_ (d : Dev) (off_ : Nat) (f_ : Fld) (v_ : Nat) (g : Nat) : (d.setFld off_ f_ v_).isGated g = d.isGated g := rfl
@[simp] theorem Dev.raise_isGated_ (d : Dev) (off_ : Nat) (g : Nat) : (d.raise off_).isGated g = d.isGated g := Dev.setReg_isGated_ ..
@[simp] theorem Dev.bump_isGated_ (d : Dev) (off_ : Nat) (f_ : Fld) (n_ : Nat) (g : Nat) : (d.bump off_ f_ n_).isGated g = d.isGated g := rfl
@[simp] theorem Dev.setPav_isGated_ (d : Dev) (p_ : Nat) (x_ : Pav) (g : Nat) : (d.setPav p_ x_).isGated g = d.isGated g := rfl
@[simp] theorem Dev.updPav_isGated_ (d : Dev) (p_ : Nat) (f_ : Pav → Pav) (g : Nat) : (d.updPav p_ f_).isGated g = d.isGated g := rfl
@[simp] theorem Dev.setBlk_isGated_ (d : Dev) (b_ : Nat) (x_ : CisBlk) (g : Nat) : (d.setBlk b_ x_).isGated g = d.isGated g := rfl
@[simp] theorem Dev.updBlk_isGated_ (d : Dev) (b_ : Nat) (f_ : CisBlk → CisBlk) (g : Nat) : (d.updBlk b_ f_).isGated g = d.isGated g := rfl
@[simp] theorem Dev.setQueue_isGated_ (d : Dev) (q_ : Nat) (x_ : Queue) (g : Nat) : (d.setQueue q_ x_).isGated g = d.isGated g := rfl
@[simp] theorem Dev.updQueue_isGated_ (d : Dev) (q_ : Nat) (f_ : Queue → Queue) (g : Nat) : (d.updQueue q_ f_).isGated g = d.isGated g := rfl
@[simp] theorem Dev.setAllot_isGated_ (d : Dev) (a_ : Nat) (x_ : Allot) (g : Nat) : (d.setAllot a_ x_).isGated g = d.isGated g := rfl
@[simp] theorem Dev.updAllot_isGated_ (d : Dev) (a_ : Nat) (f_ : Allot → Allot) (g : Nat) : (d.updAllot a_ f_).isGated g = d.isGated g := rfl
@[simp] theorem Dev.setPort_isGated_ (d : Dev) (p_ : Nat) (x_ : Port) (g : Nat) : (d.setPort p_ x_).isGated g = d.isGated g := rfl
@[simp] theorem Dev.updPort_isGated_ (d : Dev) (p_ : Nat) (f_ : Port → Port) (g : Nat) : (d.updPort p_ f_).isGated g = d.isGated g := rfl
@[simp] theorem Dev.emit_isGated_ (d : Dev) (o_ : Output) (g : Nat) : (d.emit o_).isGated g = d.isGated g := rfl
@[simp] theorem Dev.fire_isGated_ (d : Dev) (t_ : Nat) (c_ : Nat) (g : Nat) : (d.fire t_ c_).isGated g = d.isGated g := rfl
@[simp] theorem Dev.updGate_isGated_ (d : Dev) (f_ : Gate → Gate) (g : Nat) : (d.updGate f_).isGated g = d.isGated g := rfl
@[simp] theorem Dev.setChan_isGated_ (d : Dev) (c_ : Nat) (x_ : Chan) (g : Nat) : (d.setChan c_ x_).isGated g = d.isGated g := rfl
@[simp] theorem Dev.updChan_isGated_ (d : Dev) (c_ : Nat) (f_ : Chan → Chan) (g : Nat) : (d.updChan c_ f_).isGated g = d.isGated g := rfl
@[simp] theorem Dev.setMsix_isGated_ (d : Dev) (v_ : Nat) (m_ : Msix) (g : Nat) : (d.setMsix v_ m_).isGated g = d.isGated g := rfl
@[simp] theorem Dev.updSensor_isGated_ (d : Dev) (n_ : Nat) (f_ : Sensor → Sensor) (g : Nat) : (d.updSensor n_ f_).isGated g = d.isGated g := rfl
@[simp] theorem Dev.updZone_isGated_ (d : Dev) (z_ : Nat) (f_ : Zone → Zone) (g : Nat) : (d.updZone z_ f_).isGated g = d.isGated g := rfl
@[simp] theorem Dev.updBoot_isGated_ (d : Dev) (f_ : Start → Start) (g : Nat) : (d.updBoot f_).isGated g = d.isGated g := rfl
@[simp] theorem Dev.updCan_isGated_ (d : Dev) (t_ : Nat) (f_ : Can → Can) (g : Nat) : (d.updCan t_ f_).isGated g = d.isGated g := rfl
@[simp] theorem Dev.setReg_msix_ (d : Dev) (off_ : Nat) (v_ : Word32) (v : Nat) : (d.setReg off_ v_).msix v = d.msix v := rfl
@[simp] theorem Dev.setFld_msix_ (d : Dev) (off_ : Nat) (f_ : Fld) (v_ : Nat) (v : Nat) : (d.setFld off_ f_ v_).msix v = d.msix v := rfl
@[simp] theorem Dev.raise_msix_ (d : Dev) (off_ : Nat) (v : Nat) : (d.raise off_).msix v = d.msix v := Dev.setReg_msix_ ..
@[simp] theorem Dev.bump_msix_ (d : Dev) (off_ : Nat) (f_ : Fld) (n_ : Nat) (v : Nat) : (d.bump off_ f_ n_).msix v = d.msix v := rfl
@[simp] theorem Dev.setPav_msix_ (d : Dev) (p_ : Nat) (x_ : Pav) (v : Nat) : (d.setPav p_ x_).msix v = d.msix v := rfl
@[simp] theorem Dev.updPav_msix_ (d : Dev) (p_ : Nat) (f_ : Pav → Pav) (v : Nat) : (d.updPav p_ f_).msix v = d.msix v := rfl
@[simp] theorem Dev.setBlk_msix_ (d : Dev) (b_ : Nat) (x_ : CisBlk) (v : Nat) : (d.setBlk b_ x_).msix v = d.msix v := rfl
@[simp] theorem Dev.updBlk_msix_ (d : Dev) (b_ : Nat) (f_ : CisBlk → CisBlk) (v : Nat) : (d.updBlk b_ f_).msix v = d.msix v := rfl
@[simp] theorem Dev.setQueue_msix_ (d : Dev) (q_ : Nat) (x_ : Queue) (v : Nat) : (d.setQueue q_ x_).msix v = d.msix v := rfl
@[simp] theorem Dev.updQueue_msix_ (d : Dev) (q_ : Nat) (f_ : Queue → Queue) (v : Nat) : (d.updQueue q_ f_).msix v = d.msix v := rfl
@[simp] theorem Dev.setAllot_msix_ (d : Dev) (a_ : Nat) (x_ : Allot) (v : Nat) : (d.setAllot a_ x_).msix v = d.msix v := rfl
@[simp] theorem Dev.updAllot_msix_ (d : Dev) (a_ : Nat) (f_ : Allot → Allot) (v : Nat) : (d.updAllot a_ f_).msix v = d.msix v := rfl
@[simp] theorem Dev.setPort_msix_ (d : Dev) (p_ : Nat) (x_ : Port) (v : Nat) : (d.setPort p_ x_).msix v = d.msix v := rfl
@[simp] theorem Dev.updPort_msix_ (d : Dev) (p_ : Nat) (f_ : Port → Port) (v : Nat) : (d.updPort p_ f_).msix v = d.msix v := rfl
@[simp] theorem Dev.emit_msix_ (d : Dev) (o_ : Output) (v : Nat) : (d.emit o_).msix v = d.msix v := rfl
@[simp] theorem Dev.fire_msix_ (d : Dev) (t_ : Nat) (c_ : Nat) (v : Nat) : (d.fire t_ c_).msix v = d.msix v := rfl
@[simp] theorem Dev.updGate_msix_ (d : Dev) (f_ : Gate → Gate) (v : Nat) : (d.updGate f_).msix v = d.msix v := rfl
@[simp] theorem Dev.setChan_msix_ (d : Dev) (c_ : Nat) (x_ : Chan) (v : Nat) : (d.setChan c_ x_).msix v = d.msix v := rfl
@[simp] theorem Dev.updChan_msix_ (d : Dev) (c_ : Nat) (f_ : Chan → Chan) (v : Nat) : (d.updChan c_ f_).msix v = d.msix v := rfl
@[simp] theorem Dev.updSensor_msix_ (d : Dev) (n_ : Nat) (f_ : Sensor → Sensor) (v : Nat) : (d.updSensor n_ f_).msix v = d.msix v := rfl
@[simp] theorem Dev.updZone_msix_ (d : Dev) (z_ : Nat) (f_ : Zone → Zone) (v : Nat) : (d.updZone z_ f_).msix v = d.msix v := rfl
@[simp] theorem Dev.updBoot_msix_ (d : Dev) (f_ : Start → Start) (v : Nat) : (d.updBoot f_).msix v = d.msix v := rfl
@[simp] theorem Dev.updClk_msix_ (d : Dev) (f_ : Clk → Clk) (v : Nat) : (d.updClk f_).msix v = d.msix v := rfl
@[simp] theorem Dev.updCan_msix_ (d : Dev) (t_ : Nat) (f_ : Can → Can) (v : Nat) : (d.updCan t_ f_).msix v = d.msix v := rfl

/-! ### Updates of a Pavilion -/

@[simp] theorem Pav.setS_allot (x : Pav) (i : BitVec 5) (v : Word64) : (x.setS i v).allot = x.allot := by unfold Pav.setS; split <;> rfl
@[simp] theorem Pav.setS_logical (x : Pav) (i : BitVec 5) (v : Word64) : (x.setS i v).logical = x.logical := by unfold Pav.setS; split <;> rfl
@[simp] theorem Pav.setS_spare (x : Pav) (i : BitVec 5) (v : Word64) : (x.setS i v).spare = x.spare := by unfold Pav.setS; split <;> rfl
@[simp] theorem Pav.setS_withdrawn (x : Pav) (i : BitVec 5) (v : Word64) : (x.setS i v).withdrawn = x.withdrawn := by unfold Pav.setS; split <;> rfl
@[simp] theorem Pav.setS_clearing (x : Pav) (i : BitVec 5) (v : Word64) : (x.setS i v).clearing = x.clearing := by unfold Pav.setS; split <;> rfl
@[simp] theorem Pav.setS_share (x : Pav) (i : BitVec 5) (v : Word64) : (x.setS i v).share = x.share := by unfold Pav.setS; split <;> rfl
@[simp] theorem Pav.setS_faulted (x : Pav) (i : BitVec 5) (v : Word64) : (x.setS i v).faulted = x.faulted := by unfold Pav.setS; split <;> rfl
@[simp] theorem Pav.setS_stopped (x : Pav) (i : BitVec 5) (v : Word64) : (x.setS i v).stopped = x.stopped := by unfold Pav.setS; split <;> rfl
@[simp] theorem Pav.setS_halted (x : Pav) (i : BitVec 5) (v : Word64) : (x.setS i v).halted = x.halted := by unfold Pav.setS; split <;> rfl
@[simp] theorem Pav.setS_pc (x : Pav) (i : BitVec 5) (v : Word64) : (x.setS i v).pc = x.pc := by unfold Pav.setS; split <;> rfl
@[simp] theorem Pav.setS_d (x : Pav) (i : BitVec 5) (v : Word64) : (x.setS i v).d = x.d := by unfold Pav.setS; split <;> rfl
@[simp] theorem Pav.setS_v (x : Pav) (i : BitVec 5) (v : Word64) : (x.setS i v).v = x.v := by unfold Pav.setS; split <;> rfl
@[simp] theorem Pav.setS_ibase (x : Pav) (i : BitVec 5) (v : Word64) : (x.setS i v).ibase = x.ibase := by unfold Pav.setS; split <;> rfl
@[simp] theorem Pav.setS_slot0 (x : Pav) (i : BitVec 5) (v : Word64) : (x.setS i v).slot0 = x.slot0 := by unfold Pav.setS; split <;> rfl
@[simp] theorem Pav.setS_slot1 (x : Pav) (i : BitVec 5) (v : Word64) : (x.setS i v).slot1 = x.slot1 := by unfold Pav.setS; split <;> rfl
@[simp] theorem Pav.setS_ev (x : Pav) (i : BitVec 5) (v : Word64) : (x.setS i v).ev = x.ev := by unfold Pav.setS; split <;> rfl
@[simp] theorem Pav.setS_flags (x : Pav) (i : BitVec 5) (v : Word64) : (x.setS i v).flags = x.flags := by unfold Pav.setS; split <;> rfl
@[simp] theorem Pav.setS_bed (x : Pav) (i : BitVec 5) (v : Word64) : (x.setS i v).bed = x.bed := by unfold Pav.setS; split <;> rfl
@[simp] theorem Pav.setS_block (x : Pav) (i : BitVec 5) (v : Word64) : (x.setS i v).block = x.block := by unfold Pav.setS; split <;> rfl
@[simp] theorem Pav.setS_xfers (x : Pav) (i : BitVec 5) (v : Word64) : (x.setS i v).xfers = x.xfers := by unfold Pav.setS; split <;> rfl
@[simp] theorem Pav.setS_nextId (x : Pav) (i : BitVec 5) (v : Word64) : (x.setS i v).nextId = x.nextId := by unfold Pav.setS; split <;> rfl
@[simp] theorem Pav.setS_srcs (x : Pav) (i : BitVec 5) (v : Word64) : (x.setS i v).srcs = x.srcs := by unfold Pav.setS; split <;> rfl
@[simp] theorem Pav.setS_dsts (x : Pav) (i : BitVec 5) (v : Word64) : (x.setS i v).dsts = x.dsts := by unfold Pav.setS; split <;> rfl
@[simp] theorem Pav.setS_pend (x : Pav) (i : BitVec 5) (v : Word64) : (x.setS i v).pend = x.pend := by unfold Pav.setS; split <;> rfl
@[simp] theorem Pav.setS_lastGroup (x : Pav) (i : BitVec 5) (v : Word64) : (x.setS i v).lastGroup = x.lastGroup := by unfold Pav.setS; split <;> rfl
@[simp] theorem Pav.setS_rxSame (x : Pav) (i : BitVec 5) (v : Word64) : (x.setS i v).rxSame = x.rxSame := by unfold Pav.setS; split <;> rfl
@[simp] theorem Pav.setS_rxOther (x : Pav) (i : BitVec 5) (v : Word64) : (x.setS i v).rxOther = x.rxOther := by unfold Pav.setS; split <;> rfl
@[simp] theorem Pav.setS_deferred (x : Pav) (i : BitVec 5) (v : Word64) : (x.setS i v).deferred = x.deferred := by unfold Pav.setS; split <;> rfl
@[simp] theorem Pav.setS_phaseHint (x : Pav) (i : BitVec 5) (v : Word64) : (x.setS i v).phaseHint = x.phaseHint := by unfold Pav.setS; split <;> rfl
@[simp] theorem Pav.setS_descHint (x : Pav) (i : BitVec 5) (v : Word64) : (x.setS i v).descHint = x.descHint := by unfold Pav.setS; split <;> rfl
@[simp] theorem Pav.setS_runUs (x : Pav) (i : BitVec 5) (v : Word64) : (x.setS i v).runUs = x.runUs := by unfold Pav.setS; split <;> rfl
@[simp] theorem Pav.setS_settling (x : Pav) (i : BitVec 5) (v : Word64) : (x.setS i v).settling = x.settling := by unfold Pav.setS; split <;> rfl
@[simp] theorem Pav.setS_freq (x : Pav) (i : BitVec 5) (v : Word64) : (x.setS i v).freq = x.freq := by unfold Pav.setS; split <;> rfl
@[simp] theorem Pav.setS_rail (x : Pav) (i : BitVec 5) (v : Word64) : (x.setS i v).rail = x.rail := by unfold Pav.setS; split <;> rfl
@[simp] theorem Pav.setS_lease (x : Pav) (i : BitVec 5) (v : Word64) : (x.setS i v).lease = x.lease := by unfold Pav.setS; split <;> rfl
@[simp] theorem Pav.setS_leaseEnd (x : Pav) (i : BitVec 5) (v : Word64) : (x.setS i v).leaseEnd = x.leaseEnd := by unfold Pav.setS; split <;> rfl
@[simp] theorem Pav.setS_newLease (x : Pav) (i : BitVec 5) (v : Word64) : (x.setS i v).newLease = x.newLease := by unfold Pav.setS; split <;> rfl
@[simp] theorem Pav.setDreg_allot (x : Pav) (i : BitVec 4) (v : BedDesc) : (x.setDreg i v).allot = x.allot := rfl
@[simp] theorem Pav.setDreg_logical (x : Pav) (i : BitVec 4) (v : BedDesc) : (x.setDreg i v).logical = x.logical := rfl
@[simp] theorem Pav.setDreg_spare (x : Pav) (i : BitVec 4) (v : BedDesc) : (x.setDreg i v).spare = x.spare := rfl
@[simp] theorem Pav.setDreg_withdrawn (x : Pav) (i : BitVec 4) (v : BedDesc) : (x.setDreg i v).withdrawn = x.withdrawn := rfl
@[simp] theorem Pav.setDreg_clearing (x : Pav) (i : BitVec 4) (v : BedDesc) : (x.setDreg i v).clearing = x.clearing := rfl
@[simp] theorem Pav.setDreg_share (x : Pav) (i : BitVec 4) (v : BedDesc) : (x.setDreg i v).share = x.share := rfl
@[simp] theorem Pav.setDreg_faulted (x : Pav) (i : BitVec 4) (v : BedDesc) : (x.setDreg i v).faulted = x.faulted := rfl
@[simp] theorem Pav.setDreg_stopped (x : Pav) (i : BitVec 4) (v : BedDesc) : (x.setDreg i v).stopped = x.stopped := rfl
@[simp] theorem Pav.setDreg_halted (x : Pav) (i : BitVec 4) (v : BedDesc) : (x.setDreg i v).halted = x.halted := rfl
@[simp] theorem Pav.setDreg_pc (x : Pav) (i : BitVec 4) (v : BedDesc) : (x.setDreg i v).pc = x.pc := rfl
@[simp] theorem Pav.setDreg_s (x : Pav) (i : BitVec 4) (v : BedDesc) : (x.setDreg i v).s = x.s := rfl
@[simp] theorem Pav.setDreg_v (x : Pav) (i : BitVec 4) (v : BedDesc) : (x.setDreg i v).v = x.v := rfl
@[simp] theorem Pav.setDreg_ibase (x : Pav) (i : BitVec 4) (v : BedDesc) : (x.setDreg i v).ibase = x.ibase := rfl
@[simp] theorem Pav.setDreg_slot0 (x : Pav) (i : BitVec 4) (v : BedDesc) : (x.setDreg i v).slot0 = x.slot0 := rfl
@[simp] theorem Pav.setDreg_slot1 (x : Pav) (i : BitVec 4) (v : BedDesc) : (x.setDreg i v).slot1 = x.slot1 := rfl
@[simp] theorem Pav.setDreg_ev (x : Pav) (i : BitVec 4) (v : BedDesc) : (x.setDreg i v).ev = x.ev := rfl
@[simp] theorem Pav.setDreg_flags (x : Pav) (i : BitVec 4) (v : BedDesc) : (x.setDreg i v).flags = x.flags := rfl
@[simp] theorem Pav.setDreg_bed (x : Pav) (i : BitVec 4) (v : BedDesc) : (x.setDreg i v).bed = x.bed := rfl
@[simp] theorem Pav.setDreg_block (x : Pav) (i : BitVec 4) (v : BedDesc) : (x.setDreg i v).block = x.block := rfl
@[simp] theorem Pav.setDreg_xfers (x : Pav) (i : BitVec 4) (v : BedDesc) : (x.setDreg i v).xfers = x.xfers := rfl
@[simp] theorem Pav.setDreg_nextId (x : Pav) (i : BitVec 4) (v : BedDesc) : (x.setDreg i v).nextId = x.nextId := rfl
@[simp] theorem Pav.setDreg_srcs (x : Pav) (i : BitVec 4) (v : BedDesc) : (x.setDreg i v).srcs = x.srcs := rfl
@[simp] theorem Pav.setDreg_dsts (x : Pav) (i : BitVec 4) (v : BedDesc) : (x.setDreg i v).dsts = x.dsts := rfl
@[simp] theorem Pav.setDreg_pend (x : Pav) (i : BitVec 4) (v : BedDesc) : (x.setDreg i v).pend = x.pend := rfl
@[simp] theorem Pav.setDreg_lastGroup (x : Pav) (i : BitVec 4) (v : BedDesc) : (x.setDreg i v).lastGroup = x.lastGroup := rfl
@[simp] theorem Pav.setDreg_rxSame (x : Pav) (i : BitVec 4) (v : BedDesc) : (x.setDreg i v).rxSame = x.rxSame := rfl
@[simp] theorem Pav.setDreg_rxOther (x : Pav) (i : BitVec 4) (v : BedDesc) : (x.setDreg i v).rxOther = x.rxOther := rfl
@[simp] theorem Pav.setDreg_deferred (x : Pav) (i : BitVec 4) (v : BedDesc) : (x.setDreg i v).deferred = x.deferred := rfl
@[simp] theorem Pav.setDreg_phaseHint (x : Pav) (i : BitVec 4) (v : BedDesc) : (x.setDreg i v).phaseHint = x.phaseHint := rfl
@[simp] theorem Pav.setDreg_descHint (x : Pav) (i : BitVec 4) (v : BedDesc) : (x.setDreg i v).descHint = x.descHint := rfl
@[simp] theorem Pav.setDreg_runUs (x : Pav) (i : BitVec 4) (v : BedDesc) : (x.setDreg i v).runUs = x.runUs := rfl
@[simp] theorem Pav.setDreg_settling (x : Pav) (i : BitVec 4) (v : BedDesc) : (x.setDreg i v).settling = x.settling := rfl
@[simp] theorem Pav.setDreg_freq (x : Pav) (i : BitVec 4) (v : BedDesc) : (x.setDreg i v).freq = x.freq := rfl
@[simp] theorem Pav.setDreg_rail (x : Pav) (i : BitVec 4) (v : BedDesc) : (x.setDreg i v).rail = x.rail := rfl
@[simp] theorem Pav.setDreg_lease (x : Pav) (i : BitVec 4) (v : BedDesc) : (x.setDreg i v).lease = x.lease := rfl
@[simp] theorem Pav.setDreg_leaseEnd (x : Pav) (i : BitVec 4) (v : BedDesc) : (x.setDreg i v).leaseEnd = x.leaseEnd := rfl
@[simp] theorem Pav.setDreg_newLease (x : Pav) (i : BitVec 4) (v : BedDesc) : (x.setDreg i v).newLease = x.newLease := rfl
@[simp] theorem Pav.setLane_allot (x : Pav) (r : BitVec 4) (i : Nat) (v : Nat) : (x.setLane r i v).allot = x.allot := rfl
@[simp] theorem Pav.setLane_logical (x : Pav) (r : BitVec 4) (i : Nat) (v : Nat) : (x.setLane r i v).logical = x.logical := rfl
@[simp] theorem Pav.setLane_spare (x : Pav) (r : BitVec 4) (i : Nat) (v : Nat) : (x.setLane r i v).spare = x.spare := rfl
@[simp] theorem Pav.setLane_withdrawn (x : Pav) (r : BitVec 4) (i : Nat) (v : Nat) : (x.setLane r i v).withdrawn = x.withdrawn := rfl
@[simp] theorem Pav.setLane_clearing (x : Pav) (r : BitVec 4) (i : Nat) (v : Nat) : (x.setLane r i v).clearing = x.clearing := rfl
@[simp] theorem Pav.setLane_share (x : Pav) (r : BitVec 4) (i : Nat) (v : Nat) : (x.setLane r i v).share = x.share := rfl
@[simp] theorem Pav.setLane_faulted (x : Pav) (r : BitVec 4) (i : Nat) (v : Nat) : (x.setLane r i v).faulted = x.faulted := rfl
@[simp] theorem Pav.setLane_stopped (x : Pav) (r : BitVec 4) (i : Nat) (v : Nat) : (x.setLane r i v).stopped = x.stopped := rfl
@[simp] theorem Pav.setLane_halted (x : Pav) (r : BitVec 4) (i : Nat) (v : Nat) : (x.setLane r i v).halted = x.halted := rfl
@[simp] theorem Pav.setLane_pc (x : Pav) (r : BitVec 4) (i : Nat) (v : Nat) : (x.setLane r i v).pc = x.pc := rfl
@[simp] theorem Pav.setLane_s (x : Pav) (r : BitVec 4) (i : Nat) (v : Nat) : (x.setLane r i v).s = x.s := rfl
@[simp] theorem Pav.setLane_d (x : Pav) (r : BitVec 4) (i : Nat) (v : Nat) : (x.setLane r i v).d = x.d := rfl
@[simp] theorem Pav.setLane_ibase (x : Pav) (r : BitVec 4) (i : Nat) (v : Nat) : (x.setLane r i v).ibase = x.ibase := rfl
@[simp] theorem Pav.setLane_slot0 (x : Pav) (r : BitVec 4) (i : Nat) (v : Nat) : (x.setLane r i v).slot0 = x.slot0 := rfl
@[simp] theorem Pav.setLane_slot1 (x : Pav) (r : BitVec 4) (i : Nat) (v : Nat) : (x.setLane r i v).slot1 = x.slot1 := rfl
@[simp] theorem Pav.setLane_ev (x : Pav) (r : BitVec 4) (i : Nat) (v : Nat) : (x.setLane r i v).ev = x.ev := rfl
@[simp] theorem Pav.setLane_flags (x : Pav) (r : BitVec 4) (i : Nat) (v : Nat) : (x.setLane r i v).flags = x.flags := rfl
@[simp] theorem Pav.setLane_bed (x : Pav) (r : BitVec 4) (i : Nat) (v : Nat) : (x.setLane r i v).bed = x.bed := rfl
@[simp] theorem Pav.setLane_block (x : Pav) (r : BitVec 4) (i : Nat) (v : Nat) : (x.setLane r i v).block = x.block := rfl
@[simp] theorem Pav.setLane_xfers (x : Pav) (r : BitVec 4) (i : Nat) (v : Nat) : (x.setLane r i v).xfers = x.xfers := rfl
@[simp] theorem Pav.setLane_nextId (x : Pav) (r : BitVec 4) (i : Nat) (v : Nat) : (x.setLane r i v).nextId = x.nextId := rfl
@[simp] theorem Pav.setLane_srcs (x : Pav) (r : BitVec 4) (i : Nat) (v : Nat) : (x.setLane r i v).srcs = x.srcs := rfl
@[simp] theorem Pav.setLane_dsts (x : Pav) (r : BitVec 4) (i : Nat) (v : Nat) : (x.setLane r i v).dsts = x.dsts := rfl
@[simp] theorem Pav.setLane_pend (x : Pav) (r : BitVec 4) (i : Nat) (v : Nat) : (x.setLane r i v).pend = x.pend := rfl
@[simp] theorem Pav.setLane_lastGroup (x : Pav) (r : BitVec 4) (i : Nat) (v : Nat) : (x.setLane r i v).lastGroup = x.lastGroup := rfl
@[simp] theorem Pav.setLane_rxSame (x : Pav) (r : BitVec 4) (i : Nat) (v : Nat) : (x.setLane r i v).rxSame = x.rxSame := rfl
@[simp] theorem Pav.setLane_rxOther (x : Pav) (r : BitVec 4) (i : Nat) (v : Nat) : (x.setLane r i v).rxOther = x.rxOther := rfl
@[simp] theorem Pav.setLane_deferred (x : Pav) (r : BitVec 4) (i : Nat) (v : Nat) : (x.setLane r i v).deferred = x.deferred := rfl
@[simp] theorem Pav.setLane_phaseHint (x : Pav) (r : BitVec 4) (i : Nat) (v : Nat) : (x.setLane r i v).phaseHint = x.phaseHint := rfl
@[simp] theorem Pav.setLane_descHint (x : Pav) (r : BitVec 4) (i : Nat) (v : Nat) : (x.setLane r i v).descHint = x.descHint := rfl
@[simp] theorem Pav.setLane_runUs (x : Pav) (r : BitVec 4) (i : Nat) (v : Nat) : (x.setLane r i v).runUs = x.runUs := rfl
@[simp] theorem Pav.setLane_settling (x : Pav) (r : BitVec 4) (i : Nat) (v : Nat) : (x.setLane r i v).settling = x.settling := rfl
@[simp] theorem Pav.setLane_freq (x : Pav) (r : BitVec 4) (i : Nat) (v : Nat) : (x.setLane r i v).freq = x.freq := rfl
@[simp] theorem Pav.setLane_rail (x : Pav) (r : BitVec 4) (i : Nat) (v : Nat) : (x.setLane r i v).rail = x.rail := rfl
@[simp] theorem Pav.setLane_lease (x : Pav) (r : BitVec 4) (i : Nat) (v : Nat) : (x.setLane r i v).lease = x.lease := rfl
@[simp] theorem Pav.setLane_leaseEnd (x : Pav) (r : BitVec 4) (i : Nat) (v : Nat) : (x.setLane r i v).leaseEnd = x.leaseEnd := rfl
@[simp] theorem Pav.setLane_newLease (x : Pav) (r : BitVec 4) (i : Nat) (v : Nat) : (x.setLane r i v).newLease = x.newLease := rfl
@[simp] theorem Pav.setEvc_allot (x : Pav) (i : BitVec 6) (v : Word32) : (x.setEvc i v).allot = x.allot := rfl
@[simp] theorem Pav.setEvc_logical (x : Pav) (i : BitVec 6) (v : Word32) : (x.setEvc i v).logical = x.logical := rfl
@[simp] theorem Pav.setEvc_spare (x : Pav) (i : BitVec 6) (v : Word32) : (x.setEvc i v).spare = x.spare := rfl
@[simp] theorem Pav.setEvc_withdrawn (x : Pav) (i : BitVec 6) (v : Word32) : (x.setEvc i v).withdrawn = x.withdrawn := rfl
@[simp] theorem Pav.setEvc_clearing (x : Pav) (i : BitVec 6) (v : Word32) : (x.setEvc i v).clearing = x.clearing := rfl
@[simp] theorem Pav.setEvc_share (x : Pav) (i : BitVec 6) (v : Word32) : (x.setEvc i v).share = x.share := rfl
@[simp] theorem Pav.setEvc_faulted (x : Pav) (i : BitVec 6) (v : Word32) : (x.setEvc i v).faulted = x.faulted := rfl
@[simp] theorem Pav.setEvc_stopped (x : Pav) (i : BitVec 6) (v : Word32) : (x.setEvc i v).stopped = x.stopped := rfl
@[simp] theorem Pav.setEvc_halted (x : Pav) (i : BitVec 6) (v : Word32) : (x.setEvc i v).halted = x.halted := rfl
@[simp] theorem Pav.setEvc_pc (x : Pav) (i : BitVec 6) (v : Word32) : (x.setEvc i v).pc = x.pc := rfl
@[simp] theorem Pav.setEvc_s (x : Pav) (i : BitVec 6) (v : Word32) : (x.setEvc i v).s = x.s := rfl
@[simp] theorem Pav.setEvc_d (x : Pav) (i : BitVec 6) (v : Word32) : (x.setEvc i v).d = x.d := rfl
@[simp] theorem Pav.setEvc_v (x : Pav) (i : BitVec 6) (v : Word32) : (x.setEvc i v).v = x.v := rfl
@[simp] theorem Pav.setEvc_ibase (x : Pav) (i : BitVec 6) (v : Word32) : (x.setEvc i v).ibase = x.ibase := rfl
@[simp] theorem Pav.setEvc_slot0 (x : Pav) (i : BitVec 6) (v : Word32) : (x.setEvc i v).slot0 = x.slot0 := rfl
@[simp] theorem Pav.setEvc_slot1 (x : Pav) (i : BitVec 6) (v : Word32) : (x.setEvc i v).slot1 = x.slot1 := rfl
@[simp] theorem Pav.setEvc_flags (x : Pav) (i : BitVec 6) (v : Word32) : (x.setEvc i v).flags = x.flags := rfl
@[simp] theorem Pav.setEvc_bed (x : Pav) (i : BitVec 6) (v : Word32) : (x.setEvc i v).bed = x.bed := rfl
@[simp] theorem Pav.setEvc_block (x : Pav) (i : BitVec 6) (v : Word32) : (x.setEvc i v).block = x.block := rfl
@[simp] theorem Pav.setEvc_xfers (x : Pav) (i : BitVec 6) (v : Word32) : (x.setEvc i v).xfers = x.xfers := rfl
@[simp] theorem Pav.setEvc_nextId (x : Pav) (i : BitVec 6) (v : Word32) : (x.setEvc i v).nextId = x.nextId := rfl
@[simp] theorem Pav.setEvc_srcs (x : Pav) (i : BitVec 6) (v : Word32) : (x.setEvc i v).srcs = x.srcs := rfl
@[simp] theorem Pav.setEvc_dsts (x : Pav) (i : BitVec 6) (v : Word32) : (x.setEvc i v).dsts = x.dsts := rfl
@[simp] theorem Pav.setEvc_pend (x : Pav) (i : BitVec 6) (v : Word32) : (x.setEvc i v).pend = x.pend := rfl
@[simp] theorem Pav.setEvc_lastGroup (x : Pav) (i : BitVec 6) (v : Word32) : (x.setEvc i v).lastGroup = x.lastGroup := rfl
@[simp] theorem Pav.setEvc_rxSame (x : Pav) (i : BitVec 6) (v : Word32) : (x.setEvc i v).rxSame = x.rxSame := rfl
@[simp] theorem Pav.setEvc_rxOther (x : Pav) (i : BitVec 6) (v : Word32) : (x.setEvc i v).rxOther = x.rxOther := rfl
@[simp] theorem Pav.setEvc_deferred (x : Pav) (i : BitVec 6) (v : Word32) : (x.setEvc i v).deferred = x.deferred := rfl
@[simp] theorem Pav.setEvc_phaseHint (x : Pav) (i : BitVec 6) (v : Word32) : (x.setEvc i v).phaseHint = x.phaseHint := rfl
@[simp] theorem Pav.setEvc_descHint (x : Pav) (i : BitVec 6) (v : Word32) : (x.setEvc i v).descHint = x.descHint := rfl
@[simp] theorem Pav.setEvc_runUs (x : Pav) (i : BitVec 6) (v : Word32) : (x.setEvc i v).runUs = x.runUs := rfl
@[simp] theorem Pav.setEvc_settling (x : Pav) (i : BitVec 6) (v : Word32) : (x.setEvc i v).settling = x.settling := rfl
@[simp] theorem Pav.setEvc_freq (x : Pav) (i : BitVec 6) (v : Word32) : (x.setEvc i v).freq = x.freq := rfl
@[simp] theorem Pav.setEvc_rail (x : Pav) (i : BitVec 6) (v : Word32) : (x.setEvc i v).rail = x.rail := rfl
@[simp] theorem Pav.setEvc_lease (x : Pav) (i : BitVec 6) (v : Word32) : (x.setEvc i v).lease = x.lease := rfl
@[simp] theorem Pav.setEvc_leaseEnd (x : Pav) (i : BitVec 6) (v : Word32) : (x.setEvc i v).leaseEnd = x.leaseEnd := rfl
@[simp] theorem Pav.setEvc_newLease (x : Pav) (i : BitVec 6) (v : Word32) : (x.setEvc i v).newLease = x.newLease := rfl
@[simp] theorem Pav.addFlags_allot (x : Pav) (f : Flags) : (x.addFlags f).allot = x.allot := rfl
@[simp] theorem Pav.addFlags_logical (x : Pav) (f : Flags) : (x.addFlags f).logical = x.logical := rfl
@[simp] theorem Pav.addFlags_spare (x : Pav) (f : Flags) : (x.addFlags f).spare = x.spare := rfl
@[simp] theorem Pav.addFlags_withdrawn (x : Pav) (f : Flags) : (x.addFlags f).withdrawn = x.withdrawn := rfl
@[simp] theorem Pav.addFlags_clearing (x : Pav) (f : Flags) : (x.addFlags f).clearing = x.clearing := rfl
@[simp] theorem Pav.addFlags_share (x : Pav) (f : Flags) : (x.addFlags f).share = x.share := rfl
@[simp] theorem Pav.addFlags_faulted (x : Pav) (f : Flags) : (x.addFlags f).faulted = x.faulted := rfl
@[simp] theorem Pav.addFlags_stopped (x : Pav) (f : Flags) : (x.addFlags f).stopped = x.stopped := rfl
@[simp] theorem Pav.addFlags_halted (x : Pav) (f : Flags) : (x.addFlags f).halted = x.halted := rfl
@[simp] theorem Pav.addFlags_pc (x : Pav) (f : Flags) : (x.addFlags f).pc = x.pc := rfl
@[simp] theorem Pav.addFlags_s (x : Pav) (f : Flags) : (x.addFlags f).s = x.s := rfl
@[simp] theorem Pav.addFlags_d (x : Pav) (f : Flags) : (x.addFlags f).d = x.d := rfl
@[simp] theorem Pav.addFlags_v (x : Pav) (f : Flags) : (x.addFlags f).v = x.v := rfl
@[simp] theorem Pav.addFlags_ibase (x : Pav) (f : Flags) : (x.addFlags f).ibase = x.ibase := rfl
@[simp] theorem Pav.addFlags_slot0 (x : Pav) (f : Flags) : (x.addFlags f).slot0 = x.slot0 := rfl
@[simp] theorem Pav.addFlags_slot1 (x : Pav) (f : Flags) : (x.addFlags f).slot1 = x.slot1 := rfl
@[simp] theorem Pav.addFlags_ev (x : Pav) (f : Flags) : (x.addFlags f).ev = x.ev := rfl
@[simp] theorem Pav.addFlags_bed (x : Pav) (f : Flags) : (x.addFlags f).bed = x.bed := rfl
@[simp] theorem Pav.addFlags_block (x : Pav) (f : Flags) : (x.addFlags f).block = x.block := rfl
@[simp] theorem Pav.addFlags_xfers (x : Pav) (f : Flags) : (x.addFlags f).xfers = x.xfers := rfl
@[simp] theorem Pav.addFlags_nextId (x : Pav) (f : Flags) : (x.addFlags f).nextId = x.nextId := rfl
@[simp] theorem Pav.addFlags_srcs (x : Pav) (f : Flags) : (x.addFlags f).srcs = x.srcs := rfl
@[simp] theorem Pav.addFlags_dsts (x : Pav) (f : Flags) : (x.addFlags f).dsts = x.dsts := rfl
@[simp] theorem Pav.addFlags_pend (x : Pav) (f : Flags) : (x.addFlags f).pend = x.pend := rfl
@[simp] theorem Pav.addFlags_lastGroup (x : Pav) (f : Flags) : (x.addFlags f).lastGroup = x.lastGroup := rfl
@[simp] theorem Pav.addFlags_rxSame (x : Pav) (f : Flags) : (x.addFlags f).rxSame = x.rxSame := rfl
@[simp] theorem Pav.addFlags_rxOther (x : Pav) (f : Flags) : (x.addFlags f).rxOther = x.rxOther := rfl
@[simp] theorem Pav.addFlags_deferred (x : Pav) (f : Flags) : (x.addFlags f).deferred = x.deferred := rfl
@[simp] theorem Pav.addFlags_phaseHint (x : Pav) (f : Flags) : (x.addFlags f).phaseHint = x.phaseHint := rfl
@[simp] theorem Pav.addFlags_descHint (x : Pav) (f : Flags) : (x.addFlags f).descHint = x.descHint := rfl
@[simp] theorem Pav.addFlags_runUs (x : Pav) (f : Flags) : (x.addFlags f).runUs = x.runUs := rfl
@[simp] theorem Pav.addFlags_settling (x : Pav) (f : Flags) : (x.addFlags f).settling = x.settling := rfl
@[simp] theorem Pav.addFlags_freq (x : Pav) (f : Flags) : (x.addFlags f).freq = x.freq := rfl
@[simp] theorem Pav.addFlags_rail (x : Pav) (f : Flags) : (x.addFlags f).rail = x.rail := rfl
@[simp] theorem Pav.addFlags_lease (x : Pav) (f : Flags) : (x.addFlags f).lease = x.lease := rfl
@[simp] theorem Pav.addFlags_leaseEnd (x : Pav) (f : Flags) : (x.addFlags f).leaseEnd = x.leaseEnd := rfl
@[simp] theorem Pav.addFlags_newLease (x : Pav) (f : Flags) : (x.addFlags f).newLease = x.newLease := rfl
@[simp] theorem Pav.next_allot (x : Pav) : (x.next).allot = x.allot := rfl
@[simp] theorem Pav.next_logical (x : Pav) : (x.next).logical = x.logical := rfl
@[simp] theorem Pav.next_spare (x : Pav) : (x.next).spare = x.spare := rfl
@[simp] theorem Pav.next_withdrawn (x : Pav) : (x.next).withdrawn = x.withdrawn := rfl
@[simp] theorem Pav.next_clearing (x : Pav) : (x.next).clearing = x.clearing := rfl
@[simp] theorem Pav.next_share (x : Pav) : (x.next).share = x.share := rfl
@[simp] theorem Pav.next_faulted (x : Pav) : (x.next).faulted = x.faulted := rfl
@[simp] theorem Pav.next_stopped (x : Pav) : (x.next).stopped = x.stopped := rfl
@[simp] theorem Pav.next_halted (x : Pav) : (x.next).halted = x.halted := rfl
@[simp] theorem Pav.next_s (x : Pav) : (x.next).s = x.s := rfl
@[simp] theorem Pav.next_d (x : Pav) : (x.next).d = x.d := rfl
@[simp] theorem Pav.next_v (x : Pav) : (x.next).v = x.v := rfl
@[simp] theorem Pav.next_ibase (x : Pav) : (x.next).ibase = x.ibase := rfl
@[simp] theorem Pav.next_slot0 (x : Pav) : (x.next).slot0 = x.slot0 := rfl
@[simp] theorem Pav.next_slot1 (x : Pav) : (x.next).slot1 = x.slot1 := rfl
@[simp] theorem Pav.next_ev (x : Pav) : (x.next).ev = x.ev := rfl
@[simp] theorem Pav.next_flags (x : Pav) : (x.next).flags = x.flags := rfl
@[simp] theorem Pav.next_bed (x : Pav) : (x.next).bed = x.bed := rfl
@[simp] theorem Pav.next_block (x : Pav) : (x.next).block = x.block := rfl
@[simp] theorem Pav.next_xfers (x : Pav) : (x.next).xfers = x.xfers := rfl
@[simp] theorem Pav.next_nextId (x : Pav) : (x.next).nextId = x.nextId := rfl
@[simp] theorem Pav.next_srcs (x : Pav) : (x.next).srcs = x.srcs := rfl
@[simp] theorem Pav.next_dsts (x : Pav) : (x.next).dsts = x.dsts := rfl
@[simp] theorem Pav.next_pend (x : Pav) : (x.next).pend = x.pend := rfl
@[simp] theorem Pav.next_lastGroup (x : Pav) : (x.next).lastGroup = x.lastGroup := rfl
@[simp] theorem Pav.next_rxSame (x : Pav) : (x.next).rxSame = x.rxSame := rfl
@[simp] theorem Pav.next_rxOther (x : Pav) : (x.next).rxOther = x.rxOther := rfl
@[simp] theorem Pav.next_deferred (x : Pav) : (x.next).deferred = x.deferred := rfl
@[simp] theorem Pav.next_phaseHint (x : Pav) : (x.next).phaseHint = x.phaseHint := rfl
@[simp] theorem Pav.next_descHint (x : Pav) : (x.next).descHint = x.descHint := rfl
@[simp] theorem Pav.next_runUs (x : Pav) : (x.next).runUs = x.runUs := rfl
@[simp] theorem Pav.next_settling (x : Pav) : (x.next).settling = x.settling := rfl
@[simp] theorem Pav.next_freq (x : Pav) : (x.next).freq = x.freq := rfl
@[simp] theorem Pav.next_rail (x : Pav) : (x.next).rail = x.rail := rfl
@[simp] theorem Pav.next_lease (x : Pav) : (x.next).lease = x.lease := rfl
@[simp] theorem Pav.next_leaseEnd (x : Pav) : (x.next).leaseEnd = x.leaseEnd := rfl
@[simp] theorem Pav.next_newLease (x : Pav) : (x.next).newLease = x.newLease := rfl
@[simp] theorem Pav.bedWrite_allot (x : Pav) (a : Nat) (bs : Bytes) : (x.bedWrite a bs).allot = x.allot := rfl
@[simp] theorem Pav.bedWrite_logical (x : Pav) (a : Nat) (bs : Bytes) : (x.bedWrite a bs).logical = x.logical := rfl
@[simp] theorem Pav.bedWrite_spare (x : Pav) (a : Nat) (bs : Bytes) : (x.bedWrite a bs).spare = x.spare := rfl
@[simp] theorem Pav.bedWrite_withdrawn (x : Pav) (a : Nat) (bs : Bytes) : (x.bedWrite a bs).withdrawn = x.withdrawn := rfl
@[simp] theorem Pav.bedWrite_clearing (x : Pav) (a : Nat) (bs : Bytes) : (x.bedWrite a bs).clearing = x.clearing := rfl
@[simp] theorem Pav.bedWrite_share (x : Pav) (a : Nat) (bs : Bytes) : (x.bedWrite a bs).share = x.share := rfl
@[simp] theorem Pav.bedWrite_faulted (x : Pav) (a : Nat) (bs : Bytes) : (x.bedWrite a bs).faulted = x.faulted := rfl
@[simp] theorem Pav.bedWrite_stopped (x : Pav) (a : Nat) (bs : Bytes) : (x.bedWrite a bs).stopped = x.stopped := rfl
@[simp] theorem Pav.bedWrite_halted (x : Pav) (a : Nat) (bs : Bytes) : (x.bedWrite a bs).halted = x.halted := rfl
@[simp] theorem Pav.bedWrite_pc (x : Pav) (a : Nat) (bs : Bytes) : (x.bedWrite a bs).pc = x.pc := rfl
@[simp] theorem Pav.bedWrite_s (x : Pav) (a : Nat) (bs : Bytes) : (x.bedWrite a bs).s = x.s := rfl
@[simp] theorem Pav.bedWrite_d (x : Pav) (a : Nat) (bs : Bytes) : (x.bedWrite a bs).d = x.d := rfl
@[simp] theorem Pav.bedWrite_v (x : Pav) (a : Nat) (bs : Bytes) : (x.bedWrite a bs).v = x.v := rfl
@[simp] theorem Pav.bedWrite_ibase (x : Pav) (a : Nat) (bs : Bytes) : (x.bedWrite a bs).ibase = x.ibase := rfl
@[simp] theorem Pav.bedWrite_slot0 (x : Pav) (a : Nat) (bs : Bytes) : (x.bedWrite a bs).slot0 = x.slot0 := rfl
@[simp] theorem Pav.bedWrite_slot1 (x : Pav) (a : Nat) (bs : Bytes) : (x.bedWrite a bs).slot1 = x.slot1 := rfl
@[simp] theorem Pav.bedWrite_ev (x : Pav) (a : Nat) (bs : Bytes) : (x.bedWrite a bs).ev = x.ev := rfl
@[simp] theorem Pav.bedWrite_flags (x : Pav) (a : Nat) (bs : Bytes) : (x.bedWrite a bs).flags = x.flags := rfl
@[simp] theorem Pav.bedWrite_block (x : Pav) (a : Nat) (bs : Bytes) : (x.bedWrite a bs).block = x.block := rfl
@[simp] theorem Pav.bedWrite_xfers (x : Pav) (a : Nat) (bs : Bytes) : (x.bedWrite a bs).xfers = x.xfers := rfl
@[simp] theorem Pav.bedWrite_nextId (x : Pav) (a : Nat) (bs : Bytes) : (x.bedWrite a bs).nextId = x.nextId := rfl
@[simp] theorem Pav.bedWrite_srcs (x : Pav) (a : Nat) (bs : Bytes) : (x.bedWrite a bs).srcs = x.srcs := rfl
@[simp] theorem Pav.bedWrite_dsts (x : Pav) (a : Nat) (bs : Bytes) : (x.bedWrite a bs).dsts = x.dsts := rfl
@[simp] theorem Pav.bedWrite_pend (x : Pav) (a : Nat) (bs : Bytes) : (x.bedWrite a bs).pend = x.pend := rfl
@[simp] theorem Pav.bedWrite_lastGroup (x : Pav) (a : Nat) (bs : Bytes) : (x.bedWrite a bs).lastGroup = x.lastGroup := rfl
@[simp] theorem Pav.bedWrite_rxSame (x : Pav) (a : Nat) (bs : Bytes) : (x.bedWrite a bs).rxSame = x.rxSame := rfl
@[simp] theorem Pav.bedWrite_rxOther (x : Pav) (a : Nat) (bs : Bytes) : (x.bedWrite a bs).rxOther = x.rxOther := rfl
@[simp] theorem Pav.bedWrite_deferred (x : Pav) (a : Nat) (bs : Bytes) : (x.bedWrite a bs).deferred = x.deferred := rfl
@[simp] theorem Pav.bedWrite_phaseHint (x : Pav) (a : Nat) (bs : Bytes) : (x.bedWrite a bs).phaseHint = x.phaseHint := rfl
@[simp] theorem Pav.bedWrite_descHint (x : Pav) (a : Nat) (bs : Bytes) : (x.bedWrite a bs).descHint = x.descHint := rfl
@[simp] theorem Pav.bedWrite_runUs (x : Pav) (a : Nat) (bs : Bytes) : (x.bedWrite a bs).runUs = x.runUs := rfl
@[simp] theorem Pav.bedWrite_settling (x : Pav) (a : Nat) (bs : Bytes) : (x.bedWrite a bs).settling = x.settling := rfl
@[simp] theorem Pav.bedWrite_freq (x : Pav) (a : Nat) (bs : Bytes) : (x.bedWrite a bs).freq = x.freq := rfl
@[simp] theorem Pav.bedWrite_rail (x : Pav) (a : Nat) (bs : Bytes) : (x.bedWrite a bs).rail = x.rail := rfl
@[simp] theorem Pav.bedWrite_lease (x : Pav) (a : Nat) (bs : Bytes) : (x.bedWrite a bs).lease = x.lease := rfl
@[simp] theorem Pav.bedWrite_leaseEnd (x : Pav) (a : Nat) (bs : Bytes) : (x.bedWrite a bs).leaseEnd = x.leaseEnd := rfl
@[simp] theorem Pav.bedWrite_newLease (x : Pav) (a : Nat) (bs : Bytes) : (x.bedWrite a bs).newLease = x.newLease := rfl
@[simp] theorem Pav.next_pc (x : Pav) : x.next.pc = x.pc + 8 := rfl
@[simp] theorem Pav.addFlags_flags (x : Pav) (f : Flags) : (x.addFlags f).flags = x.flags ||| f := rfl

end Sys2Proof.Machine
end

