-- ==== Sys2Proof/Laws/Host.lean ====
section
/-! SUPPORT. What the accesses of a queue to host memory do: a translation, a write and a read change the list of held translations,
the counter of free values and the outputs alone, and an access that has ended goes on or puts its queue in ERROR. -/

namespace Sys2Proof.Machine

/-- Two blocks differ at most in the translations they hold, in the free values they have taken and in their outputs. -/
def Dev.sameButHost (d e : Dev) : Prop := e = { d with hp := { d.hp with atc := e.hp.atc }, freeIx := e.freeIx, outbox := e.outbox }

theorem Dev.sameButHost_refl (d : Dev) : d.sameButHost d := rfl
theorem Dev.sameButHost_trans {d e f : Dev} (h : d.sameButHost e) (g : e.sameButHost f) : d.sameButHost f := by
  unfold Dev.sameButHost at *
  rw [g, h]
theorem Dev.sameButHost_emit (d : Dev) (o : Output) : d.sameButHost (d.emit o) := rfl

/-- A fold of steps that each differ only there differs only there. -/
theorem Dev.sameButHost_foldl {β : Type} (f : Dev → β → Dev) (h : ∀ (d : Dev) b, d.sameButHost (f d b)) :
    ∀ (l : List β) (d : Dev), d.sameButHost (l.foldl f d)
  | [], d => d.sameButHost_refl
  | b :: l, d => Dev.sameButHost_trans (h d b) (Dev.sameButHost_foldl f h l (f d b))

theorem Dev.translatePage_same (d : Dev) (fn : Nat) (p : Option (BitVec 20)) (page : Nat) : d.sameButHost (d.translatePage fn p page) := by
  unfold Dev.translatePage
  split
  · exact d.sameButHost_refl
  · rfl

/-- A translation changes nothing else. -/
theorem Dev.translate_same (d : Dev) (q a n : Nat) : d.sameButHost (d.translate q a n) := by
  unfold Dev.translate
  dsimp only
  split
  · exact Dev.sameButHost_foldl _ (fun d k => d.translatePage_same _ _ _) _ d
  · exact d.sameButHost_refl

theorem Dev.hostPut_same (d : Dev) (q : Nat) (ro : Bool) (a : Nat) (bs : Bytes) : d.sameButHost (d.hostPut q ro a bs) := by
  unfold Dev.hostPut
  split
  · exact Dev.sameButHost_foldl _ (fun d _ => d.sameButHost_emit _) _ _
  · exact Dev.sameButHost_emit _ _

/-- A host write changes nothing else. -/
theorem Dev.hostWrite_same (d : Dev) (q : Nat) (ro : Bool) (a : Word64) (bs : Bytes) : d.sameButHost (d.hostWrite q ro a bs) := by
  refine Dev.sameButHost_trans (d.translate_same q a.toNat bs.length) ?_
  unfold Dev.hostWrite
  dsimp only
  generalize d.translate q a.toNat bs.length = e
  exact Dev.sameButHost_foldl _ (fun d _ => d.hostPut_same _ _ _ _) _ e

/-- A host read changes nothing else. -/
theorem Dev.hostFetch_same (d : Dev) (q : Nat) (a : Word64) (n : Nat) : d.sameButHost (d.hostFetch q a n) := by
  refine Dev.sameButHost_trans (d.translate_same q a.toNat n) ?_
  unfold Dev.hostFetch
  dsimp only
  generalize d.translate q a.toNat n = e
  exact Dev.sameButHost_foldl _ (fun d _ => d.sameButHost_emit _) _ e

/-- Reads of several ranges change nothing else. -/
theorem Dev.hostReads_same (d : Dev) (q : Nat) (rs : List (Word64 × Nat)) : d.sameButHost (d.hostReads q rs) := by
  unfold Dev.hostReads
  exact Dev.sameButHost_foldl (fun d (r : Word64 × Nat) => d.hostFetch q r.1 r.2) (fun d r => d.hostFetch_same q r.1 r.2) rs d

/-- Asking for translations that are denied changes the outputs alone. -/
theorem Dev.askDenied_same (d : Dev) (q a n : Nat) : d.sameButHost (d.askDenied q a n) := by
  unfold Dev.askDenied
  dsimp only
  split
  · refine Dev.sameButHost_foldl _ (fun d k => ?_) _ _
    split
    · exact d.sameButHost_refl
    · exact d.sameButHost_emit _
  · exact d.sameButHost_refl

/-- A host access that ended well goes on. -/
theorem Dev.hostThen_ok {d : Dev} {q : Nat} {f : Dev → Dev} (h : d.atsLost q = false) : d.hostThen q .ok f = f d := by
  simp [Dev.hostThen, Dev.hostErr, h]

/-- Reads that may be made go on with what they read. -/
theorem Dev.fetchThen_ok {d : Dev} {q : Qx} {ras : Option RasErr} {rs : List (Word64 × Nat)} {f : Dev → Dev}
    (h : d.atsLost q.val = false) (g : ((d.hostReads q.val rs).cacheErr ⟨q, .ok, ras⟩).atsLost q.val = false) :
    d.fetchThen ⟨q, .ok, ras⟩ rs f = f ((d.hostReads q.val rs).cacheErr ⟨q, .ok, ras⟩) := by
  simp only [Dev.fetchThen, Dev.hostDone, Qh.val] at *
  simp [h, Dev.hostThen, Dev.hostErr, g]

/-- A host access of a queue goes on, leaves a queue that is in ERROR as it is, or puts the queue in ERROR with reason 7 or 8. -/
theorem Dev.hostThen_cases (d : Dev) (q : Nat) (r : HostEnd) (f : Dev → Dev) :
    d.hostThen q r f = f d ∨ (d.queue q).st = .error ∧ d.hostThen q r f = d ∨
      ∃ n, (n = 7 ∨ n = 8) ∧ d.hostErr q r = some n ∧ d.hostThen q r f = d.queueError q n := by
  unfold Dev.hostThen
  cases h : d.hostErr q r with
  | none => exact .inl rfl
  | some n =>
    dsimp only
    split
    · exact .inr (.inl ⟨‹_›, rfl⟩)
    · refine .inr (.inr ⟨n, ?_, rfl, rfl⟩)
      unfold Dev.hostErr at h
      split at h
      · exact .inl (Option.some.inj h).symm
      · cases r <;> simp at h <;> omega

end Sys2Proof.Machine
end

