-- ==== Sys2Proof/Laws/Kernel.lean ====
section
/-! SUPPORT. What the shared operations of the stewards do: issuing a word, taking a fault, counting corrected bed errors, and how a
meaning written over the block alone ends. -/

namespace Sys2Proof.Machine

/-! ### How a command ends -/

/-- A meaning over the block alone ends with the block it computes. -/
theorem onDev_eq (s : State) (f : Dev → Dev) : onDev s f = .next { s with dev := f s.dev } := rfl
/-- A command whose next state is known ends with every property of it. -/
theorem endsIn_of {i : Instr} {s : State} {P : Dev → Prop} (d : Dev) (h : Ends i s d) (hp : P d) : EndsIn i s P := ⟨d, h, hp⟩
/-- An end with a property implies an end with a weaker one. -/
theorem EndsIn.mono {i : Instr} {s : State} {P Q : Dev → Prop} (h : EndsIn i s P) (hpq : ∀ d, P d → Q d) : EndsIn i s Q := by
  obtain ⟨d, hd, hp⟩ := h
  exact ⟨d, hd, hpq d hp⟩
/-- A command ends with one block alone. -/
theorem Ends.unique {i : Instr} {s : State} {d e : Dev} (hd : Ends i s d) (he : Ends i s e) : d = e := by
  unfold Ends at hd he
  rw [hd] at he
  injection he with h
  injection h

/-! ### Corrected bed errors (R112) -/

@[simp] theorem Dev.bedCorrected_pav (d : Dev) (p n q : Nat) : (d.bedCorrected p n).pav q = d.pav q := by
  unfold Dev.bedCorrected; split <;> rfl
@[simp] theorem Dev.bedCorrected_mem (d : Dev) (p n : Nat) : (d.bedCorrected p n).mem = d.mem := by
  unfold Dev.bedCorrected; split <;> rfl
@[simp] theorem Dev.bedCorrected_zero (d : Dev) (p : Nat) : d.bedCorrected p 0 = d := by simp [Dev.bedCorrected]

/-! ### Issue (R118, R125, R186) -/

/-- A steward that may not issue leaves the block as it is. -/
theorem issue_stalled {d : Dev} {p ce : Nat} {w : Word64} {b : Option FaultCode} {eff : Dev → Eff Dev} (h : d.canIssue p = false) :
    d.issue p ce w b eff = d := by
  simp [Dev.issue, h]
/-- A word issued without fault has its effect on the block in which the corrections of its reads are counted. -/
theorem issue_ok {d e : Dev} {p ce : Nat} {w : Word64} {eff : Dev → Eff Dev} (h : Ready d p) (he : eff (d.bedCorrected p ce) = .ok e) :
    d.issue p ce w none eff = e := by
  obtain ⟨h1, h2, h3⟩ := h
  simp [Dev.issue, h1, h2, h3, he]
/-- A word with a malformed field takes its fault. -/
theorem issue_bad {d : Dev} {p ce : Nat} {w : Word64} {c : FaultCode} {eff : Dev → Eff Dev} (h : Ready d p) :
    d.issue p ce w (some c) eff = (d.bedCorrected p ce).takeFault p c (d.pav p).pc22 w := by
  obtain ⟨h1, h2, h3⟩ := h
  simp [Dev.issue, h1, h2, h3]
/-- A word whose effect is refused takes that fault. -/
theorem issue_err {d : Dev} {p ce : Nat} {w : Word64} {c : FaultCode} {eff : Dev → Eff Dev} (h : Ready d p)
    (he : eff (d.bedCorrected p ce) = .error c) :
    d.issue p ce w none eff = (d.bedCorrected p ce).takeFault p c (d.pav p).pc22 w := by
  obtain ⟨h1, h2, h3⟩ := h
  simp [Dev.issue, h1, h2, h3, he]
/-- A deferred fault is taken before the word. -/
theorem issue_deferred {d : Dev} {p ce : Nat} {w v : Word64} {b : Option FaultCode} {c : FaultCode} {pc : BitVec 22} {eff : Dev → Eff Dev}
    (h : d.canIssue p = true) (hd : (d.pav p).deferred = some (c, pc, v)) : d.issue p ce w b eff = d.takeFault p c pc v := by
  simp [Dev.issue, h, hd]
/-- An effect on the Pavilion alone that succeeds. -/
theorem onPav_ok {d : Dev} {p : Nat} {x : Pav} {f : Pav → Eff Pav} (h : f (d.pav p) = .ok x) : d.onPav p f = .ok (d.setPav p x) := by
  simp [Dev.onPav, h]

/-! ### Taking a fault (R185 to R188) -/

@[simp] theorem Dev.recordFault_pavs (d : Dev) (p : Nat) (c : FaultCode) (pc : BitVec 22) (w : Word64) :
    (d.recordFault p c pc w).pavs = d.pavs := by simp [Dev.recordFault]
@[simp] theorem Dev.reportFault_pavs (d : Dev) (s : Share) (c : FaultCode) (pc : BitVec 22) : (d.reportFault s c pc).pavs = d.pavs := by
  simp [Dev.reportFault, Dev.updExec]
@[simp] theorem Dev.recordFault_mem (d : Dev) (p : Nat) (c : FaultCode) (pc : BitVec 22) (w : Word64) :
    (d.recordFault p c pc w).mem = d.mem := by simp [Dev.recordFault]
@[simp] theorem Dev.reportFault_mem (d : Dev) (s : Share) (c : FaultCode) (pc : BitVec 22) : (d.reportFault s c pc).mem = d.mem := by
  simp [Dev.reportFault, Dev.updExec]
/-- Taking a fault stops the steward of the faulting Pavilion and changes nothing else of any Pavilion. -/
theorem Dev.takeFault_pavs (d : Dev) (p : Nat) (c : FaultCode) (pc : BitVec 22) (w : Word64) :
    (d.takeFault p c pc w).pavs = (d.setPav p { d.pav p with faulted := true, block := none, deferred := none }).pavs := by
  unfold Dev.takeFault
  dsimp only
  split <;> simp [Dev.setPav]
/-- Taking a fault leaves the module's memory as it is. -/
@[simp] theorem Dev.takeFault_mem (d : Dev) (p : Nat) (c : FaultCode) (pc : BitVec 22) (w : Word64) : (d.takeFault p c pc w).mem = d.mem := by
  unfold Dev.takeFault
  dsimp only
  split <;> simp

end Sys2Proof.Machine
end

