-- ==== Sys2Proof/Laws/Memory.lean ====
section
/-! SUPPORT. Every memory operation keeps the canonical form of module memory, reset memory has it, and a bed write keeps
the canonical form of its bed. -/

namespace Sys2Proof.Machine

/-- Reset memory is in canonical form. -/
theorem Mem.wf_reset : Mem.reset.wf = true := by decide

theorem Mem.wf_iff (m : Mem) : m.wf = true ↔
    (Tab.wf (fun _ => (0 : Byte)) m.raw = true ∧ Tab.wf (fun _ => false) m.clean = true ∧ Tab.wf (fun _ => false) m.poison = true ∧
      Tab.wf (fun _ => false) m.lost = true ∧ Tab.wf (fun _ => Pkg.reset) m.pkgs = true) := by
  simp [Mem.wf, Bool.and_eq_true, and_assoc]

/-- A fold whose every step keeps a property keeps it. -/
theorem foldl_keeps {α β : Type} (P : α → Prop) (f : α → β → α) (hf : ∀ a b, P a → P (f a b)) :
    ∀ (l : List β) (a : α), P a → P (l.foldl f a)
  | [], _, h => h
  | b :: l, a, h => foldl_keeps P f hf l (f a b) (hf a b h)

theorem Mem.wf_setPkg (m : Mem) (k : Nat) (x : Pkg) (h : m.wf = true) : (m.setPkg k x).wf = true := by
  rw [Mem.wf_iff] at h ⊢
  exact ⟨h.1, h.2.1, h.2.2.1, h.2.2.2.1, Tab.wf_set _ _ _ _ h.2.2.2.2⟩

theorem Mem.wf_encode (m : Mem) (s : Nat) (data : Bytes) (h : m.wf = true) : (m.encode s data).wf = true := by
  rw [Mem.wf_iff] at h ⊢
  refine ⟨?_, h.2.1, h.2.2.1, h.2.2.2.1, h.2.2.2.2⟩
  refine foldl_keeps (fun r => Tab.wf (fun _ => (0 : Byte)) r = true) _ ?_ _ _ h.1
  intro r k hr
  split
  · exact Tab.wf_setRun _ _ _ _ hr
  · exact hr

theorem Mem.wf_setPoison (m : Mem) (s : Nat) (b : Bool) (h : m.wf = true) : (m.setPoison s b).wf = true := by
  rw [Mem.wf_iff] at h ⊢
  exact ⟨h.1, h.2.1, Tab.wf_set _ _ _ _ h.2.2.1, h.2.2.2.1, h.2.2.2.2⟩

theorem Mem.wf_zeroGranule (m : Mem) (g : Nat) (h : m.wf = true) : (m.zeroGranule g).wf = true := by
  rw [Mem.wf_iff] at h ⊢
  refine ⟨?_, Tab.wf_set false m.clean g true h.2.1, h.2.2.1, h.2.2.2.1, h.2.2.2.2⟩
  refine foldl_keeps (fun r => Tab.wf (fun _ => (0 : Byte)) r = true) _ ?_ _ _ h.1
  intro r i hr
  refine foldl_keeps (fun r => Tab.wf (fun _ => (0 : Byte)) r = true) _ ?_ _ _ hr
  intro r k hr
  split
  · exact Tab.wf_clearRange _ _ _ _ hr
  · exact hr

theorem Mem.wf_freshHealth (m : Mem) (h : m.wf = true) : m.freshHealth.wf = true := h
theorem Mem.wf_retire (m : Mem) (k r o : Nat) (h : m.wf = true) : (m.retire k r o).wf = true :=
  Mem.wf_freshHealth _ (Mem.wf_setPkg _ _ _ h)
theorem Mem.wf_owePhase (m : Mem) (p : Nat) (ph : OwePh) (h : m.wf = true) : (m.owePhase p ph).wf = true := h

/-- Setting the block's memory sets it. -/
@[simp] theorem Dev.setMem_mem (d : Dev) (m : Mem) : (d.setMem m).mem = m := by unfold Dev.setMem; dsimp only; split <;> rfl

/-- Reporting an uncorrectable stripe changes no memory. -/
@[simp] theorem Dev.reportUE_mem (d : Dev) (s : Nat) : (d.reportUE s).mem = d.mem := by simp [Dev.reportUE]

/-- Counting corrected symbols changes nothing of the contents, the maps or the tables but the packages' windows. -/
theorem Dev.countFixed_wf (d : Dev) (s : Nat) (l : List Nat) (h : d.mem.wf = true) : (d.countFixed s l).mem.wf = true := by
  unfold Dev.countFixed
  split
  · exact h
  · refine foldl_keeps (fun d : Dev => d.mem.wf = true) _ ?_ _ _ (by simpa using h)
    intro d k hd
    exact Mem.wf_setPkg _ _ _ (by simpa using hd)

theorem Dev.countFixed_raw (d : Dev) (s : Nat) (l : List Nat) : (d.countFixed s l).mem.raw = d.mem.raw := by
  unfold Dev.countFixed
  split
  · rfl
  · refine foldl_keeps (fun e : Dev => e.mem.raw = d.mem.raw) _ ?_ _ _ (by simp)
    intro e k he
    simpa [Mem.setPkg] using he

theorem Dev.writeStripe_wf (d : Dev) (errs : List SymErr) (s off : Nat) (bs : Bytes) (p : Bool) (h : d.mem.wf = true) :
    (d.writeStripe errs s off bs p).1.mem.wf = true := by
  have store : ∀ (e : Dev) (data : Bytes) (q : Bool), e.mem.wf = true → ((e.mem.encode s data).setPoison s q).wf = true :=
    fun e data q he => Mem.wf_setPoison _ _ _ (Mem.wf_encode _ _ _ he)
  unfold Dev.writeStripe
  dsimp only
  split
  · exact store _ _ _ h
  · split
    · next data fixed _ =>
      have h' : (if bs.length = 512 then d else d.countFixed s fixed).mem.wf = true := by
        split
        · exact h
        · exact Dev.countFixed_wf _ _ _ h
      split
      · simpa using h'
      · exact store _ _ _ h'
    · split
      · simpa using h
      · refine store _ _ _ ?_
        split
        · exact h
        · simpa using h

theorem Dev.performWrite_wf (d : Dev) (errs : List SymErr) (ma : Nat) (bs : Bytes) (p : Bool) (h : d.mem.wf = true) :
    (d.performWrite errs ma bs p).1.mem.wf = true := by
  refine foldl_keeps (fun r : Dev × Bool => r.1.mem.wf = true) _ ?_ _ _ h
  intro r x hr
  exact Dev.writeStripe_wf _ _ _ _ _ _ hr

@[simp] theorem Dev.backInvalidate_mem (d : Dev) (ma len : Nat) : (d.backInvalidate ma len).mem = d.mem := by
  unfold Dev.backInvalidate
  dsimp only
  exact foldl_keeps (fun e : Dev => e.mem = d.mem) _ (fun e x he => by simpa using he) _ _ rfl

/-- A host's answer to a snoop is at most one write. -/
theorem Dev.lineBack_wf (d : Dev) (line : Nat) (h : d.mem.wf = true) : (d.lineBack line).mem.wf = true := by
  have hf : (d.takeFree).1.mem.wf = true := h
  unfold Dev.lineBack
  dsimp only
  repeat' split
  all_goals first
    | exact h
    | simpa using h
    | exact Dev.performWrite_wf _ _ _ _ _ hf

theorem Dev.snoopWrite_wf (d : Dev) (ma len : Nat) (h : d.mem.wf = true) : (d.snoopWrite ma len).mem.wf = true :=
  foldl_keeps (fun d : Dev => d.mem.wf = true) _ (fun d l hd => Dev.lineBack_wf d l hd) _ _ (by simpa using h)

theorem Dev.snoopRead_wf (d : Dev) (ma len : Nat) (h : d.mem.wf = true) : (d.snoopRead ma len).mem.wf = true :=
  foldl_keeps (fun d : Dev => d.mem.wf = true) _ (fun d l hd => Dev.lineBack_wf _ l (by simpa using hd)) _ _ h

theorem Dev.readStripe_wf (d : Dev) (errs : List SymErr) (s : Nat) (h : d.mem.wf = true) : (d.readStripe errs s).1.mem.wf = true := by
  unfold Dev.readStripe
  repeat' split
  all_goals first | exact h | exact Dev.countFixed_wf _ _ _ h

theorem Dev.performRead_wf (d : Dev) (errs : List SymErr) (ma len : Nat) (h : d.mem.wf = true) :
    (d.performRead errs ma len).1.mem.wf = true := by
  unfold Dev.performRead
  split
  · exact h
  · dsimp only
    split <;>
    · next heq =>
      have := congrArg Prod.fst heq
      rw [show (_ : Dev) = _ from this.symm]
      refine foldl_keeps (fun r : Dev × Option Bytes => r.1.mem.wf = true) _ ?_ _ _ h
      intro r s hr
      have := Dev.readStripe_wf r.1 errs s hr
      split <;> simp_all

theorem Dev.snoopAdd_wf (d : Dev) (line : Nat) (h : d.mem.wf = true) : (d.snoopAdd line).mem.wf = true := by
  unfold Dev.snoopAdd
  split
  · exact h
  · dsimp only
    split
    · split
      · exact Dev.lineBack_wf _ _ (by simpa using h)
      · simpa using h
    · exact h

theorem Dev.tryWrite_wf (d : Dev) (errs : List SymErr) (ma : Nat) (bs : Bytes) (p : Bool) (u : MemUser) (h : d.mem.wf = true) :
    (d.tryWrite errs ma bs p u).1.mem.wf = true := by
  unfold Dev.tryWrite
  dsimp only
  split
  · simpa using h
  · split
    · exact h
    · refine Dev.performWrite_wf _ _ _ _ _ ?_
      split
      · exact h
      · exact Dev.snoopWrite_wf _ _ _ h

theorem Dev.tryRead_wf (d : Dev) (errs : List SymErr) (ma len : Nat) (u : MemUser) (h : d.mem.wf = true) :
    (d.tryRead errs ma len u).1.mem.wf = true := by
  have hs : (if u = .host then d else d.snoopRead ma len).mem.wf = true := by
    split
    · exact h
    · exact Dev.snoopRead_wf _ _ _ h
  unfold Dev.tryRead
  dsimp only
  generalize (if u = .host then d else d.snoopRead ma len) = e at hs ⊢
  split
  · exact hs
  · exact Dev.performRead_wf _ _ _ _ hs

/-- What an access gives its user leaves the contents as they are. -/
theorem Dev.tell_wf (d : Dev) (u : MemUser) (r : RdRes) (h : d.mem.wf = true) : (d.tell u r).mem.wf = true := h
theorem Dev.taken_wf (d : Dev) (u : MemUser) (h : d.mem.wf = true) : (d.taken u).mem.wf = true := h
theorem Dev.accWaits_wf (d : Dev) (a : MemAcc) (h : d.mem.wf = true) : (d.accWaits a).mem.wf = true := h

theorem Dev.readDone_wf (d : Dev) (ma : Nat) (u : MemUser) (r : RdRes) (h : d.mem.wf = true) : (d.readDone ma u r).mem.wf = true := by
  unfold Dev.readDone
  split
  · simpa using Dev.snoopAdd_wf d (ma / 64) h
  all_goals exact h

theorem Dev.writeDone_wf (d : Dev) (ma : Nat) (u : MemUser) (b : Bool) (h : d.mem.wf = true) : (d.writeDone ma u b).mem.wf = true := by
  unfold Dev.writeDone
  repeat' split
  all_goals exact h

/-- An access that has its turn keeps the canonical form. -/
theorem Dev.serveAcc_wf (d : Dev) (errs : List SymErr) (a : MemAcc) (h : d.mem.wf = true) : (d.serveAcc errs a).1.mem.wf = true := by
  cases a with
  | write ma bs p u l =>
    have hw := Dev.tryWrite_wf d errs ma bs p u h
    simp only [Dev.serveAcc]
    split <;> rename_i heq <;> rw [heq] at hw
    · exact Dev.writeDone_wf _ _ _ _ hw
    · exact hw
  | read ma len u l =>
    have hr := Dev.tryRead_wf d errs ma len u h
    simp only [Dev.serveAcc]
    split <;> rename_i heq <;> rw [heq] at hr
    · exact hr
    · exact Dev.readDone_wf _ _ _ _ hr

/-- An access that arrives keeps the canonical form. -/
theorem Dev.arrive_wf (d : Dev) (errs : List SymErr) (a : MemAcc) (h : d.mem.wf = true) : (d.arrive errs a).mem.wf = true := by
  have hs := Dev.serveAcc_wf d errs a h
  unfold Dev.arrive
  split
  · exact h
  · split <;> rename_i heq <;> rw [heq] at hs <;> exact hs

theorem Dev.readArrives_wf (d : Dev) (errs : List SymErr) (ma len : Nat) (u : MemUser) (h : d.mem.wf = true) :
    (d.readArrives errs ma len u).mem.wf = true := Dev.arrive_wf _ _ _ h

theorem Dev.writeArrives_wf (d : Dev) (errs : List SymErr) (ma : Nat) (bs : Bytes) (p : Bool) (u : MemUser) (h : d.mem.wf = true) :
    (d.writeArrives errs ma bs p u).mem.wf = true :=
  foldl_keeps (fun d : Dev => d.mem.wf = true) _ (fun d _ hd => Dev.arrive_wf d errs _ hd) _ _ h

/-- A read of module memory keeps the canonical form. -/
theorem Dev.memRead_wf (d : Dev) (u : MemUser) (ma len : Nat) (h : d.mem.wf = true) : (d.memRead u ma len).1.mem.wf = true := by
  have hi : (d.issueRead u ma len).mem.wf = true := by
    unfold Dev.issueRead
    split
    · exact h
    · exact Dev.readArrives_wf _ _ _ _ _ h
  unfold Dev.memRead
  dsimp only
  split <;> exact hi

/-- A write of module memory keeps the canonical form. -/
theorem Dev.memWrite_wf (d : Dev) (u : MemUser) (ma : Nat) (bs : Bytes) (h : d.mem.wf = true) : (d.memWrite u ma bs).1.mem.wf = true := by
  have hi : (d.issueWrite u ma bs).mem.wf = true := by
    unfold Dev.issueWrite
    split
    · exact h
    · exact Dev.writeArrives_wf _ _ _ _ _ _ (Dev.tell_wf d u (.ok []) h)
  unfold Dev.memWrite
  dsimp only
  split <;> exact hi

/-- The turns of waiting accesses keep the canonical form. -/
theorem Dev.runWaiting_wf (d : Dev) (h : d.mem.wf = true) : d.runWaiting.mem.wf = true := by
  unfold Dev.runWaiting
  split
  · exact h
  · refine foldl_keeps (fun d : Dev => d.mem.wf = true) _ ?_ _ _ h
    intro d a hd
    split
    · exact hd
    · have hs := Dev.serveAcc_wf d [] a hd
      split <;> rename_i heq <;> rw [heq] at hs <;> exact hs

/-! ### Beds -/

/-- A write of a bed reads back, and keeps the canonical form of the bed. -/
theorem Pav.bedRead_bedWrite (x : Pav) (a : Nat) (bs : Bytes) : (x.bedWrite a bs).bedRead a bs.length = bs := Tab.getRun_setRun ..
theorem Pav.bedWrite_wf (x : Pav) (a : Nat) (bs : Bytes) (h : Tab.wf (fun _ => (0 : Byte)) x.bed = true) :
    Tab.wf (fun _ => (0 : Byte)) (x.bedWrite a bs).bed = true := Tab.wf_setRun _ _ _ _ h
/-- Bytes outside a write of a bed stay. -/
theorem Pav.bed_bedWrite (x : Pav) (a j : Nat) (bs : Bytes) (h : j < a ∨ a + bs.length ≤ j) :
    Tab.get 0 (x.bedWrite a bs).bed j = Tab.get 0 x.bed j := by
  unfold Pav.bedWrite; rw [Tab.get_setRun, if_neg (by omega)]

/-! ### The commands of the memory controller -/

/-- A command that ends with canonical memory. -/
def KeepsMem (i : Instr) : Prop := ∀ (s t : State), exec i s = .next t → s.dev.mem.wf = true → t.dev.mem.wf = true

theorem memoryRead_keepsMem (ma len : Nat) (e : List SymErr) : KeepsMem (.memoryRead ma len e) := by
  intro s t hx h
  replace hx : execMemoryRead ma len e s = .next t := hx
  simp only [execMemoryRead, onDev] at hx
  cases hx
  dsimp only
  split
  · exact Dev.readArrives_wf _ _ _ _ _ h
  · exact h

theorem memoryWrite_keepsMem (ma : Nat) (bs : Bytes) (e : List SymErr) : KeepsMem (.memoryWrite ma bs e) := by
  intro s t hx h
  replace hx : execMemoryWrite ma bs e s = .next t := hx
  simp only [execMemoryWrite, onDev] at hx
  cases hx
  dsimp only
  split
  · exact Dev.writeArrives_wf _ _ _ _ _ _ h
  · exact h

theorem fillComplete_keepsMem (g : Nat) : KeepsMem (.fillComplete g) := by
  intro s t hx h
  replace hx : execFillComplete g s = .next t := hx
  simp only [execFillComplete, onDev] at hx
  cases hx
  dsimp only
  split
  · exact h
  · refine Dev.runWaiting_wf _ ?_
    split
    · exact h
    · exact Mem.wf_zeroGranule _ _ h

theorem clearerGranule_keepsMem : KeepsMem .clearerGranule := by
  intro s t hx h
  replace hx : execClearerGranule s = .next t := hx
  simp only [execClearerGranule, onDev] at hx
  cases hx
  split
  · exact h
  · split
    · exact Mem.wf_zeroGranule _ _ h
    · exact h

theorem scrubStripe_keepsMem (e : List SymErr) : KeepsMem (.scrubStripe e) := by
  intro s t hx h
  replace hx : execScrubStripe e s = .next t := hx
  simp only [execScrubStripe, onDev] at hx
  cases hx
  dsimp only
  repeat' split
  all_goals first
    | exact h
    | simpa using h
    | exact Mem.wf_encode _ _ _ (Dev.countFixed_wf _ _ _ (by simpa using h))
    | exact Dev.countFixed_wf _ _ _ (by simpa using h)

theorem packageFailure_keepsMem (k : Fin 20) : KeepsMem (.packageFailure k) := by
  intro s t hx h
  replace hx : execPackageFailure k s = .next t := hx
  simp only [execPackageFailure, onDev] at hx
  cases hx
  dsimp only
  split
  · exact h
  · simp only [Dev.fire_mem, Dev.setMem_mem]
    split
    · exact Mem.wf_setPkg _ _ _ h
    · exact Mem.wf_freshHealth _ (Mem.wf_setPkg _ _ _ h)

theorem Dev.retrainPkg_wf (d : Dev) (k : Nat) (b : Bool) (h : d.mem.wf = true) : (d.retrainPkg k b).mem.wf = true := by
  unfold Dev.retrainPkg
  dsimp only
  split
  · exact Mem.wf_setPkg _ _ _ h
  · exact h

theorem packageRetrainRetry_keepsMem (k : Fin 20) (b : Bool) : KeepsMem (.packageRetrainRetry k b) := by
  intro s t hx h
  replace hx : execPackageRetrainRetry k b s = .next t := hx
  simp only [execPackageRetrainRetry, onDev] at hx
  cases hx
  exact Dev.retrainPkg_wf _ _ _ h

theorem rebuildStripe_keepsMem (k : Fin 20) : KeepsMem (.rebuildStripe k) := by
  intro s t hx h
  replace hx : execRebuildStripe k s = .next t := hx
  simp only [execRebuildStripe, onDev] at hx
  cases hx
  dsimp only
  split
  · exact h
  · split
    · rw [Dev.setMem_mem]; exact Mem.wf_setPkg _ _ _ h
    · split
      · exact h
      · split
        · exact Mem.wf_setPkg _ _ _ (Mem.wf_encode _ _ _ (Dev.countFixed_wf _ _ _ h))
        · simpa using h

theorem retirePackage_keepsMem (v : Word32) : KeepsMem (.retirePackage v) := by
  intro s t hx h
  replace hx : execRetirePackage v s = .next t := hx
  simp only [execRetirePackage, onDev] at hx
  cases hx
  generalize F.MEM_RETIRE_CMD_PKG.get v = k
  generalize (if 20 ≤ k then 2 else if (s.dev.mem.pkg k).st = .retired then 3 else if 2 ≤ s.dev.mem.nErased then 2 else 1) = res
  by_cases hg : F.MEM_RETIRE_CMD_GO.get v = 0
  · simpa [hg] using h
  · by_cases hr : res = 1
    · simpa [hg, hr] using Mem.wf_retire _ _ _ _ h
    · simpa [hg, hr] using h

theorem retirementRecord_keepsMem (k : Fin 20) : KeepsMem (.retirementRecord k) := by
  intro s t hx h
  replace hx : execRetirementRecord k s = .next t := hx
  simp only [execRetirementRecord, onDev] at hx
  cases hx
  dsimp only
  split
  · exact Mem.wf_setPkg _ _ _ h
  · exact h

theorem correctionWindowEnd_keepsMem : KeepsMem .correctionWindowEnd := by
  intro s t hx h
  replace hx : execCorrectionWindowEnd s = .next t := hx
  simp only [execCorrectionWindowEnd, onDev] at hx
  cases hx
  refine foldl_keeps (fun m : Mem => m.wf = true) _ (fun m k hm => Mem.wf_setPkg _ _ _ hm) _ _ ?_
  have hd := foldl_keeps (fun e : Dev => e.mem.wf = true)
    (fun d k => if s.dev.fld Reg.MEM_CTRL F.MEM_CTRL_AUTO_RETIRE = 1 ∧ d.mem.nErased < 2 then (d.setMem (d.mem.retire k 2 d.opsec)).fire 40 k else d)
    (fun e k he => by
      split
      · simpa using Mem.wf_retire _ _ _ _ he
      · exact he) s.dev.overThresh s.dev h
  repeat' split
  · rw [Dev.setMem_mem]; exact hd
  · exact hd
  · rw [Dev.emit_mem, Dev.setMem_mem]; exact hd
  · exact hd

theorem mapWordUncorrectable_keepsMem (k : Nat) : KeepsMem (.mapWordUncorrectable k) := by
  intro s t hx h
  replace hx : execMapWordUncorrectable k s = .next t := hx
  simp only [execMapWordUncorrectable, onDev] at hx
  cases hx
  split
  · exact h
  · rw [Mem.wf_iff] at h ⊢
    simp only [Dev.fire_mem, Dev.raise_mem]
    exact ⟨h.1, Tab.wf_clearRange _ _ _ _ h.2.1, Tab.wf_clearRange _ _ _ _ h.2.2.1, Tab.wf_set false _ _ _ h.2.2.2.1, h.2.2.2.2⟩

theorem oweDrainEnd_keepsMem (p : Nat) : KeepsMem (.oweDrainEnd p) := by
  intro s t hx h
  replace hx : execOweDrainEnd p s = .next t := hx
  simp only [execOweDrainEnd, onDev] at hx
  cases hx
  dsimp only
  split <;> exact h

theorem oweBackInvalidateEnd_keepsMem (p : Nat) (w : List LineWb) : KeepsMem (.oweBackInvalidateEnd p w) := by
  intro s t hx h
  replace hx : execOweBackInvalidateEnd p w s = .next t := hx
  simp only [execOweBackInvalidateEnd, onDev] at hx
  cases hx
  dsimp only
  split
  · exact h
  · refine Mem.wf_owePhase _ _ _ ?_
    have hl := foldl_keeps (fun e : Dev => e.mem.wf = true) (fun (d : Dev) (w : LineWb) =>
      if plotAt w.ma ≠ p then d
      else if d.mem.isLost p then d.reportUE (stripeOf w.ma)
      else if d.mem.owed (granuleOf w.ma) then d
      else (d.performWrite [] w.ma w.data false).1) (fun e x he => by
        repeat' split
        all_goals first
          | exact he
          | simpa using he
          | exact Dev.performWrite_wf _ _ _ _ _ he) w s.dev h
    have hb : ∀ e : Dev, e.mem.wf = true → ((e.backInvalidate (p * 2 ^ 30) (2 ^ 30)).mem).wf = true := fun e he => by simpa using he
    exact hb _ hl

theorem oweSetEnd_keepsMem (p : Nat) : KeepsMem (.oweSetEnd p) := by
  intro s t hx h
  replace hx : execOweSetEnd p s = .next t := hx
  simp only [execOweSetEnd, onDev] at hx
  cases hx
  dsimp only
  split
  · exact h
  · refine Dev.runWaiting_wf _ ?_
    rw [Mem.wf_iff] at h ⊢
    dsimp only
    exact ⟨h.1, Tab.wf_clearRange _ _ _ _ h.2.1, Tab.wf_clearRange _ _ _ _ h.2.2.1, Tab.wf_set false _ _ _ h.2.2.2.1, h.2.2.2.2⟩

end Sys2Proof.Machine
end

