-- ==== Sys2Proof/Tests/Slice0.lean ====
section
/-! SUPPORT. Tests: ill-formed commands, kernel words written out from the layouts, and for each statement of
Certificates/Slice0/Obligations.lean a concrete state that meets the hypotheses of its clauses. -/

namespace Sys2Proof.Tests
open Sys2Proof Sys2Proof.Machine
set_option maxRecDepth 20000
set_option Elab.async false

/-! ### Small states -/

/-- A module that runs: supplies on, clocks stable, memory trained, Gatehouse up, core A active and core B in step. -/
def up : Dev :=
  let d : Dev := { Dev.reset with gate := { Dev.reset.gate with up := true, phase := 7 }, mem := { Dev.reset.mem with trained := true }, sup := { Dev.reset.sup with link := true, memory := true, compute := true, pwrgood := true, valve := true }, boot := { Dev.reset.boot with qualified := true, alwaysOn := true, selfTest := true, released := true, trained := true, compute := true, keys := true, running := false, recorded := true } }
  let d := (List.range 5).foldl (fun d k => d.setSrcState k 1) d
  (((d.setFld Reg.KDV_STATE F.KDV_STATE_MODE 0).setCoreSt 0 0).setCoreSt 1 1).setFld Reg.SUN_HB_STATUS F.SUN_HB_STATUS_HB_LOST 0
/-- A share of descriptor 1 of queue 5. -/
def share : Share := { q := 5, seq := 1, rank := 0, nshare := 1, lpav := 0, args := 0x1000, code := 0x100, codeLen := 0x800, argsLen := 64, seed := 7, lmod := 0, nmod := 1, group := 3 }
/-- A steward that issues. -/
def pav : Pav := { Pav.reset 2 with allot := 1, logical := some 0, share := some share, pc := 0x100, s := [(1, 0x2000), (2, 0xFFFFFFFFFFFFFFF0), (3, 77), (4, 0x4000), (5, 8), (6, 0x1003000)], d := [(1, { BedDesc.zero with base := 0x5000, ext0 := 63, fmt := 0 })] }
/-- A descriptor from (byte, low bit, value). -/
def desc (l : List (Nat × Nat × Nat)) : BitVec 1024 := BitVec.ofNat 1024 ((l.map (fun e => e.2.2 * 2 ^ (8 * e.1 + e.2.1))).sum)
/-- An accepted descriptor that has started. -/
def exec1 (seq : Nat) (dat : BitVec 1024) : Exec := { seq := seq, data := dat, started := true, complete := false, issued := false, status := 0, flags := 0, fault := 0, faultRank := none, lpav := 0, pc := 0, energy := 0, replayed := false, shares := [], contribs := [], gangDone := false, gangPh := .none, sendLeft := false, ord := 0, rxOther := false, rearm := false, redo := false }
/-- A KERNEL with code at plot address 0x10000 and arguments at 0x20000. -/
def kern : BitVec 1024 := desc [(0, 0, 1), (0x0C, 0, 3), (0x20, 0, 0x10000), (0x28, 0, 0x20000), (0x30, 0, 0x100), (0x34, 0, 0x1000), (0x38, 0, 0x200), (0x3C, 0, 16), (0x40, 0, 77), (0x48, 0, 3)]
/-- An allotment with Pavilions 2 and 3, plot 4, blocks 70 and 71 and queue 5, whose shares run on both Pavilions. -/
def run : Dev := { (up.setPav 2 pav).setPav 3 { pav with logical := some 1, share := some { share with lpav := 1, rank := 1 } } with allots := [(1, { Allot.reset with st := .bound, token := 9, pavs := [(0, some 2), (1, some 3)], plots := [(0, some (4, false))], blocks := [(0, some 70), (1, some 71)], queues := [(0, some 5)] })], qs := [(5, { Queue.reset with st := .running, allot := 1, execs := [{ exec1 1 kern with shares := [(0, .running), (1, .running)] }] })] }
/-- The same with a change of Pavilion 2. -/
def runP (f : Pav → Pav) : Dev := run.updPav 2 f
/-- The same with a change of queue 5. -/
def runQ (f : Queue → Queue) : Dev := run.updQueue 5 f
/-- A Pavilion that issues (the parts of `Ready`). -/
def readyB (d : Dev) (p : Nat) : Bool := d.canIssue p && (d.pav p).deferred.isNone && (d.pav p).pcOk

/-! ### Ill-formed commands are refused (WellFormed.lean) -/

theorem test_wf_host : (Instr.hostMemRead ⟨32, none⟩).wf = false ∧ (Instr.hostMemWrite 32 (List.replicate 64 0) ⟨false, none⟩).wf = false ∧
    (Instr.hostMemWrite 64 [] ⟨false, none⟩).wf = false ∧ (Instr.oweBackInvalidateEnd 0 [⟨32, List.replicate 64 0⟩]).wf = false ∧
    (Instr.oweBackInvalidateEnd 0 [⟨64, []⟩]).wf = false := by decide
theorem test_wf_trellis : (Instr.linkFlit 0 ⟨0, [], List.replicate 496 0, 0⟩).wf = false ∧ (Instr.linkFlit 0 ⟨0, List.replicate 8 0, [], 0⟩).wf = false ∧
    (Instr.bedData (up.mkFrame 1 9 4 0 (List.replicate 15 0) |> fun f => { f with payload := [0] })).wf = false ∧
    (Instr.event { up.mkFrame 1 9 4 0 [] with payload := List.replicate 1040 0 }).wf = false := by decide +kernel
theorem test_wf_can : (Instr.canFrameReceive .tb0 (.frame ⟨false, false, false, false, false, false, 2048, 0, []⟩ 0)).wf = false ∧
    (Instr.canFrameReceive .tb0 (.frame ⟨false, false, false, false, false, false, 1, 9, List.replicate 9 0⟩ 0)).wf = false ∧
    (Instr.canFrameReceive .tb0 (.frame ⟨true, true, false, false, false, false, 2048, 15, List.replicate 65 0⟩ 0)).wf = false := by decide
theorem test_wf_lists : (Instr.bind ⟨1, .ok, none⟩ (List.replicate 65536 0)).wf = false ∧ (Instr.unbind ⟨1, .ok, none⟩ (List.replicate 65536 0)).wf = false ∧
    (Instr.clear ⟨1, .ok, none⟩ (List.replicate 65536 0)).wf = false := by
  simp only [Instr.wf, List.length_replicate]; decide
theorem test_wf_access : (Instr.configRequest 0 2 none).wf = false ∧ (Instr.configRequest 0 4096 none).wf = false ∧
    (Instr.registerWrite 0 0 2).wf = false ∧ (Instr.registerWrite 4 0 8).wf = false ∧ (Instr.rcFieldRead 2 4).wf = false ∧
    (Instr.rcFieldRead 0 1).wf = false ∧ (Instr.bar0RefusedAccess 0x4000000 1 true).wf = false ∧ (Instr.bar0RefusedAccess 8 4 true).wf = false := by decide
theorem test_wf_errors : (Instr.scrubStripe [⟨0, 1, 2, 0⟩]).wf = false ∧ (Instr.memoryRead 0 1 [⟨0, 1, 2, 0⟩]).wf = false ∧
    (Instr.memoryWrite 0 [1] [⟨0, 1, 2, 0⟩]).wf = false := by decide

/-! ### Kernel words of Table 3-28 and of the layouts of chapter 3, field by field -/

theorem test_word_ldi : decodeK 0x0010800000000000 = some (.scalar 0x01 ⟨1, 0, 0, 0, 0⟩) := by decide
theorem test_word_rdsr : decodeK 0x03E0800000000003 = some (.scalar 0x3E ⟨1, 0, 0, 0, 3⟩) := by decide
theorem test_word_desc : decodeK 0x2010008000000000 = some (.desc 0x01 ⟨0, 0, 1, 0, 0⟩) := by decide
theorem test_word_tmul : decodeK 0x3010100000000000 = some (.tmul ⟨0, 1, 0, 0, 0, 0, 0⟩) := by decide
theorem test_word_vector : decodeK 0x4010000000000000 = some (.vec 0x01 ⟨0, 0, 0, 0, 0, 0, 0, 0, 0⟩) := by decide
theorem test_word_move : decodeK 0x5010102000000000 = some (.move 0x01 ⟨0, 2, 0, 1, 0, 0, 0, 0⟩) := by decide
theorem test_word_ewait : decodeK 0x6020000000000002 = some (.ewait ⟨0, 0, 0, 0, 2⟩) := by decide
theorem test_word_hint : decodeK 0x7010000000000000 = some (.hint ⟨0, 0, 0, 0⟩) := by decide
theorem test_word_reserved : decodeK 0x1000000000000000 = none ∧ decodeK 0 = none := by decide

/-! ### Hypotheses that a state meets: the kernel instructions (chapter 3) -/

/-- StepRunsFrontCommand, KernelDecodeOfEncode, KernelEncodeOfDecode, ScalarOps, ScalarFaults: the hypotheses on the queue, the instruction and the steward. -/
theorem test_meets_ScalarOps : (State.reset.pending = []) ∧ (KInsn.scalar 0x01 ⟨1, 0, 0, 0, 0⟩).wf = true ∧ readyB run 2 = true ∧
    (run.pav 2).share = some share ∧ QueueWf State.reset := by
  refine ⟨rfl, by decide, by decide +kernel, by decide +kernel, ?_⟩
  intro c h
  cases h
theorem test_meets_Ready : Ready run 2 := by
  refine ⟨by decide +kernel, by decide +kernel, by decide +kernel⟩
/-- BedWordsAndBranches: the first word of the bed and the last; ScalarFaults: the first address beyond each. -/
theorem test_meets_BedWords :
    (let x := run.pav 2; let a := (x.sreg 0 + (0 : BitVec 32).signExtend 64).toNat; a % 8 = 0 ∧ a + 8 ≤ bedSize ∧ x.hitsCode a (a + 8 : Nat) = false) ∧
    (let a := ((run.pav 2).sreg 0 + (0x27FFF8 : BitVec 32).signExtend 64).toNat; a % 8 = 0 ∧ a + 8 = bedSize) ∧
    (let a := ((run.pav 2).sreg 0 + (0x280000 : BitVec 32).signExtend 64).toNat; a % 8 = 0 ∧ bedSize < a + 8) ∧
    ((run.pav 2).sreg 0 + (0x27FFF1 : BitVec 32).signExtend 64).toNat % 8 ≠ 0 ∧ ¬ (9 ≤ (8 : BitVec 32).toNat) ∧ 9 ≤ (9 : BitVec 32).toNat := by decide +kernel
/-- DescriptorOps: a descriptor at the last aligned place of the bed, and a BASE moved down to 0. -/
theorem test_meets_DescriptorOps :
    (let x := run.pav 2; let a := (x.sreg 0 + (0x27FFE0 : BitVec 32).signExtend 64).toNat;
      a % 32 = 0 ∧ a + 32 = bedSize ∧ (BedDesc.ofBytes (x.bedRead a 32)).isSome = true ∧ x.hitsCode a (a + 32 : Nat) = false) ∧
    (((run.pav 2).dreg 1).base.toNat : Int) + ((run.pav 2).sreg 0 + (0xFFFFB000 : BitVec 32).signExtend 64).toInt = (0 : Nat) ∧ 0 < bedSize := by decide +kernel
/-- A scaled or plain bed descriptor. -/
def bed (fmt : BitVec 4) (scaled : BitVec 1) (base sbase : BitVec 22) (e0 e1 : BitVec 16) (st : BitVec 32) : BedDesc := { BedDesc.zero with fmt := fmt, scaled := scaled, base := base, scaleBase := sbase, ext0 := e0, ext1 := e1, stride1 := st }
/-- Descriptors 1 and 2 of Pavilion 2. -/
def withD (a b : BedDesc) : Dev := runP (fun x => { x with d := [(1, a), (2, b)] })
/-- TmulCells: a 3 × 2 product of E4M3 operands over K = 8, and one of scaled E2M1 operands over K = 32. -/
theorem test_meets_TmulCells :
    (let d := withD (bed 3 0 0x5000 0 7 2 8) (bed 3 0 0x5040 0 7 1 8); let x := d.pav 2; let a := x.dreg 1; let b := x.dreg 2;
      readyB d 2 = true ∧ Fmt.ofCode a.fmt.toNat = some .e4m3 ∧ Fmt.ofCode b.fmt.toNat = some .e4m3 ∧ Fmt.scaleOk .e4m3 false = true ∧
      pairKind .e4m3 false .e4m3 false = some (.narrow 18) ∧ a.scaled ≠ 1 ∧ b.scaled ≠ 1 ∧ a.e0 = b.e0 ∧ a.e0 ≤ min (Fmt.kt .e4m3) (Fmt.kt .e4m3) ∧
      a.e1 ≤ 128 ∧ b.e1 ≤ 64 ∧ a.e2 = 1 ∧ a.e3 = 1 ∧ b.e2 = 1 ∧ b.e3 = 1 ∧ x.fillBad 0 (.narrow 18) = false ∧ a.out (Fmt.bits .e4m3) false = false ∧
      b.out (Fmt.bits .e4m3) false = false ∧ x.slot 0 = none) ∧
    (let x := (withD (bed 6 1 0x5000 0x6000 31 2 16) (bed 6 1 0x5040 0x6010 31 1 16)).pav 2; let a := x.dreg 1; let b := x.dreg 2;
      Fmt.ofCode a.fmt.toNat = some .e2m1 ∧ Fmt.scaleOk .e2m1 true = true ∧ pairKind .e2m1 true .e2m1 true = some .wide ∧ a.scaled = 1 ∧ a.e0 % 32 = 0 ∧
      b.e0 % 32 = 0 ∧ a.e0 = b.e0 ∧ a.e0 ≤ Fmt.kt .e2m1 ∧ x.fillBad 0 .wide = false ∧ a.out (Fmt.bits .e2m1) true = false ∧
      b.out (Fmt.bits .e2m1) true = false) := by decide +kernel
/-- A filled slot of 3 × 2 cells. -/
def slot : Slot := { fa := .e4m3, sa := false, fb := .e4m3, sb := false, kind := .narrow 18, m := 3, n := 2, cells := [(0, ⟨5, false, false⟩), (4, ⟨2 ^ 127 - 1, false, true⟩), (5, ⟨0, true, false⟩)] }
/-- A Pavilion whose slot 0 is filled and whose bed holds the slot's image. -/
def slotDev : Dev := (withD (bed 0 0 0x7000 0 1 2 8) BedDesc.zero).updPav 2 (fun x => (x.setSlot 0 (some slot)).bedWrite 0x7000 slot.image)
/-- TensorSlotOps: TCLR, TREAD and TSAVE of the filled slot, TLOAD of its image into the other. -/
theorem test_meets_TensorSlotOps : let x := slotDev.pav 2; let g := x.dreg 1; let k := slot.kind.cellBytes * 6;
    readyB slotDev 2 = true ∧ x.slotBad 0 = false ∧ x.slot 0 = some slot ∧ g.check = .ok .fp32 ∧ g.e0 = slot.n ∧ g.e1 = slot.m ∧ g.e2 = 1 ∧ g.e3 = 1 ∧
    g.scaled ≠ 1 ∧ x.writeHits g (Fmt.bits .fp32) 0 g.count = false ∧ g.base.toNat % 64 = 0 ∧ g.base.toNat + slot.image.length ≤ bedSize ∧
    x.hitsCode 0x7000 (0x7000 + slot.image.length : Nat) = false ∧ x.fillBad 1 (.narrow 18) = false ∧
    x.bedRead 0x7000 64 = [BitVec.ofNat 8 (slot.fa.code + 16 * slot.fb.code), 0, 2, 1, 1] ++ List.replicate 59 0 ∧
    restoreCells (.narrow 18) 6 (x.bedRead 0x7040 k) (x.bedRead (0x7040 + k) 2) true = some slot.cells := by decide +kernel
/-- VectorOps: a conversion to BF16, a store through a FP32 descriptor and a table of the bed. -/
theorem test_meets_VectorOps : (Fmt.ofCode 1 = some .bf16 ∧ Fmt.mustScale .bf16 = false) ∧
    (let d := withD (bed 0 0 0x5000 0 100 2 8) BedDesc.zero; let x := d.pav 2;
      let f : VecF := { vd := 3, va := 0, vb := 1, vc := 0, rmode := 3, d := 1, sx := 0, rsv := 0, nlane := 255 };
      readyB d 2 = true ∧ f.nlane.toNat ≤ 255 ∧ f.rmode.toNat ≤ 3 ∧ x.vecDesc f = .ok .fp32 ∧ (x.dreg f.d).scaled ≠ 1 ∧
      x.writeHits (x.dreg f.d) (Fmt.bits .fp32) 0 (vLanes f) = false ∧ (x.dreg f.d).base.toNat % 16 = 0 ∧ (x.dreg f.d).base.toNat + 528 ≤ bedSize) := by decide +kernel
/-- BedStoreFrame: a byte beside a store, and one beside the elements of a scaled descriptor. -/
theorem test_meets_BedStoreFrame : (0x2FFF < 0x3000 ∨ 0x3000 + 8 ≤ 0x2FFF) ∧
    (let g := bed 6 1 0x5000 0x6000 31 2 16; g.scaled = 1 ∧ ∀ k, k < 32 →
      ¬ ((g.bitAt (Fmt.bits .e2m1) k).toNat / 8 ≤ 0x5010 ∧ 0x5010 < ((g.bitAt (Fmt.bits .e2m1) k).toNat + Fmt.bits .e2m1 + 7) / 8) ∧
      0x5010 ≠ g.scaleAt (32 * (k / 32))) := by decide +kernel
/-- ScalarFaults and DescriptorOps, where they stop: a reserved field, a zero COUNT, the last word and the last 32 bytes of the code image, reserved fields of a
descriptor in the bed, a BASE moved to -1 and to the end of the bed. -/
theorem test_meets_Stops :
    (kernelCmd ⟨2, 0⟩ 0 (.scalar 1 ⟨1, 0, 0, 1, 0⟩)).isSome = true ∧ (KInsn.scalar 1 ⟨1, 0, 0, 1, 0⟩).rsvBad = true ∧
    (kernelCmd ⟨2, 0⟩ 0 (.esig ⟨0, 0, 0, 0, 0⟩)).isSome = true ∧ (KInsn.esig ⟨0, 0, 0, 0, 0⟩).rsvBad = true ∧
    (run.pav 2).hitsCode 0x8F8 0x900 = true ∧ (run.pav 2).hitsCode 0x900 0x908 = false ∧ (run.pav 2).hitsCode 0x8E0 0x900 = true ∧
    BedDesc.ofBytes (((run.pav 2).bedWrite 0x6000 (List.replicate 32 255)).bedRead 0x6000 32) = none ∧
    (((run.pav 2).dreg 1).base.toNat : Int) + ((run.pav 2).sreg 0 + (0xFFFFAFFF : BitVec 32).signExtend 64).toInt = -1 ∧
    (((run.pav 2).dreg 1).base.toNat : Int) + ((run.pav 2).sreg 0 + (0x27B000 : BitVec 32).signExtend 64).toInt = (bedSize : Int) := by decide +kernel
/-- TmulCells: the same product with A and B the other way round. -/
theorem test_meets_TmulTransposed : let x := (withD (bed 3 0 0x5000 0 2 7 8) (bed 3 0 0x5040 0 1 7 8)).pav 2; let a := x.dreg 1; let b := x.dreg 2;
    a.e1 = b.e1 ∧ a.e1 ≤ min (Fmt.kt .e4m3) (Fmt.kt .e4m3) ∧ a.e0 = 3 ∧ b.e0 = 2 ∧ a.out (Fmt.bits .e4m3) false = false ∧ b.out (Fmt.bits .e4m3) false = false := by decide +kernel
/-- VectorOps: a store of 32 lanes from index 32 of a scaled descriptor. -/
theorem test_meets_VstScaled : let x := (withD (bed 6 1 0x5000 0x6000 63 2 32) BedDesc.zero).pav 2;
    let f : VecF := { vd := 3, va := 0, vb := 1, vc := 0, rmode := 4, d := 1, sx := 8, rsv := 0, nlane := 31 };
    x.vecDesc f = .ok .e2m1 ∧ (x.dreg f.d).scaled = 1 ∧ (32 : Nat) % 32 = 0 ∧ vLanes f % 32 = 0 ∧ x.writeHits (x.dreg f.d) (Fmt.bits .e2m1) 32 (vLanes f) = false := by decide +kernel

/-- MovementStarts: a load and a store of plot memory, a message to Pavilion 3, a wait that is over, one that blocks, a fence with nothing outstanding. -/
theorem test_meets_MovementStarts :
    (let x := run.pav 2; let b := x.dreg 1;
      b.checkMove = .ok (32, 256) ∧ run.plotMA 1 (x.sreg 1) 256 = some 0x100002000 ∧ x.scatterHits b 32 = false ∧
      run.destOf 1 (x.sreg 6) = some (0, 1, 0x3000) ∧ 0 ≤ (x.evc 3).toNat ∧ (x.evc 3).toNat < 1 ∧ x.moved = true) ∧
    ((runP (fun x => { x with xfers := [x.mkXfer .mld 5 (x.dreg 1) true 3] })).pav 2).moved = false := by decide +kernel
/-- MovementStarts: 64 FP32 values of the bed to block 0, and the 8 × 8 cells of a slot to block 1023. -/
theorem test_meets_CsendStarts :
    (let x := run.pav 2; let b := x.dreg 1; let pk := run.bedPackets x share b .fp32 77 0;
      b.check = .ok .fp32 ∧ b.count % 64 = 0 ∧ pk.length = 1 ∧ 0 < 2 ^ 16 ∧ 0 < (run.allot 1).nmod ∧ run.lmod (run.allot 1) = 0 ∧
      ∀ k ∈ pk, (run.blkOf 1 k.blk).isSome = true) ∧
    (let t : Slot := { slot with m := 8, n := 8, cells := [] }; let x := (runP (fun x => x.setSlot 1 (some t))).pav 2;
      x.slotBad 1 = false ∧ x.slot 1 = some t ∧ t.m * t.n % 64 = 0 ∧ (run.slotPackets share t 77 1023).1.length + 1023 ≤ 1024) := by decide +kernel
/-- MovementStarts, where they stop: a descriptor of no format, one that writes the code image, plot memory outside the allotment, no destination, values not a
multiple of 64, a module outside the binding, an empty slot. -/
theorem test_meets_MovementStops : let x := run.pav 2;
    (match ({ BedDesc.zero with fmt := 15 } : BedDesc).checkMove with | .error c => faultNum c | .ok _ => 0) = 3 ∧
    x.scatterHits (bed 0 0 0x8FC 0 63 0 0) 32 = true ∧ run.plotMA 1 (BitVec.ofNat 64 (2 ^ 30 - 4)) 256 = none ∧
    run.destOf 1 0xFFFFFFFFFFFFFFFF = none ∧ (bed 0 0 0x5000 0 62 0 0).check = .ok .fp32 ∧ (bed 0 0 0x5000 0 62 0 0).count % 64 = 63 ∧
    ¬ ((1 : Nat) < (run.allot 1).nmod) ∧ x.slot 0 = none ∧ x.slotBad 1 = false := by decide +kernel
/-- A movement that is outstanding. -/
def xfer (k : XferKind) : Xfer := { pav.mkXfer k 5 (pav.dreg 1) true 3 with id := 4, ma := 0x100002000, len := 256 }
def runX (t : Xfer) : Dev := runP (fun x => { x with xfers := [t], nextId := 5 })
/-- MovementEnds: each kind of movement as it ends, a fault report, and the two waits. -/
theorem test_meets_MovementEnds :
    (((runX (xfer .mld)).pav 2).xfer? 4 = some (xfer .mld) ∧ ((runX (xfer .mld)).memRead (.xfer 2 4) 0x100002000 256).2 = .ok (List.replicate 256 0)) ∧
    (let d := { runX { xfer .mst with data := List.replicate 256 7 } with mem := { run.mem with clean := [(65536, true)] } };
      (d.memWrite (.xfer 2 4) 0x100002000 (List.replicate 256 7)).2 = .ok [] ∧ ((d.pav 2).xfer? 4).isSome = true) ∧
    (xfer .csend).pkts = [] ∧ ({ xfer .esig with sent := true } : Xfer).ev = true ∧ (xfer .esig).dstMod = run.lmod (run.allot 1) ∧
    (run.pav 2).faulted = false ∧ (run.pav 2).block = none ∧ (run.pav 2).deferred = none ∧
    (let x := (runP (fun x => { x with block := some (.ewait 3 0) })).pav 2; x.block = some (.ewait 3 0) ∧ 0 ≤ (x.evc (BitVec.ofNat 6 3)).toNat) ∧
    (let x := (runP (fun x => { x with block := some .fence })).pav 2; x.block = some .fence ∧ x.moved = true) := by decide +kernel
/-- MovementEnds: a waiting read, a lost plot, a Pavilion that waits as its fault comes, one stopped already, and a counter at its end. -/
theorem test_meets_MovementFails :
    ((({ runX (xfer .mld) with mem := { run.mem with filling := [65536] } } : Dev).memRead (.xfer 2 4) 0x100002000 256).2 = .wait) ∧
    ((({ runX (xfer .mld) with mem := { run.mem with lost := [(4, true)] } } : Dev).memRead (.xfer 2 4) 0x100002000 256).2 = .bad) ∧
    ((({ runX (xfer .mst) with mem := { run.mem with lost := [(4, true)] } } : Dev).memWrite (.xfer 2 4) 0x100002000 [1]).2 = .bad) ∧
    (let y := (runP (fun x => { x with xfers := [xfer .mld], nextId := 5, block := some .fence })).pav 2;
      (y.xfer? 4).isSome = true ∧ y.faulted = false ∧ y.block.isSome = true ∧ y.deferred = none) ∧
    ((runP (fun x => { x with xfers := [xfer .mld], faulted := true })).pav 2).faulted = true ∧
    (let y := (runP (fun x => x.setEvc 3 0xFFFFFFFF)).pav 2; (xfer .mld).ev = true ∧ y.share.isSome = true ∧ y.faulted = false ∧ 2 ^ 32 ≤ (y.evc 3).toNat + 1) ∧
    FaultCode.island ∉ [FaultCode.memory, .access, .format, .bedRange, .remote] ∧ (runX (xfer .mld)).pav 2 ≠ run.pav 2 ∧ (run.pav 2).xfer? 4 = none := by decide +kernel
/-- LocalMessages: bytes that end at the end of the bed, and a count that just fits its counter. -/
theorem test_meets_LocalMessages :
    (let t : Xfer := { xfer .rsend with data := List.replicate 32 5, dstPav := 1, bedAddr := 0x27FFE0, landOrd := 1, ord := 1 }; let d := runX t; let x := d.pav 2; let y := d.pav 3;
      x.xfer? 4 = some t ∧ t.sent = false ∧ t.dstMod = d.lmod (d.allot 1) ∧ d.pavOf 1 1 = some 3 ∧ x.evAhead t = false ∧ x.landAhead t = false ∧
      x.retryAhead t = false ∧ y.share.map (·.group) = some x.group ∧ y.faulted = false ∧ t.landed = false ∧ t.bedAddr.toNat + t.data.length = bedSize ∧
      y.hitsCode t.bedAddr.toNat (t.bedAddr.toNat + t.data.length : Nat) = false ∧ (y.srcMark d.moduleId 0).landOrd < t.landOrd) ∧
    (let t : Xfer := { xfer .esig with count := 0xFFFFFFFF, dstPav := 1, ord := 1 }; let d := runX t; let y := d.pav 3;
      (d.pav 2).xfer? 4 = some t ∧ (d.pav 2).evAhead t = false ∧ (y.srcMark d.moduleId 0).evOrd < t.ord ∧
      (y.srcs.filter (fun j => j.evOrd != 0)).length < 256 ∧ (y.evc t.evn).toNat + t.count.toNat < 2 ^ 32) := by decide +kernel
/-- A KERNEL whose share waits for Pavilion 2. -/
def waiting : Dev := { (up.setPav 2 { pav with share := none }) with allots := run.allots, qs := [(5, { Queue.reset with st := .running, allot := 1, accept := 2, execs := [{ exec1 1 kern with shares := [(0, .waiting)] }] })] }
/-- ShareLife: a share that may start. -/
theorem test_meets_ShareStart : let d := waiting; let x := d.pav 2; let e : Exec := { exec1 1 kern with shares := [(0, .waiting)] };
    d.exec? 5 1 = some e ∧ x.logical = some 0 ∧ e.started = true ∧ e.complete = false ∧ e.typ = 1 ∧ e.shares.contains (0, .waiting) = true ∧
    x.allot = d.qAllot 5 ∧ x.allot ≠ 0 ∧ d.pavOf 1 0 = some 2 ∧ x.share = none ∧ x.withdrawn = false ∧ x.clearing = false ∧ e.gangPh = .none ∧
    e.faultRank = none ∧ (d.queue 5).sharesRun = true ∧ d.shareTurn 1 0 e.ord = true ∧ d.computeOn = true ∧ d.quiesced = false ∧
    e.f 0x38 0 32 ≠ 0 ∧ e.f 0x3C 0 32 ≠ 0 ∧ d.plotMA 1 (BitVec.ofNat 64 (e.f 0x20 0 64)) 0x200 = some 0x100010000 ∧
    d.plotMA 1 (BitVec.ofNat 64 (e.f 0x28 0 64)) 16 = some 0x100020000 ∧
    (let d2 := (d.issueRead (.start 2 5 1 0) 0x100010000 0x200).issueRead (.start 2 5 1 1) 0x100020000 16;
     d2.mem.resultOf (.start 2 5 1 0) = .ok (List.replicate 0x200 0) ∧ d2.mem.resultOf (.start 2 5 1 1) = .ok (List.replicate 16 0)) := by decide +kernel
/-- ShareLife: a code image that leaves its plot, a share past its limit by 1 us, a word that decodes. -/
theorem test_meets_ShareStops :
    (let e : Exec := { exec1 1 (desc [(0, 0, 1), (0x20, 0, 0x3FFFFFFF), (0x38, 0, 0x200)]) with shares := [(0, .waiting)] };
      e.f 0x38 0 32 ≠ 0 ∧ waiting.plotMA 1 (BitVec.ofNat 64 (e.f 0x20 0 64)) (e.f 0x38 0 32) = none) ∧
    (let d := (runP (fun x => { x with runUs := 1001 })).setFld (Reg.PAV_SHARE_LIMIT 2) F.PAV_SHARE_LIMIT_LIMIT 1;
      d.running 2 = true ∧ 1000 * d.fld (Reg.PAV_SHARE_LIMIT 2) F.PAV_SHARE_LIMIT_LIMIT < (d.pav 2).runUs) ∧
    (decodeK 0x0010800000000000).isSome = true := by decide +kernel
/-- ShareLife: the ends of a share, and a hardware fault with a spare free. -/
theorem test_meets_ShareLife :
    (let x := (runP (fun x => { x with block := some .ending })).pav 2; x.share = some share ∧ x.block = some .ending ∧ x.xfers = [] ∧ x.faulted = false ∧ x.stopped = false) ∧
    (((run.updExec 5 1 (fun e => { e with faultRank := some 1 })).exec? 5 1).map (fun e => (e.faultRank.isSome, e.complete)) = some (true, false)) ∧
    decodeK 0xF000000000000000 = none ∧ isHardware .bedEcc = true ∧ (up.pav 2).share = none ∧ (up.pav 2).withdrawn = false ∧
    (let x := run.pav 2; x.rxSame = false ∧ x.rxOther = false ∧ x.spare = false ∧ x.logical = some 0 ∧ (run.exec? 5 1).isSome = true ∧ run.spares ≠ []) := by decide +kernel
/-- GovernorLeases: a bound Pavilion, a clamp, a rail that settles. -/
theorem test_meets_GovernorLeases : (run.pav 2).allot ≠ 0 ∧ ({ run with clamp := true } : Dev).clamp = true ∧
    ((runP (fun x => { x with settling := true })).pav 2).settling = true ∧
    ((runP (fun x => { x with newLease := true })).pav 2).newLease = true ∧ run.activeCore.isSome = true ∧ (run.pav 2).leaseEnd ≤ run.clock ∧
    run.clock < ((runP (fun x => { x with leaseEnd := run.clock + 1 })).pav 2).leaseEnd ∧ run.org.higher = [] ∧ run.org.lowAt = none ∧
    (let d := (runP (fun x => { x with newLease := true })).setFld Reg.ORG_CTRL F.ORG_CTRL_LEASE_EN 1;
     let e : Dev := { d with org := { d.org with budget := 9000, lowAt := some d.clock, pavs := [(2, { OrgPav.reset with meter := 40 })] } };
     d.grantsHeld = false ∧ e.clock < e.clock + 10 ∧ (e.pav 2).lease < e.firstGrant 2 (e.demandOf 2 (e.limitOf 2 (e.orgPav 2).tlim)) ∧
     (((List.range 160).filter (· != 2)).map e.enforced).sum + (e.pav 2).lease ≤ e.org.budget) := by decide +kernel

/-! ### Cisterns (chapter 4) -/

/-- A REDUCE of blocks 0 and 1 with EXPECT 4. -/
def red : BitVec 1024 := desc [(0, 0, 3), (0x0C, 0, 3), (0x20, 12, 2), (0x20, 19, 4), (0x28, 0, 0), (0x29, 0, 1), (0x40, 0, 1), (0x44, 0, 1), (0x48, 0, 0x3000)]
def redE : Exec := { exec1 1 red with started := false }
def arm : ArmParams := { (redE.armParams 5 0) with partBase := 10 }
def packet (part : BitVec 32) : Packet := { srcModule := run.moduleId, scaled := false, fmtB := 0, fmtA := 1, kind := 0, group := 3, part := part, blk := 0, queue := 5, seq := 7, nanmask := 0, payload := List.replicate 128 9 }
def armed : CisBlk := { CisBlk.reset with allot := 1, st := .armed, group := 3, params := some arm, fresh := false, count := 1, arrived := [(0, true)], ledgers := [(0, ⟨5, false⟩), (3, ⟨-9, true⟩)] }
def csend : Xfer := { pav.mkXfer .csend 5 BedDesc.zero true 3 with id := 4, pkts := [(0, packet 13)] }
/-- Block 70 ARMED or otherwise, with a CSEND whose packet 0 carries part 13. -/
def cis (x : CisBlk) : Dev := { runX csend with blks := [(70, x)] }
/-- CisternCommands: a REDUCE that may start, of an idle block and of a committed one of an older group. -/
theorem test_meets_Reduce : let d := { runQ (fun q => { q with execs := [redE] }) with blks := [(70, { CisBlk.reset with allot := 1 }), (71, { CisBlk.reset with allot := 1, st := .committed, fresh := false, group := 2 })] };
    d.startable 5 1 3 = some redE ∧ redE.typ = 3 ∧ d.reduceBad 1 redE = none ∧ redE.replayed = false ∧ redE.f 0x20 12 7 = 2 ∧
    (d.blk 70).armCase redE.group 5 1 = .arm ∧ (d.blk 71).armCase redE.group 5 1 = .arm ∧ d.blkOf 1 0 = some 70 ∧ d.blkOf 1 1 = some 71 := by decide +kernel
/-- A block that posts to the bed of Pavilion 3. -/
def posting : CisBlk := { armed with st := .posting, params := some { arm with targets := [{ kind := 1, ev := false, evn := 0, module := 0, pav := 1, addr := 0x3000 }], partBase := 3 }, postLeft := [0] }
/-- CisternCommands: arming ends, a readout, the last post that lands, a ledger error, a probe. -/
theorem test_meets_CisternCommands : ({ armed with st := .arming } : CisBlk).st = .arming ∧
    (let p := posting.params.getD arm; let d := cis posting;
      posting.st = .posting ∧ posting.params = some p ∧ p.gather = false ∧ posting.out = [] ∧ (∀ t ∈ p.targets, d.isLocal posting.allot t = true) ∧
      (let y := { posting with out := (posting.readout p).1 };
        y.out ≠ [] ∧ p.targets.length = 1 ∧ y.postLeft = [0] ∧ y.dataDone = [] ∧ (y.pieces p).length = 1 ∧
        ∀ t ∈ p.targets, ∀ e ∈ y.pieces p, t.ev = false ∧ ((cis y).postLocal 1 70 0 0 t e.1 e.2).2 = 0)) ∧
    armed.st ≠ .clearing ∧ armed.st ≠ .committed ∧ armed.params = some arm ∧
    (((runQ (fun q => { q with execs := [{ exec1 1 kern with complete := true, contribs := [⟨1, 1, none, 3, false⟩] }] })).exec? 5 1).map (·.complete)) = some true := by decide +kernel
/-- CisternCommands: a REDUCE that fails its checks, one that meets a FAULTED block and one that meets a block of a newer group; a remote target whose messages are
done, and one with an event on this module. -/
theorem test_meets_CisternStops :
    (let d := { runQ (fun q => { q with execs := [{ redE with data := desc [(0, 0, 3), (0x0C, 0, 3), (0x20, 12, 2), (0x20, 19, 0)] }] }) with blks := [(70, { CisBlk.reset with allot := 1 })] };
      (d.startable 5 1 3).isSome = true ∧ (d.reduceBad 1 { redE with data := desc [(0, 0, 3), (0x0C, 0, 3), (0x20, 12, 2), (0x20, 19, 0)] }).isSome = true) ∧
    ({ CisBlk.reset with allot := 1, st := .faulted, fresh := false, group := 2 } : CisBlk).armCase redE.group 5 1 = .faulted ∧
    ({ CisBlk.reset with allot := 1, st := .committed, fresh := false, group := 4 } : CisBlk).armCase redE.group 5 1 = .bad ∧
    (let y : CisBlk := { posting with out := [1], params := some { arm with targets := [{ kind := 1, ev := true, evn := 0, module := 1, pav := 1, addr := 0x3000 }] } };
      (run.isLocal 1 { kind := 1, ev := true, evn := 0, module := 1, pav := 1, addr := 0x3000 }) = false ∧ postStatus .landed = none ∧ (postStatus .access).isSome = true ∧
      (∀ k ∈ y.evLeft, k.1 ≠ 0) ∧ Tab.get 0 y.sendOut 0 = 0 ∧ y.out ≠ [] ∧ y.postLeft.contains 0 = true) := by decide +kernel
/-- PacketArrivals: a packet that is added, at the first free part and at the last. -/
theorem test_meets_PacketAdds : let d := cis armed; let n := fun (k : Packet) => (k.part - arm.partBase - BitVec.ofNat 32 arm.i).toNat;
    ((d.pav 2).xfer? 4).map (fun t => (t.kind, t.pkts.find? (fun e => e.1 == 0), t.dstMod)) = some (.csend, some (0, packet 13), d.lmod (d.allot 1)) ∧
    d.blkOf 1 0 = some 70 ∧ (d.blk 70).st = .armed ∧ (d.blk 70).params = some arm ∧ (packet 13).group = (d.blk 70).group ∧ arm.gather = false ∧
    ¬ ((packet 13).queue = arm.q ∧ (packet 13).srcModule = d.moduleId ∧ (packet 13).seq < arm.seq) ∧ n (packet 13) + 1 = arm.expect ∧
    Tab.get false armed.arrived (n (packet 13)) = false ∧ n (packet 11) = 1 ∧ Tab.get false armed.arrived 1 = false ∧ armed.count + 1 < arm.expect := by decide +kernel
/-- PacketArrivals: one packet for each row of the decision: no access, retry, discard, own sequence, part beyond EXPECT, format, duplicate. -/
theorem test_meets_PacketDecisions : let n := fun (k : Packet) => (k.part - arm.partBase - BitVec.ofNat 32 arm.i).toNat;
    armed.allot ≠ 2 ∧ CisBlk.reset.st = .idle ∧ groupNewer 4 armed.group = true ∧ groupNewer 0x80000003 armed.group = false ∧ (0x80000003 : BitVec 32) ≠ armed.group ∧
    groupNewer 2 armed.group = false ∧ groupNewer 3 posting.group = false ∧ posting.st = .posting ∧
    ((packet 13).queue = arm.q ∧ (packet 13).srcModule = (cis armed).moduleId ∧ (0 : Nat) < arm.seq) ∧ arm.expect ≤ n (packet 14) ∧ n (packet 13) < arm.expect ∧
    (packet 13).fmtA ≠ arm.fmt ∧ n (packet 10) < arm.expect ∧ Tab.get false armed.arrived (n (packet 10)) = true ∧
    ((cis { armed with group := 4 }).decidePacket 1 70 (packet 13)).2 = .discarded ∧
    (let g : ArmParams := { arm with gather := true, fmt := 1, targets := [{ kind := 1, ev := false, evn := 0, module := 0, pav := 1, addr := 0x3000 }] };
      (cis armed).isLocal 1 { kind := 1, ev := false, evn := 0, module := 0, pav := 1, addr := 0x3000 } = true ∧ (packet 13).kind = 0 ∧ (packet 13).fmtA = g.fmt ∧ (packet 13).scaled = false ∧
      ((cis armed).postLocal 1 70 0 3 { kind := 1, ev := false, evn := 0, module := 0, pav := 1, addr := 0x3000 } 384 (packet 13).payload).2 = 0) := by decide +kernel

/-! ### Memory (chapter 5) -/

/-- Stripe 5 of plot 3. -/
def stripe : Nat := 3 * 2097152 + 5
def memory : Dev := { run with mem := { run.mem with clean := [(granuleOf (512 * stripe), true)] } }
/-- MemoryReadAfterWrite: a clean granule of a plot that exists; StripeCodeCorrects: sixteen symbols at both ends of their range. -/
theorem test_meets_MemoryReadAfterWrite : (let d := memory; let ma := 512 * stripe;
      (List.replicate 512 (7 : Byte)).length = 512 ∧ (∀ p, p < 20 → (d.mem.pkg p).st = .good) ∧ d.maExists ma 512 = true ∧ d.mem.isOwing (plotAt ma) = false ∧
      d.mem.isLost (plotAt ma) = false ∧ d.mem.filling.contains (granuleOf ma) = false ∧ d.mem.owed (granuleOf ma) = false) ∧
    (∀ b ∈ (List.replicate 8 0 ++ List.replicate 8 255 : List Nat), b < 256) ∧ (rsEncode (List.replicate 16 255)).getD 19 0 ≠ 0 := by decide +kernel
/-- OwedGranules: an owed granule, at its first byte and its last; the same in a lost plot; a fill that ends; the phases of an owe. -/
theorem test_meets_OwedGranules : (let d := memory; let g := 3 * 16384 + 9; let ma := g * 65536;
      ma / 65536 = g ∧ (ma + 65536 - 1) / 65536 = g ∧ d.maExists ma 65536 = true ∧ d.blocked ma 65536 = false ∧ d.mem.isLost (plotAt ma) = false ∧
      d.mem.owed g = true ∧ d.mem.isOwing (plotAt ma) = false ∧ d.mem.filling.contains g = false) ∧
    (let d : Dev := { memory with mem := { memory.mem with lost := [(3, true)] } }; d.mem.isLost 3 = true ∧ d.blocked ((3 * 16384 + 9) * 65536) 1 = false) ∧
    (let m := { memory.mem with filling := [49161] }; m.filling.contains 49161 = true ∧ m.isLost (49161 / 16384) = false ∧ m.waiting = []) ∧
    (let m := { memory.mem with owing := [(3, .drain)], filling := [16384 * 4] }; m.oweOf 3 = some .drain ∧ ∀ g ∈ m.filling, g / 16384 ≠ 3) ∧
    ({ memory.mem with owing := [(3, .backInv)] } : Mem).oweOf 3 = some .backInv ∧
    ({ memory.mem with owing := [(3, .set)] } : Mem).oweOf 3 = some .set ∧ memory.mem.waiting = [] := by decide +kernel
/-- OwedGranules: a read that waits, a fill that a write waits for, an earlier access of another plot during the drain, a line that lands in the owe. -/
theorem test_meets_OweWaits :
    (let d : Dev := { memory with mem := { memory.mem with owing := [(3, .drain)] } }; d.blocked (3 * 2 ^ 30) 1 = true ∧ d.blocked (4 * 2 ^ 30) 1 = false) ∧
    memory.heldLines (3 * 2 ^ 30) 64 = [] ∧
    (let m := { memory.mem with filling := [49161], waiting := [.write (49161 * 65536) [1] false .port 0] };
      m.filling.contains 49161 = true ∧ m.waiting = [.write (49161 * 65536) [1] false .port 0] ∧ (49161 * 65536 + 1 - 1) / 65536 = 49161) ∧
    (∀ a ∈ [MemAcc.write (4 * 2 ^ 30) [1] false .port 0], a.place.2.2 = 0 → a.meets (3 * 2 ^ 30) (2 ^ 30) = false) ∧
    (let m := { memory.mem with owing := [(3, .backInv)] }; plotAt (512 * stripe) = 3 ∧ m.isLost 3 = false ∧ m.owed (granuleOf (512 * stripe)) = false) := by decide +kernel
/-- A package in a state. -/
def pkgIn (st : PkgSt) (cursor : Nat) : Dev := { memory with mem := memory.mem.setPkg 3 { Pkg.reset with st := st, cursor := cursor } }
/-- MemoryUpkeep: stripes that do not decode, a branch with power, an erased package that fails. -/
theorem test_meets_UpkeepFails :
    (let errs := ([0, 1, 2, 3, 4] : List (Fin 20)).map (fun k => (⟨stripe, k, 2, 5⟩ : SymErr)); memory.mem.decode errs stripe = none ∧ memory.mem.isOwing (plotAt (512 * stripe)) = false ∧ memory.stalled = false) ∧
    (let m := (List.range 20).foldl (fun (m : Mem) k => { m with raw := if k < 5 then Tab.set 0 m.raw (640 * stripe + 32 * k) 9 else m.raw }) (pkgIn .rebuilding 0).mem;
      m.decode [] stripe = none) ∧
    (pkgIn .failed 0).sup.memory = true ∧ ((pkgIn .failed 0).mem.pkg 3).st.erased = true ∧ memory.heldLines 0 1 = [] := by decide +kernel
/-- MemoryUpkeep: the clearer's next granule, a stripe the scrubber repairs, packages in each state, a map word, retirement at both ends of PKG's range. -/
theorem test_meets_MemoryUpkeep :
    (let m := memory.mem; m.nextOwed (memory.nplots * 16384) (m.clean.length + m.filling.length + m.lost.length + m.owing.length + 1) m.clearCursor = some 0) ∧
    (let d := memory.setFld Reg.MEM_CTRL F.MEM_CTRL_SCRUB_EN 1; let t := (d.mem.nextScrub (d.reg Reg.MEM_SCRUB_POS).toNat).getD 0;
      d.fld Reg.MEM_CTRL F.MEM_CTRL_SCRUB_EN = 1 ∧ d.mem.nextScrub (d.reg Reg.MEM_SCRUB_POS).toNat = some t ∧ t + 1 < d.nplots * 2097152 ∧
      (d.mem.decode [⟨t, 3, 2, 5⟩] t).map (fun r => r.2.isEmpty) = some false) ∧
    ((pkgIn .failed 0).mem.pkg 3).st = .failed ∧ ((pkgIn .retired 0).mem.pkg 3).st = .retired ∧
    (let m := (pkgIn .rebuilding 0).mem; (m.pkg 3).st = .rebuilding ∧ (m.nextClean 0).isSome = true) ∧
    (let m := (pkgIn .rebuilding 100000000).mem; (m.pkg 3).st = .rebuilding ∧ m.nextClean 100000000 = none) ∧
    memory.nplots * 256 - 1 < memory.nplots * 256 ∧
    F.MEM_RETIRE_CMD_GO.get 0x80000013 = 1 ∧ F.MEM_RETIRE_CMD_PKG.get 0x80000013 = 19 ∧ F.MEM_RETIRE_CMD_PKG.get 0x80000014 = 20 ∧ memory.mem.nErased = 0 ∧
    ((pkgIn .failed 0).mem.setPkg 4 { Pkg.reset with st := .failed }).nErased = 2 ∧ memory.overThresh = [] ∧
    (let d := (({ memory with mem := memory.mem.setPkg 4 { Pkg.reset with window := 60000 } } : Dev).setReg Reg.MEM_RETIRE_THRESH 100).setFld Reg.MEM_CTRL F.MEM_CTRL_AUTO_RETIRE 1;
      d.overThresh = [4] ∧ d.mem.nErased = 0 ∧ d.fld Reg.MEM_CTRL F.MEM_CTRL_AUTO_RETIRE = 1) := by decide +kernel


/-! ### Host port (chapter 6) -/

/-- A decoder's request. -/
def hdmReq (skip size : Nat) (ig iw : BitVec 4) (lock : Bool) : HdmReq := { base := 0x8000000000, size := BitVec.ofNat 64 size, skip := BitVec.ofNat 64 skip, ig := ig, iw := iw, pos := 1, bi := true, biEnable := true, lock := lock }
/-- A module whose host port is up, with decoder 0 committed over two ways and plot 0 open to the host, plot 3 not. -/
def hostUp : Dev := { run with hp := { run.hp with perst := false, ready := true, memActive := true, mode := .flit256, biEnable := true, hdm := [(0, some { req := hdmReq 0 (2 ^ 33) 4 1 true, dpaBase := 0, committed := true, err := false })], cfg := [(4, 6), (0x1004, 6)], vfEnable := true, io := { run.hp.io with on := true }, msix := [(64, ⟨1, 2, true, true⟩), (65, ⟨1, 2, true, false⟩)] }, allots := [(1, { run.allot 1 with plots := [(0, some (0, true)), (1, some (3, false))], vecs := [64, 65], modules := [] })] }
/-- HostMemory: a line the host may reach, whose read gives zeros or is bad, and one it may not. -/
theorem test_meets_HostMemory : let d := hostUp;
    d.hpaMA 0x8000001000 = some 0 ∧ d.hostMay (plotAt 0) = true ∧ d.blocked 0 64 = false ∧ (d.performRead [] 0 64).2 = .ok (List.replicate 64 0) ∧
    (let e : Dev := { d with mem := { d.mem with lost := [(0, true)] } }; e.blocked 0 64 = false ∧ (e.performRead [] 0 64).2 = .bad) ∧
    d.hpaMA 0x8180001000 = some 0xC0000000 ∧ d.hostMay (plotAt 0xC0000000) = false ∧ (List.replicate 64 (0 : Byte)).length = 64 ∧
    (({ d with mem := { d.mem with owing := [(0, .drain)] } } : Dev).blocked 0 64 = true) ∧
    (let e : Dev := { d with mem := { d.mem with clean := [(0, true)] } }; e.blocked 0 64 = false ∧ e.mem.isLost 0 = false ∧ e.mem.owed 0 = false) ∧ d.hpaMA 0x7FFFFFFFC0 = none ∧
    rasUeBits.testBit 0 = true := by decide +kernel
/-- HostLink: each of a link's states, at modes of Table 6-1. -/
theorem test_meets_HostLink : Dev.reset.hp.perst = true ∧
    (let d := { up with hp := { up.hp with perst := false } }; d.hp.perst = false ∧ linkModeOk ⟨6, 16, 2⟩ = true ∧ linkModeOk ⟨4, 8, 1⟩ = true ∧
      linkModeOk ⟨4, 4, 3⟩ = true ∧ d.linkUp = false ∧ d.sup.link = true ∧ d.refOk 0 = true) ∧
    hostUp.hp.ready = true ∧ hostUp.mem.trained = true ∧ hostUp.hp.perst = false ∧ hostUp.hp.io.on = true ∧ ((1 : Fin 256).val ≠ 0) ∧
    (∀ st ∈ [2, 3, 4], let d := up.setFld Reg.GLB_HP_LINK F.GLB_HP_LINK_STATE st; d.linkUp = true ∧ d.l1May = false) ∧ up.linkUp = false ∧
    (∀ st ∈ [2, 4], let d := (up.setFld Reg.GLB_HP_LINK F.GLB_HP_LINK_STATE st).setCfg 0 0x60 2; d.linkUp = true ∧ d.l1May = true) ∧
    (let e := { exec1 1 (BitVec.ofNat 1024 2) with complete := true }; let d : Dev := { up with qs := [(5, { Queue.reset with st := .running, execs := [e] })], hp := { up.hp with writes := [.data 5 1] } };
      HostWait.data 5 1 ∈ d.hp.writes ∧ d.exec? 5 1 = some e) := by decide +kernel
/-- HostMemory: a locked decoder, and one that fits after it, at both ends of IG's range. -/
theorem test_meets_DecoderCommit : let d := hostUp;
    d.hp.ready = true ∧ Dev.reset.hp.ready = false ∧
    ((d.hdm 0).map (fun h => h.committed && h.req.lock)) = some true ∧ d.hdm 1 = none ∧
    (∀ ig ∈ ([1, 6] : List (BitVec 4)), let r := hdmReq 0 (2 ^ 33) ig 1 true; let base := d.dpaEnd 1 + r.skip.toNat;
      1 ≤ r.ig.toNat ∧ r.ig.toNat ≤ 6 ∧ r.iw.toNat ≤ 4 ∧ base % 2 ^ 30 = 0 ∧ r.size.toNat % hdmWays r = 0 ∧ hdmDpaSize r % 2 ^ 30 = 0 ∧
      base + hdmDpaSize r ≤ d.nplots * 2 ^ 30) ∧ d.hp.mode = .flit256 ∧ d.hp.memActive = true := by decide +kernel
/-- A queue with a doorbell line, and the same with a doorbell page. -/
def lineQ : Queue := { Queue.reset with st := .running, allot := 1, useLine := true, lineArmed := true, accept := 20, c := 10, cqHead := 5, producer := 25 }
def pageQ : Queue := { lineQ with lineArmed := false, useLine := false, dbCqHead := 7, dbProducer := 30 }
def withQ (q : Queue) : Dev := { hostUp with qs := [(5, q), (6, { Queue.reset with st := .held, allot := 2 })] }
/-- The same with ATS of VF 1 on, so that its lines stay in use. -/
def atsOn (d : Dev) : Dev := { d with hp := { d.hp with cfg := [(4, 6), (0x1004, 6), (0x12C4, 0x80000000)] } }
/-- Doorbells: cursors at both ends of what R332 allows, and one past each end. -/
theorem test_meets_Doorbells : let d := withQ lineQ; let x := d.queue 5; let n := d.ringN 5;
    d.hp.ready = true ∧ ({ d with hp := { d.hp with ready := false } } : Dev).hp.ready = false ∧ x.lineArmed = true ∧ x.usesLine = true ∧ x.accept ≤ 20 ∧ 20 ≤ 10 + n ∧ 10 ≤ x.c ∧ x.cqHead ≤ 10 ∧ 5 + n + 1 > 5 + n ∧ 19 < x.accept ∧ x.c < 11 ∧ 4 < x.cqHead ∧
    (let y := { lineQ with lineArmed := false }; y.usesLine = true ∧ y.lineArmed = false) ∧ d.atsLost 5 = true ∧ (atsOn d).atsLost 5 = false ∧
    ({ lineQ with st := .paused } : Queue).usesLine = false ∧
    (let d := withQ pageQ; let x := d.queue 5; let p := (d.reg (Reg.DBP_PRODUCER_HI 5) ++ (20 : Word32)).toNat; let h := (d.reg (Reg.DBP_CQ_HEAD_HI 5) ++ (10 : Word32)).toNat;
      x.useLine = false ∧ x.st = .running ∧ x.accept ≤ p ∧ p ≤ x.dbCqHead.toNat + d.ringN 5 ∧ x.dbCqHead.toNat ≤ x.c ∧ x.cqHead ≤ x.dbCqHead.toNat ∧
      x.accept ≤ x.dbProducer.toNat ∧ x.dbProducer.toNat ≤ h + d.ringN 5 ∧ h ≤ x.c ∧ x.cqHead ≤ h ∧ x.c ≤ x.accept ∧ ((d.takeDoorbell 5 22 9).queue 5).st ≠ .error) := by decide +kernel
/-- HostServices: no record on its way, and a vector that pends a message and one that pends none. -/
theorem test_meets_HostServices : let d := { hostUp with hp := { hostUp.hp with cfg := [(4096 + 0xA0, 0x80000000)] } };
    (∀ e ∈ (atsOn (withQ lineQ)).qs, e.2.usesLine = true → (atsOn (withQ lineQ)).atsOn ((atsOn (withQ lineQ)).queue e.1).allot = true) ∧ (∃ e ∈ (withQ lineQ).qs, e.2.usesLine = true) ∧
    d.hp.ready = true ∧ (d.allot 1).st ≠ .clearing ∧ ({ d.allot 1 with st := .clearing } : Allot).st = .clearing ∧ d.hp.inval = [] ∧ (withQ lineQ).hostWaits 1 = [] ∧ (withQ { lineQ with lineArmed := false }).hostWaits 1 = [.line 5] ∧ d.vectorOf 1 0 = some 64 ∧ (d.msix 64).pending = true ∧ d.msixCtl 1 = (true, false) ∧
    d.vectorOf 1 1 = some 65 ∧ (d.msix 65).pending = false := by decide +kernel
/-- HostServices: a function not ready, the function, and a VF. -/
theorem test_meets_ConfigRequests : Dev.reset.hp.ready = false ∧ hostUp.hp.ready = true ∧ hostUp.inLodge = false ∧ hostUp.hp.vfEnable = true ∧
    (3 : Fin 256) ≠ 0 ∧ Dev.reset.hp.vfEnable = false := by decide +kernel

/-! ### Queues (chapter 7) -/

def runningQ : Queue := { Queue.reset with st := .running, allot := 1, accept := 3, c := 1, producer := 9 }
/-- The module with a queue 5. -/
def qDev (q : Queue) : Dev := { run with qs := [(5, q), (6, { Queue.reset with st := .disabled, allot := 2, c := 8 })], allots := [(1, { run.allot 1 with queues := [(0, some 5), (1, some 6)], modules := [] })], mem := { run.mem with clean := [(granuleOf (4 * 2 ^ 30), true), (granuleOf (4 * 2 ^ 30) + 1, true)] } }
/-- The same with one accepted descriptor of SEQUENCE 1. -/
def qExec (e : Exec) : Dev := qDev { runningQ with execs := [e] }
def fresh (dat : BitVec 1024) : Exec := { exec1 1 dat with started := false }
def done1 : Exec := { exec1 1 kern with complete := true }
/-- DescriptorAcceptance: a slot with its SEQUENCE and with another, and one that was read. -/
theorem test_meets_DescriptorAcceptance : let d := qDev runningQ; let x := d.queue 5;
    x.accepts = true ∧ x.redo = [] ∧ x.accept + x.read.length < x.producer ∧ d.atsLost 5 = false ∧ bitsOf (desc [(0, 0, 6), (0x10, 0, 3)]).toNat 128 64 = x.accept ∧
    bitsOf (desc [(0, 0, 6), (0x10, 0, 4)]).toNat 128 64 ≠ x.accept ∧
    (let y : Queue := { runningQ with read := [(3, desc [(0x10, 0, 3)])] }; y.accepts = true ∧ y.read = [(y.accept, desc [(0x10, 0, 3)])]) ∧ x.st = .running ∧ d.headerOpen 5 = true ∧
    (let y := qDev { runningQ with redo := [1] }; 1 ∈ (y.queue 5).redo ∧ y.ringsOpen 5 = true ∧ y.atsLost 5 = false ∧ bitsOf (desc [(0x10, 0, 1)]).toNat 128 64 = 1) ∧
    (let y := qDev { runningQ with st := .paused, redo := [1] }; (y.queue 5).accepts = false ∧ y.ringsOpen 5 = false ∧ y.headerOpen 5 = false) ∧
    (∀ q ∈ ([{ runningQ with st := .error, sinceHdr := 1 }, { runningQ with st := .clearing, sinceHdr := 1 }, { runningQ with st := .arming, arm := some .heldRecords, sinceHdr := 1 }] : List Queue),
      let y : Dev := { (qDev q).setFld Reg.GLB_HP_LINK F.GLB_HP_LINK_STATE 2 with hp := hostUp.hp }; y.headerOpen 5 = true ∧ y.atsLost 5 = false) ∧
    (let y := qDev { runningQ with useLine := true }; (y.queue 5).accepts = true ∧ y.atsLost 5 = true) := by decide +kernel
def copyIn : BitVec 1024 := desc [(0, 0, 2), (0x20, 0, 0x9000), (0x28, 0, 0x100), (0x30, 0, 0x40), (0x34, 2, 1)]
def copyOut : BitVec 1024 := desc [(0, 0, 2), (0x20, 0, 0x100), (0x28, 0, 0x9000), (0x30, 0, 0x40), (0x34, 0, 1)]
def sendHere : BitVec 1024 := desc [(0, 0, 4), (0x20, 0, 0x100), (0x28, 0, 0x400), (0x34, 0, 0x40)]
def fenceOn (w : Nat) : BitVec 1024 := desc [(0, 0, 5), (0x20, 0, 1), (0x20, 12, w), (0x28, 0, 7)]
/-- TenantDescriptors: KERNEL, COPY both ways, FENCE met and not met, HINT. -/
theorem test_meets_TenantDescriptors :
    (let e := fresh kern; let d := qExec e; d.startable 5 1 1 = some e ∧ d.kernelBad 1 e = none ∧ e.isGang = false) ∧
    (let e := fresh copyIn; let d := qExec e; d.startable 5 1 2 = some e ∧ d.copyBad 1 e = none ∧ e.f 0x34 0 2 = 0 ∧ e.f 0x34 4 2 = 0 ∧ e.f 0x30 0 32 = 64 ∧
      d.plotMA 1 (BitVec.ofNat 64 (e.f 0x28 0 64)) 64 = some 0x100000100 ∧ d.mem.begun (.exec 5 1 1) = false ∧ (d.memWrite (.exec 5 1 1) 0x100000100 (List.replicate 64 3)).2 = .ok []) ∧
    (let e := fresh copyOut; let d := qExec e; d.startable 5 1 2 = some e ∧ d.copyBad 1 e = none ∧ e.f 0x34 0 2 = 1 ∧ e.f 0x34 2 2 = 0 ∧ e.f 0x34 4 2 = 0 ∧
      (d.queue 5).st ≠ .paused ∧ d.plotMA 1 (BitVec.ofNat 64 (e.f 0x20 0 64)) 64 = some 0x100000100 ∧ d.mem.begun (.exec 5 1 1) = false ∧ (d.memRead (.exec 5 1 0) 0x100000100 64).2 = .ok (List.replicate 64 0)) ∧
    (let e := fresh (fenceOn 0); let d := qExec e; d.startable 5 1 5 = some e ∧ e.headBad = false ∧ e.f 0x20 13 19 = 0 ∧ e.f 0x24 0 32 = 0 ∧ e.f 0x30 0 640 = 0 ∧
      e.f 0x20 12 1 ≠ 1 ∧ d.fenceMet 5 e = true) ∧
    (let e := fresh (fenceOn 1); let d := qDev { runningQ with c := 0, execs := [e] }; d.startable 5 1 5 = some e ∧ e.f 0x20 12 1 = 1 ∧ (d.fenceQueue 5 e).isSome = true ∧
      d.fenceMet 5 e = false) ∧
    (let e := exec1 1 (fenceOn 0); let d := qExec e; d.exec? 5 1 = some e ∧ e.typ = 5 ∧ e.started = true ∧ e.complete = false ∧ d.fenceMet 5 e = true) ∧
    (let e := fresh (desc [(0, 0, 6)]); let d := qExec e; d.startable 5 1 6 = some e ∧ e.headBad = false ∧ e.f 0x20 0 768 = 0) := by decide +kernel
/-- TenantDescriptors: one of each that fails its checks, a member of a gang executed again, a COPY within plots, one from protected pages and one to them, a plot
that is lost, a write that waits for the host. -/
theorem test_meets_TenantStops :
    (let e := fresh (desc [(0, 0, 1)]); (qExec e).startable 5 1 1 = some e ∧ (qExec e).kernelBad 1 e = some 0x21) ∧
    (let e := { fresh (kern ||| desc [(0x5C, 0, 2)]) with redo := true }; (qExec e).startable 5 1 1 = some e ∧ (qExec e).kernelBad 1 e = none ∧ e.isGang = true ∧ e.redo = true ∧
      ((qExec e).allot 1).replays.contains e.group = false) ∧
    (let e := fresh (desc [(0, 0, 2)]); (qExec e).startable 5 1 2 = some e ∧ (qExec e).copyBad 1 e = some 0x21) ∧
    (let e := fresh (desc [(0, 0, 2), (0x20, 0, 0x100), (0x28, 0, 0x400), (0x30, 0, 0x40), (0x34, 0, 5)]); let d := qExec e; d.startable 5 1 2 = some e ∧ d.copyBad 1 e = none ∧
      e.f 0x34 2 2 = 1 ∧ d.plotMA 1 (BitVec.ofNat 64 (e.f 0x28 0 64)) 64 = some 0x100000400 ∧ (({ d with mem := { d.mem with clean := [(65536, true)] } } : Dev).memWrite (.exec 5 1 1) 0x100000400 [1]).2 = .ok [] ∧
      (let l : Dev := { d with mem := { d.mem with lost := [(4, true)] } }; (l.memRead (.exec 5 1 0) 0x100000100 64).2 = .bad ∧ (l.memWrite (.exec 5 1 1) 0x100000400 [1]).2 = .bad) ∧
      (let w : Dev := { d with mem := { d.mem with filling := [65536] } }; (w.memRead (.exec 5 1 0) 0x100000100 64).2 = .wait ∧ (w.memWrite (.exec 5 1 1) 0x100000400 [1]).2 = .wait ∧ (w.memWrite (.exec 5 1 1) 0x100000400 [1]).1.mem.begun (.exec 5 1 1) = true)) ∧
    (let e := fresh (desc [(0, 0, 2), (0x20, 0, 0x4000), (0x28, 0, 0x1000), (0x30, 0, 0x1000), (0x34, 2, 1), (0x34, 4, 1)]);
      let d := (qExec e).updAllot 1 (fun a => { a with protBase := 0x4000, tagBase := 0x9000, protPages := 2 });
      d.startable 5 1 2 = some e ∧ d.copyBad 1 e = none ∧ e.f 0x34 4 2 = 1 ∧ d.mayReadHost 5 = true) ∧
    (let e := fresh (desc [(0, 0, 2), (0x20, 0, 0x1000), (0x28, 0, 0x4000), (0x30, 0, 0x1000), (0x34, 0, 1), (0x34, 4, 2)]);
      let d := (qExec e).updAllot 1 (fun a => { a with protBase := 0x4000, tagBase := 0x9000, protPages := 2 });
      d.startable 5 1 2 = some e ∧ d.copyBad 1 e = none ∧ e.f 0x34 4 2 = 2 ∧ d.mayWriteHost 5 = true ∧ d.atsLost 5 = false) ∧
    (let e := fresh copyOut; let d := qDev { runningQ with st := .paused, execs := [e] }; d.startable 5 1 2 = some e ∧ d.mayWriteHost 5 = false) ∧
    (let e := fresh (desc [(0, 0, 4)]); (qExec e).startable 5 1 4 = some e ∧ (qExec e).sendBad 1 e = some 0x21) ∧
    (let e := fresh (desc [(0, 0, 4), (0x20, 0, 0x100), (0x28, 0, 0x400), (0x30, 0, 1), (0x34, 0, 0x40)]); let d := (qExec e).updAllot 1 (fun a => { a with modules := [9, 8] });
      let m := d.modId (d.allot 1) 1;
      d.startable 5 1 4 = some e ∧ d.sendBad 1 e = none ∧ e.f 0x30 0 16 ≠ d.lmod (d.allot 1) ∧ d.routeDead m = false ∧ (d.setReg (Reg.TRL_ROUTE 8) 0x80000000).routeDead m = true) ∧
    (let e := fresh (desc [(0, 0, 5), (0x20, 13, 1)]); (qExec e).startable 5 1 5 = some e ∧ e.f 0x20 13 19 ≠ 0) ∧
    (let e := fresh (desc [(0, 0, 5), (0x20, 0, 77), (0x20, 12, 1)]); (qExec e).startable 5 1 5 = some e ∧ e.f 0x20 12 1 = 1 ∧ (qExec e).fenceQueue 5 e = none) ∧
    (let e := fresh (desc [(0, 0, 6), (0x20, 0, 1)]); (qExec e).startable 5 1 6 = some e ∧ e.f 0x20 0 768 ≠ 0) := by decide +kernel
/-- TenantDescriptors: a SEND to this module, and its resend; data that is not fresh. -/
theorem test_meets_Send : (let e := fresh sendHere; let d := qExec e;
      d.startable 5 1 4 = some e ∧ d.sendBad 1 e = none ∧ e.f 0x30 0 16 = d.lmod (d.allot 1) ∧ d.plotMA 1 (BitVec.ofNat 64 (e.f 0x20 0 64)) 64 = some 0x100000100 ∧
      (d.memRead (.exec 5 1 0) 0x100000100 64).2 = .ok (List.replicate 64 0) ∧ d.plotMA 1 (BitVec.ofNat 64 (e.f 0x28 0 64)) 64 = some 0x100000400 ∧
      (d.allot 1).sendFresh d.moduleId 5 1 = true ∧ d.mem.begun (.exec 5 1 1) = false) ∧
    (let e := { exec1 1 sendHere with sendLeft := true }; (qExec e).exec? 5 1 = some e ∧ e.typ = 4 ∧ e.sendLeft = true ∧ e.complete = false) ∧
    ((run.allot 1).sendApplied 9 6 12).sendFresh 9 6 12 = false := by decide +kernel
/-- CompletionRecords: a record issued, held at the last place, landed, flushed. -/
theorem test_meets_CompletionRecords :
    (let d := qExec done1; d.exec? 5 1 = some done1 ∧ d.mayIssue 5 done1 = true ∧ (d.queue 5).st = .running ∧ d.atsLost 5 = false) ∧
    (let d := qDev { runningQ with st := .paused, execs := [done1] }; d.mayIssue 5 done1 = true ∧ (d.queue 5).st = .paused ∧ (d.queue 5).held.length < 4096) ∧
    (let e := { done1 with issued := true }; let x := { runningQ with execs := [e] }; (qDev x).exec? 5 1 = some e ∧ e.issued = true ∧ x.c = e.seq ∧ x.held = [] ∧
      e.f 1 0 1 = 0 ∧ e.typ ≠ 3 ∧ x.sinceHdr + 1 < 64 ∧ (qDev x).hp.inval = []) ∧
    (let d := qDev { runningQ with useLine := true, execs := [done1] }; d.mayIssue 5 done1 = true ∧ d.atsLost 5 = true) ∧
    (let d := qDev { runningQ with st := .error, execs := [done1] }; d.mayIssue 5 done1 = true ∧ d.reach 5 = false) ∧
    (let d := qDev { runningQ with st := .error, execs := [done1], held := [done1.record] }; d.mayIssue 5 done1 = true ∧ (d.queue 5).held ≠ []) ∧
    (let d : Dev := { qDev { runningQ with st := .clearing } with hp := { run.hp with writes := [.data 5 2] } }; (d.queue 5).st = .clearing ∧ d.dataOut 5 = true) ∧
    (let d : Dev := { ((qDev { runningQ with st := .clearing, released := true, held := [done1.record] }).setFld Reg.GLB_HP_LINK F.GLB_HP_LINK_STATE 2) with hp := hostUp.hp };
      (d.queue 5).st = .clearing ∧ (d.queue 5).released = true ∧ d.reach 5 = true ∧ d.dataOut 5 = false ∧ d.clearOp = none ∧ (d.queue 5).held = [done1.record] ∧ done1.record.seq = (d.queue 5).c) := by decide +kernel
/-- CompletionRecords: each reason why a record waits. -/
theorem test_meets_RecordsInOrder :
    ((qExec (exec1 1 kern)).exec? 5 1).map (·.complete) = some false ∧
    (let d := qDev { runningQ with st := .error, execs := [done1], held := [done1.record] }; (d.queue 5).st = .error ∧ (d.queue 5).held ≠ []) ∧
    (let d := qDev { runningQ with execs := [exec1 1 kern, { done1 with seq := 2 }] }; (d.exec? 5 2).isSome = true ∧ exec1 1 kern ∈ (d.queue 5).execs ∧ (1 < 2)) ∧
    (∃ n ∈ ({ runningQ with redo := [0], execs := [done1] } : Queue).redo, n < done1.seq) ∧
    (let e := { done1 with contribs := [⟨1, 2, none, 3, false⟩] }; let d := qExec e; d.exec? 5 1 = some e ∧ ∃ c ∈ e.contribs, d.contribDone (d.qAllot 5) c = false) ∧
    (let e := { done1 with data := kern ||| desc [(0x5C, 0, 2)] }; (qExec e).exec? 5 1 = some e ∧ e.isGang = true ∧ e.gangDone = false) ∧
    HostWait.data 5 1 ∈ ([.data 5 1] : List HostWait) ∧
    ({ qExec done1 with blks := [(70, { CisBlk.reset with st := .posting, params := some { (fresh kern).armParams 5 0 with q := 5, seq := 1 } })] } : Dev).stillPosts 5 1 = true ∧
    (let d := qExec done1; ({ d with trl := { d.trl with waiting := [(9, [], .send 5 1)] } } : Dev).remoteOut 5 1 = true) := by decide +kernel
/-- A complete member of a gang of two, in an allotment of one module and of two. -/
def member (ph : GangPh) : Exec := { done1 with data := kern ||| desc [(0x5C, 0, 2)], gangPh := ph }
def gang (mods : List (BitVec 16)) (ph : GangPh) : Dev := { qExec (member ph) with allots := [(1, { run.allot 1 with queues := [(0, some 5)], modules := mods })] }
/-- GangMembers: a member at home, counted and last to be counted, a member elsewhere, and each phase. -/
theorem test_meets_GangMembers : (let d := gang [] .none; let e := member .none;
      d.exec? 5 1 = some e ∧ e.isGang = true ∧ e.complete = true ∧ e.gangDone = false ∧ e.gangPh = .none ∧ d.homeOf 1 e.group = d.moduleId ∧
      (d.homeDone 1 e.group (d.moduleId, 5, 1)).2 = false ∧
      (((d.homeDone 1 e.group (d.moduleId, 8, 1)).1).homeDone 1 e.group (d.moduleId, 5, 1)).2 = true) ∧
    (let d := gang [7, 8] .none; d.homeOf 1 (member .none).group ≠ d.moduleId) ∧ (gang [] .stop).exec? 5 1 = some (member .stop) ∧
    (let d := gang [] .drain; d.exec? 5 1 = some (member .drain) ∧ ∀ p ∈ d.sharePavs 5 1, ∀ t ∈ (d.pav p).xfers, t.kind = .mld ∨ t.kind = .mst) ∧
    (gang [] .ready).exec? 5 1 = some (member .ready) := by decide +kernel
/-- A valid queue store and LOG2N. -/
def stored (d : Dev) (l : Nat) : Dev := (d.setReg Reg.GLB_QE_STORE 0x80000009).setReg (Reg.QCT_CFG 5) (BitVec.ofNat 32 (l * 65536))
/-- QueueStates: HELD and back, ARM at both ends of LOG2N and past them, the phases, DISABLE, the store. -/
theorem test_meets_QueueStates :
    (let d := { qDev runningQ with org := { run.org with hazQuiesce := true } }; (d.queue 5).st = .running ∧ d.holdCause 5 = true) ∧
    (let d := qDev { runningQ with st := .held }; (d.queue 5).st = .held ∧ d.holdCause 5 = false) ∧
    (∀ l ∈ [5, 6, 16, 17], let d := stored (qDev { runningQ with st := .error }) l; (d.queue 5).st = .error ∧ d.storeValid = true ∧
      bitsOf (d.reg (Reg.QCT_CFG 5)).toNat 16 5 = l) ∧ (qDev { runningQ with st := .paused }).storeValid = false ∧
    (let d := stored (qDev { runningQ with st := .arming, arm := some .header }) 6; (d.queue 5).st = .arming ∧ (d.queue 5).arm = some .header ∧ d.atsLost 5 = false ∧ 3 - 1 ≤ d.ringN 5 ∧ d.ringN 5 < 65) ∧
    (let x : Queue := { runningQ with st := .arming, arm := some .heldRecords, released := true }; x.arm = some .heldRecords ∧ x.released = true) ∧
    (let x : Queue := { runningQ with st := .arming, arm := some .heldRecords, allot := 0 }; x.released = false ∧ x.allot = 0) ∧
    (let x : Queue := { runningQ with st := .arming, arm := some .heldRecords, armStale := true }; x.armStale = true ∧ x.c ≤ x.accept) ∧
    (let x : Queue := { runningQ with st := .arming, arm := some .scan }; x.arm = some .scan ∧ x.execs = []) ∧
    (let d := stored (qDev { runningQ with st := .arming, arm := some .heldRecords, dbProducer := 4, dbCqHead := 1, execs := [exec1 2 kern] }) 7; let x := d.queue 5;
      x.arm = some .heldRecords ∧ d.dataOut 5 = false ∧ ({ d with hp := { d.hp with writes := [.data 5 2] } } : Dev).dataOut 5 = true ∧ x.held = [] ∧ x.armStale = false ∧ x.released = false ∧ x.allot ≠ 0 ∧ d.cacheOn = false ∧ x.accept ≤ x.dbProducer.toNat ∧
      x.dbProducer.toNat ≤ x.dbCqHead.toNat + d.ringN 5 ∧ x.dbCqHead.toNat ≤ x.c ∧ x.cqHead ≤ x.dbCqHead.toNat) ∧
    (let x := { runningQ with disableReq := true, c := 3 }; x.c = x.accept ∧ x.st ≠ .arming ∧ x.disableReq = true ∧ x.st ≠ .clearing ∧ x.execs = [] ∧ x.held = [] ∧ x.redo = []) ∧
    (let d := qDev { runningQ with st := .disabled }; (∀ e ∈ d.qs, e.2.st = .disabled) ∧ F.GLB_QE_STORE_VALID.get 0x80000009 = 1 ∧
      F.GLB_QE_STORE_PLOT.get 0x80000009 < d.nplots ∧ d.plotBound (F.GLB_QE_STORE_PLOT.get 0x80000009) = false) := by decide +kernel

/-! ### Allotments (chapter 8) -/

/-- A descriptor of the operator's queue. -/
def opq (e : Exec) (d : Dev) : Dev := d.setQueue 0 { Queue.reset with st := .running, accept := 3, c := 1, producer := 9, execs := [e] }
def listed (typ scope n : Nat) : Exec := fresh (desc [(0, 0, typ), (0x20, 0, 1), (0x21, 0, scope), (0x22, 0, n)])
def ent (phys log kind host share : Nat) : Word64 := BitVec.ofNat 64 (phys + log * 2 ^ 16 + kind * 2 ^ 32 + host * 2 ^ 40 + share * 2 ^ 48)
def two : Dev := { run with allots := [(1, { run.allot 1 with shares := [(3, 10)], vecs := [64] }), (2, { Allot.reset with st := .bound, token := 8, shares := [(3, 30)] })] }
/-- Binding: an entry of each kind, at an end of its range where another resource is not there. -/
theorem test_meets_BindEntry : let e := listed 8 0 1; let d := opq e two; let t := d.allot 1;
    d.startable 0 1 8 = some e ∧ e.complete = false ∧ e.listBad true = false ∧ e.scope = false ∧ e.f 0x22 0 16 = 1 ∧ t.st = .bound ∧ d.mayReadHost 0 = true ∧ d.atsLost 0 = false ∧
    (let w := ent 7 143 1 0 0; entOk w = true ∧ entKind w = 1 ∧ entPhys w < 160 ∧ entLogical w < 144 ∧ (d.pav 7).spare = false ∧ (d.pav 7).withdrawn = false ∧
      (d.pav 7).allot = 0 ∧ d.pavOf 1 143 = none) ∧
    (let w := ent 77 19 2 1 0; entOk w = true ∧ entKind w = 2 ∧ entPhys w < d.nplots ∧ entLogical w < d.nplots ∧ d.storeValid = false ∧ d.plotOf 1 19 = none ∧ d.plotBound 77 = false) ∧
    (let w := ent 1023 1023 3 0 0; entOk w = true ∧ entKind w = 3 ∧ entPhys w < 1024 ∧ entLogical w < 1024 ∧ d.blkOf 1 1023 = none ∧ d.blkBound 1023 = false) ∧
    (let w := ent 4095 4095 4 0 0; entOk w = true ∧ entKind w = 4 ∧ entPhys w ≠ 0 ∧ entPhys w < 4096 ∧ entLogical w < 4096 ∧ d.queueOf 1 4095 = none ∧
      (d.queue 4095).allot = 0 ∧ (d.queue 4095).st = .disabled) ∧
    (let w := ent 4095 0 5 0 0; entOk w = true ∧ entKind w = 5 ∧ 64 ≤ entPhys w ∧ entPhys w < 4096 ∧ d.vecBound 4095 = false ∧ t.vecs.length < 2048) ∧
    (let w := ent 3 0 6 0 34; entOk w = true ∧ entKind w = 6 ∧ entPhys w < 18 ∧ 1 ≤ entShare w ∧ entShare w ≤ 64 ∧ Tab.get 0 t.shares 3 ≤ entShare w ∧
      d.shareSum 3 - Tab.get 0 t.shares 3 + entShare w = 64) := by decide +kernel
/-- Binding: an entry that fails, a list that cannot be read yet, and a new allotment. -/
theorem test_meets_BindAllOrNothing :
    (let e := listed 8 0 1; let d := opq e two; e.listReads ≠ [] ∧ d.mayReadHost 0 = true ∧ (d.queue 0).st ≠ .error ∧ d.atsLost 0 = false ∧
      (d.setQueue 0 { d.queue 0 with st := .paused }).mayReadHost 0 = false ∧ (d.setQueue 0 { d.queue 0 with useLine := true }).atsLost 0 = true ∧ e.complete = false) ∧
    (let e := listed 8 0 1; let d := opq e two; d.startable 0 1 8 = some e ∧ ((d.hostReads 0 e.listReads).cacheErr ⟨0, .ok, none⟩).bind e [ent 158 9 1 0 0] = none) ∧ (two.startable 0 1 8 = none) ∧
    (let e := listed 8 0 1; let d := opq e two; (((d.hostReads 0 e.listReads).cacheErr ⟨0, .ok, none⟩).bind e [ent 7 9 1 0 0]).isSome = true) ∧
    (let e := fresh (desc [(0, 0, 8), (0x20, 0, 3), (0x21, 0, 1), (0x30, 0, 77), (0x38, 0, 0x4000), (0x40, 0, 0x9000), (0x48, 0, 5)]); let d := opq e two;
      d.startable 0 1 8 = some e ∧ e.listBad true = false ∧ e.scope = true ∧ e.f 0x22 0 16 = 0 ∧ (d.allot 3).st = .unbound ∧ e.f 0x30 0 64 ≠ 0 ∧
      e.f 0x38 0 64 + 4096 * e.f 0x48 0 32 ≤ 2 ^ 64 ∧ ∀ k ∈ d.allots, k.2.token ≠ BitVec.ofNat 64 (e.f 0x30 0 64)) := by decide +kernel
/-- Clearing: UNBIND of the whole, and CLEAR of one Pavilion. -/
theorem test_meets_ClearingStarts :
    (let e := listed 9 1 0; let d := opq e two; d.startable 0 1 9 = some e ∧ e.f 0x22 0 16 = 0 ∧ e.listBad false = false ∧ (d.allot 1).st ≠ .unbound ∧
      ((d.hostReads 0 e.listReads).cacheErr ⟨0, .ok, none⟩).clearList 1 true none [] = some ([], [])) ∧
    (let e := listed 10 0 1; let d := opq e two; d.startable 0 1 10 = some e ∧ e.f 0x22 0 16 = 1 ∧ e.listBad false = false ∧
      ((d.hostReads 0 e.listReads).cacheErr ⟨0, .ok, none⟩).clearList 1 false none [ent 0 1 1 0 0] = some ([(.pavilion, 3)], []) ∧ ((d.hostReads 0 e.listReads).cacheErr ⟨0, .ok, none⟩).clearList 1 false none [ent 0 9 1 0 0] = none) ∧
    (let e := { fresh (desc [(0, 0, 9), (0x20, 0, 1), (0x21, 1, 1)]) with replayed := true }; let d := opq e two; d.startable 0 1 9 = some e ∧ e.listBad false = true) ∧
    (let e := fresh (desc [(0, 0, 9), (0x20, 0, 77), (0x21, 0, 1)]); let d := opq e two; d.startable 0 1 9 = some e ∧ e.listBad false = false ∧ (d.allot 77).st = .unbound) := by decide +kernel
/-- Clearing: an UNBIND executed again that finds its allotment unbound, what it names released by its earlier execution. -/
theorem test_meets_ClearingAgain :
    (let e := { listed 9 0 1 with redo := true, replayed := true }; let d := (opq e two).updAllot 1 (fun _ => { Allot.reset with lastUnbind := [(1, [ent 0 1 1 0 0])] });
      d.startable 0 1 9 = some e ∧ e.scope = false ∧ (d.allot 1).st = .unbound ∧ (d.allot 1).again e = some [ent 0 1 1 0 0] ∧
      ((d.hostReads 0 e.listReads).cacheErr ⟨0, .ok, none⟩).clearList 1 true ((d.allot 1).again e) [ent 0 1 1 0 0] = some ([], [])) := by decide +kernel
/-- A clearing of allotment 1 in some phase. -/
def clr (stop revoke : Bool) (todo : List (ResKind × Nat)) : ClearOp := { allot := 1, seq := 1, unbind := true, whole := true, list := [], stopDone := stop, revokeDone := revoke, relDone := false, named := (two.allot 1).resources, todo := todo, shareCut := [] }
def clearingDev (op : ClearOp) : Dev := { (opq (exec1 1 (desc [(0, 0, 9), (0x20, 0, 1), (0x21, 0, 1)])) two).updAllot 1 (fun a => { a with st := .clearing }) with clearOp := some op }
/-- Clearing: every phase. -/
theorem test_meets_ClearingPhases :
    (let d := { clearingDev (clr false false []) with qs := [] }; ∀ e ∈ d.execsOf 1, e.2.complete = true) ∧
    (let d := { clearingDev (clr true false []) with qs := [(5, { runningQ with st := .clearing, execs := [exec1 1 kern], redo := [4] })] };
      (d.qs.filter (fun e => e.2.allot == 1 && e.2.st == .clearing)).map Prod.fst = [5] ∧ d.reach 5 = false ∧ d.dataOut 5 = false ∧ ({ d with hp := { d.hp with writes := [.data 5 2] } } : Dev).dataOut 5 = true) ∧
    (clr true false (two.allot 1).resources).todo.contains (ResKind.pavilion, 2) = true ∧ (clr true false (two.allot 1).resources).todo.contains (ResKind.block, 70) = true ∧
    (let op := clr true true []; op.revokeDone = true ∧ op.todo = [] ∧ op.relDone = false ∧ ∀ r ∈ op.named, r.1 = .queue → ((clearingDev op).queue r.2).held = []) := by decide +kernel
/-- PageKeys: INSTALL of a delivered key, RETIRE of an epoch that no page carries and of one that a page carries. -/
theorem test_meets_PageKeys :
    (let e := fresh (desc [(0, 0, 11), (0x20, 0, 1), (0x21, 0, 1), (0x24, 0, 55)]); let k : KeyEntry := ⟨55, 9, 0, false, 0⟩; let d := opq e { two with keys := [k, ⟨66, 9, 0, true, 0⟩] };
      let t := d.allot 1; let h := BitVec.ofNat 32 (e.f 0x24 0 32);
      d.startable 0 1 11 = some e ∧ e.complete = false ∧ e.replayed = false ∧ e.f 0x21 0 4 = 1 ∧ e.headBad = false ∧ e.f 0x21 4 4 = 0 ∧ e.f 0x22 0 16 = 0 ∧ h ≠ 0 ∧
      e.f 0x28 0 704 = 0 ∧ t.slot0.map (·.handle) ≠ some h ∧ t.slot1.map (·.handle) ≠ some h ∧ d.keys.find? (fun x => x.handle == h) = some k ∧ k.token = t.token ∧
      t.slotAt t.nextEpoch = none ∧ t.st ≠ .unbound) ∧
    (let e := fresh (desc [(0, 0, 11), (0x20, 0, 1), (0x21, 0, 2), (0x21, 4, 2), (0x22, 0, 1), (0x30, 0, 0x4000), (0x38, 0, 2)]);
      let d := (opq e { two with keys := [⟨66, 9, 0, true, 0⟩, ⟨67, 9, 0, true, 0⟩] }).updAllot 1 (fun a => { a with slot0 := some ⟨2, 66, 4⟩, slot1 := some ⟨3, 67, 4⟩, protBase := 0x4000, tagBase := 0x9000, protPages := 2 });
      let t := d.allot 1; let ep := BitVec.ofNat 2 (e.f 0x21 4 2); let at0 : List TagEntry := [⟨0, true, 3, 0⟩, ⟨0, false, 2, 0⟩]; let at1 : List TagEntry := [⟨0, true, 3, 0⟩, ⟨0, true, 2, 0⟩];
      d.startable 0 1 11 = some e ∧ e.f 0x21 0 4 = 2 ∧ e.retireBad t = false ∧ t.slotFor ep = some ⟨2, 66, 4⟩ ∧ ep ≠ t.wepoch ∧ 2 = e.ranges.foldl (fun n r => n + r.2) 0 ∧
      e.rangePages ≠ [] ∧ d.mayReadHost 0 = true ∧ d.atsLost 0 = false ∧ (∀ x ∈ e.rangePages.zip at0, ¬ (x.2.valid = true ∧ x.2.epoch = ep)) ∧ ((e.rangePages.zip at1).find? (fun p => p.2.valid && p.2.epoch == ep)).isSome = true) := by decide +kernel
/-- PageKeys: a handle held already, one never delivered, the writing epoch, an epoch that no slot holds, a malformed body. -/
theorem test_meets_PageKeysStops :
    (let e := fresh (desc [(0, 0, 11), (0x20, 0, 1), (0x21, 0, 1), (0x24, 0, 66)]); let d := (opq e two).updAllot 1 (fun a => { a with slot0 := some ⟨2, 66, 4⟩, wepoch := 2 }); let t := d.allot 1;
      d.startable 0 1 11 = some e ∧ t.slot0.map (·.handle) = some (BitVec.ofNat 32 (e.f 0x24 0 32)) ∧ (opq e two).keys.find? (fun x => x.handle == 66) = none ∧ t.slotFor 1 = none ∧
      t.slotFor t.wepoch = some ⟨2, 66, 4⟩) ∧
    (let e := fresh (desc [(0, 0, 11), (0x20, 0, 1), (0x21, 0, 2), (0x24, 0, 1)]); let d := opq e two; d.startable 0 1 11 = some e ∧ e.f 0x21 0 4 = 2 ∧ e.retireBad (d.allot 1) = true) ∧
    (let e := fresh (desc [(0, 0, 11), (0x20, 0, 1), (0x21, 0, 1)]); let d := opq e two; d.startable 0 1 11 = some e ∧ BitVec.ofNat 32 (e.f 0x24 0 32) = 0) := by decide +kernel
/-- Clearing: queues that reach the host, a queue with a record to write, and one without, a share of a port that sends and of one that is idle. -/
theorem test_meets_ClearingEnds :
    (let d : Dev := { (((clearingDev (clr true false [])).setQueue 5 { runningQ with st := .clearing, accept := 1 }).setFld Reg.GLB_HP_LINK F.GLB_HP_LINK_STATE 2) with hp := hostUp.hp };
      d.reach 5 = true ∧ (d.queue 5).c ≤ (d.queue 5).accept ∧ (d.queue 5).accept = (d.queue 5).c) ∧
    (let d := (clearingDev (clr true true [])).setQueue 5 { runningQ with st := .clearing }; (d.queue 5).accept ≠ (d.queue 5).c ∧ (ResKind.queue, 5) ∈ (clr true true []).named ∧ (d.queue 5).released = false) ∧
    ((clearingDev (clr true false [(.share, 3)])).drainShare 3 9).isSome = true ∧ ({ clr true true [] with unbind := false } : ClearOp).unbind = false := by decide +kernel


/-! ### The Trellis (chapter 9) -/

/-- The module as module 3, with allotment 1 over modules 3, 9 and 12, a route to module 9 through ports 4 and 5, and the port clocks on. -/
def net : Dev := ((((({ run with allots := [(1, { run.allot 1 with modules := [3, 9, 12] })] }.setReg Reg.CKP_GATE 0xFFFFFFFF).setFld (Reg.TRL_ROUTE 9) F.TRL_ROUTE_VALID 1).setFld (Reg.TRL_ROUTE 9) F.TRL_ROUTE_G0 2).setReg (Reg.TRL_GROUP 2) 0x30).setFld Reg.TRL_MODULE_ID F.TRL_MODULE_ID_ID 3).setFld (Reg.TRL_PORT_CFG 4) F.TRL_PORT_CFG_EN 1
def flit (n : BitVec 16) : Flit := mkFlit n 0 0 0 [(1, some false), (2, none), (3, none)]
def portIn (st : PortSt) (lanes try_ : BitVec 4) : Port := { Port.reset with st := st, lanes := lanes, tryLanes := try_, replay := [flit 1, flit 2, flit 3], queue := [(0, run.mkFrame 2 9 4 0 [], false)], rxSeq := 5 }
/-- Port 4 of it. -/
def atPort (x : Port) : Dev := net.setPort 4 x
def stream0 : SendStream := { nonce := 7, isOpen := true, full := false, nextSeq := 0, nextMsg := 0, unack := [], left := [], msgs := [], backlog := [], lastSent := 0 }
/-- PortTraining: the states of a port, with lanes that pass and fail, and peers for each check. -/
theorem test_meets_PortTraining :
    (run.port 4).st = .disabled ∧ ((net.setPort 4 Port.reset).setFld (Reg.TRL_PORT_CFG 4) F.TRL_PORT_CFG_EN 1).portOn 4 = true ∧ net.trl.send = [] ∧ net.portOn 4 = true ∧
    net.fld (Reg.TRL_PORT_CFG 4) F.TRL_PORT_CFG_X4_ONLY = 0 ∧ (net.setFld (Reg.TRL_PORT_CFG 4) F.TRL_PORT_CFG_X4_ONLY 1).fld (Reg.TRL_PORT_CFG 4) F.TRL_PORT_CFG_X4_ONLY = 1 ∧
    (∀ w ∈ ([0xF, 0x3, 0xC] : List (BitVec 4)), w &&& w = w ∧ (w &&& 0 ≠ w) ∧ (w.toNat.testBit 0 || w.toNat.testBit 3) = true) ∧
    (let r := net.fld (Reg.TRL_PORT_CFG 4) F.TRL_PORT_CFG_REACH; r = 0 ∧ ¬ 2 ≤ r ∧ (0 : BitVec 2).toNat = r ∧ (1 : BitVec 2).toNat ≠ r) ∧
    net.moduleId = 3 ∧ ((1 : BitVec 16) ≠ 0 ∧ (0xFFFE : BitVec 16) ≠ 0xFFFF ∧ (0xFFFE : BitVec 16) ≠ net.moduleId) ∧
    ((atPort (portIn .active 15 15)).port 4).st = .active ∧ (15 : BitVec 4).toNat.testBit 2 = true ∧
    (net.setReg (Reg.TRL_PORT_LANE_THRESH 4) 7).reg (Reg.TRL_PORT_LANE_THRESH 4) = 7 ∧ ((atPort (portIn .retrain 15 15)).port 4).lanes ≠ 0 ∧
    (portIn .mismatch 0 15).st = .mismatch ∧ (15 : BitVec 4).toNat.testBit 4 = false ∧ (portIn .retrain 0 15).lanes = 0 ∧
    (∀ st ∈ [PortSt.noId, .conflict, .failed, .down, .detect, .equalise, .fecLock, .exchange], ((atPort (portIn st 0 3)).port 4).st = st ∧ (atPort (portIn st 0 3)).portOn 4 = true) ∧
    (run.setReg Reg.CKP_GATE 0).portOn 4 = false ∧ (let e := net.setSend 9 (some stream0); (e.sendStream 9).isSome = true ∧ e.routeDead 9 = true ∧
      e.toward = [9] ∧ e.trl.dead = [] ∧ (let u := (atPort (portIn .active 15 15)).setSend 9 (some stream0); u.toward = [9] ∧ u.routeDead 9 = false ∧ u.trl.dead = [])) ∧
    (portIn .active 15 15).away = false ∧ ((atPort { portIn .exchange 0 15 with away := true }).port 4).away = true := by decide +kernel
/-- LinkTransit: the expected flit and another, a NAK of a buffered flit on its first and its eighth try, a frame with and without a route and with no hop left, a queued frame. -/
theorem test_meets_LinkTransit : let d := atPort (portIn .active 15 15); let x := d.port 4;
    let fr := { run.mkFrame 2 9 4 0 [] with src := 6 };
    x.st = .active ∧ Flit.crcOk (flit 5) = true ∧ (flit 5).seq = x.rxSeq ∧ (flit 6).seq ≠ x.rxSeq ∧ Flit.crcOk { flit 5 with crc := (flit 5).crc + 1 } = false ∧ x.nakAt = none ∧ ({ x with nakAt := some 5 } : Port).nakAt = some ((flit 6).seq - 1) ∧
    x.replay = [flit 1] ++ flit 2 :: [flit 3] ∧ (∀ f ∈ [flit 1], f.seq ≠ (flit 2).seq) ∧ x.replayTries ≠ 8 ∧ { x with replayTries := 8 }.replayTries = 8 ∧ (∀ f ∈ x.replay, f.seq ≠ 9) ∧ Flit.ack (flit 1) = 0 ∧ (atPort (portIn .retrain 15 15)).port 4 ≠ x ∧ net.moduleId ≠ 0 ∧
    fr.dst ≠ d.moduleId ∧ 1 ≤ fr.typ.toNat ∧ fr.typ.toNat ≤ 8 ∧ fr.dst ≠ 0 ∧ fr.dst ≠ 0xFFFF ∧ fr.hops ≠ 0 ∧ d.routePort fr = some 4 ∧
    d.routePort { fr with dst := 77 } = none ∧ { fr with hops := 0 }.hops = 0 ∧ x.queue.any (fun e => e.1 == 0) = true := by decide +kernel
/-- A frame of a stream from module 9, and a stream to it with three frames outstanding. -/
def strm (op : Nat) (expect : Word32) : Frame := { net.streamFrame 3 op expect 7 with src := 9, dst := 3 }
def sent (n : Word32) (msg : Word32) : Frame := { net.mkFrame 2 9 4 0 [1, 2] with nonce := 7, seq := n, msg := msg }
def stream : SendStream := { nonce := 7, isOpen := true, full := false, nextSeq := 12, nextMsg := 3, unack := [sent 9 1, sent 10 2, sent 11 2], left := [], msgs := [(1, .control, [sent 9 1]), (2, .send 5 1, [sent 10 2, sent 11 2])], backlog := [], lastSent := 0 }
def closed : SendStream := { stream with isOpen := false, unack := [], msgs := [] }
def heard : RecvStream := { nonce := 8, expect := 20, sinceAck := 0, decided := [], parts := [], nakAt := none }
/-- MessageStreams: each answer, at both ends of what an acknowledgement may name. -/
theorem test_meets_SendStreams :
    (net.setSend 9 (some stream)).sendStream (strm 2 0).src = some stream ∧ (∀ op ∈ [1, 2, 3, 4, 5, 6], net.isStream (strm op 0) op = true) ∧
    stream.nonce = (strm 2 0).nonce ∧ closed.isOpen = false ∧ closed.backlog = [] ∧ { closed with backlog := [([sent 0 0], .control)] }.backlog = [([sent 0 0], .control)] ∧
    (sent 0 0).payload.length ≤ 1024 ∧ { closed with full := true }.full = true ∧ stream.isOpen = true ∧ stream.unack.head? = some (sent 9 1) ∧
    (BitVec.ofNat 32 (Frame.arg (strm 3 9) 32 32) - (sent 9 1).seq).toNat = 0 ∧ (BitVec.ofNat 32 (Frame.arg (strm 3 12) 32 32) - (sent 9 1).seq).toNat = 3 ∧
    3 ≤ stream.unack.length ∧ stream.backlog = [] ∧ net.trl.waiting = [] ∧
    (net.setRecv 9 (some heard)).recvStream 9 = some heard ∧ heard.decided = [] ∧ heard.parts = [] ∧ heard.sinceAck = 0 ∧
    (∀ e ∈ { stream with msgs := [(1, .control, [sent 9 1])], unack := [sent 9 1] }.rewind, e.2 = .control ∨ e.2 = .reply) ∧
    (let t := { closed with isOpen := true, msgs := [] }; t.isOpen = true ∧ t.unack = [] ∧ t.left = [] ∧ t.backlog = [] ∧ t.rewind = []) ∧
    ({ closed with isOpen := true, msgs := [(2, .send 5 1, [sent 10 2])] } : SendStream).rewind = [([sent 10 2], .send 5 1)] ∧ net.trl.orphans = [] ∧ net.trl.retried = [] ∧
    stream.unack.length ≤ 4096 ∧ (stream.unack.map (fun f => f.payload.length)).sum ≤ 2 ^ 22 ∧
    stream.unack.length < (BitVec.ofNat 32 (Frame.arg (strm 3 13) 32 32) - (sent 9 1).seq).toNat := by decide +kernel
/-- A sequenced frame from module 9. -/
def seqd (typ : Nat) (seq nonce : Word32) (args : Nat) (payload : Bytes) : Frame := { net.mkFrame (BitVec.ofNat 8 typ) 3 9 0 payload with nonce := nonce, seq := seq, src := 9, args := BitVec.ofNat 128 args }
/-- MessageStreams: a stream, the expected frame, the last before it and the first after it, another nonce, and no room for a stream. -/
theorem test_meets_ReceiveStreams : let d := net.setRecv 9 (some heard); let fr := seqd 1 20 8 0 [];
    net.recvStream 9 = none ∧ net.trl.recv.length < 8192 ∧ d.recvStream fr.src = some heard ∧ fr.dst = d.moduleId ∧ 1 ≤ fr.typ.toNat ∧ fr.typ.toNat ≤ 7 ∧ heard.nonce = fr.nonce ∧
    fr.seq = heard.expect ∧ (heard.expect - (seqd 1 19 8 0 []).seq).toNat = 1 ∧ 2 ^ 31 < (heard.expect - (seqd 1 21 8 0 []).seq).toNat ∧
    (heard.expect - (seqd 1 (20 - 2 ^ 31) 8 0 []).seq).toNat = 2 ^ 31 ∧ heard.nakAt ≠ some d.clock ∧ (seqd 1 20 9 0 []).nonce ≠ heard.nonce ∧
    (let e := { net with trl := { net.trl with recv := (List.range 8192).map (fun k => (100 + k, some heard)) } }; e.recvStream 9 = none ∧ 8192 ≤ e.trl.recv.length) ∧
    { heard with sinceAck := 63 }.sinceAck + 1 = 64 ∧ heard.sinceAck = 0 ∧ { heard with nakAt := some d.clock }.nakAt = some d.clock ∧ (seqd 8 20 8 0 []).typ = 8 ∧
    (8 : Nat) < (seqd 9 20 8 0 []).typ.toNat ∧ { fr with dst := 0xFFFF }.dst = 0xFFFF ∧ net.isStream (strm 1 0) 1 = true ∧ net.isStream (strm 2 0) 1 = false := by decide +kernel
/-- The module with an accepted message, and what is left of it when the message is taken. -/
def inbox (d : Dev) (fr : Frame) : Dev := { (d.setRecv 9 (some heard)) with trl := { (d.setRecv 9 (some heard)).trl with inbox := [fr] } }
def taken (d : Dev) (fr : Frame) : Dev := ((inbox d fr).takeFrame fr fr.typ).getD Dev.reset
def msg (typ args : Nat) (payload : Bytes) : Frame := { seqd typ 20 8 args payload with token := 9 }
/-- ReceivedMessages: BED_DATA that lands at the end of the bed, one beyond it, one refused for its token, one for no share, and an EVENT. -/
theorem test_meets_BedMessages :
    (let fr := msg 1 (1 + 0xC0 * 2 ^ 8 + 0x27FFE2 * 2 ^ 32) (List.replicate 30 1); let d := taken net fr; let x := d.pav 3;
      ((inbox net fr).takeFrame fr ftBedData).isSome = true ∧ d.refusal 1 fr = none ∧ d.allotOfToken fr.token = 1 ∧ d.pavOf 1 (Frame.arg fr 0 8) = some 3 ∧ d.decided fr .landed = .landed ∧
      Frame.arg fr 16 1 = 0 ∧ Frame.arg fr 32 22 + fr.off.toNat + 30 = bedSize ∧ x.hitsCode (Frame.arg fr 32 22) bedSize = false ∧ 0xC0 ≤ Frame.arg fr 8 8) ∧
    (let fr := msg 1 (1 + 0xC0 * 2 ^ 8 + 0x27FFE3 * 2 ^ 32) (List.replicate 30 1); (taken net fr).refusal 1 fr = none ∧ bedSize < Frame.arg fr 32 22 + fr.off.toNat + 30) ∧
    (let fr := { msg 1 0 [] with token := 33 }; let d := taken net fr; d.refusal (d.allotOfToken fr.token) fr = some .access ∧ d.decided fr .access = .access) ∧
    (let e := net.updPav 3 (fun x => { x with share := none }); let fr := msg 1 (1 + 2 * 2 ^ 8 + 0x3000 * 2 ^ 32) [1]; let d := taken e fr;
      d.refusal 1 fr = none ∧ Frame.arg fr 8 8 < 0xC0 ∧ (d.pav 3).share = none) ∧
    (let fr := msg 2 (1 + 2 * 2 ^ 8 + 3 * 2 ^ 17 + 0xFFFFFFFF * 2 ^ 32 + 3 * 2 ^ 64 + 2 ^ 96) []; let d := taken net fr; let x := d.pav 3;
      ((inbox net fr).takeFrame fr ftEvent).isSome = true ∧ d.refusal 1 fr = none ∧ d.pavOf 1 (Frame.arg fr 0 8) = some 3 ∧ x.share.map (·.group) = some (BitVec.ofNat 32 (Frame.arg fr 64 32)) ∧
      (x.srcMark fr.src (Frame.arg fr 8 8)).evOrd < Frame.arg fr 96 32 ∧ (x.srcs.filter (fun j => j.evOrd != 0)).length < 256 ∧
      (x.evc (BitVec.ofNat 6 (Frame.arg fr 17 6))).toNat + Frame.arg fr 32 32 < 2 ^ 32) := by decide +kernel
/-- ReceivedMessages: CONTRIB, PLOT_DATA in and outside a plot, SEND_DATA fresh and not. -/
theorem test_meets_DataMessages :
    (let fr := msg 3 0 ({ srcModule := 9, scaled := false, fmtB := 0, fmtA := 1, kind := 0, group := 3, part := 12, blk := 0, queue := 5, seq := 7, nanmask := 0, payload := List.replicate 128 4 } : Packet).bytes; let d := taken net fr;
      ((inbox net fr).takeFrame fr ftContrib).isSome = true ∧ d.refusal 1 fr = none ∧ d.decided fr .landed = .landed ∧ fr.last = true ∧
      d.blkOf 1 (Packet.ofBytes (d.partOf fr)).blk = some 70 ∧ d.blkOf 1 7 = none) ∧
    (let fr := msg 4 0x1000 (List.replicate 32 1); let d := taken { net with mem := { net.mem with clean := [(65536, true)] } } fr;
      d.refusal 1 fr = none ∧ d.decided fr .landed = .landed ∧ d.plotMA 1 (BitVec.ofNat 64 (Frame.arg fr 0 41 + fr.off.toNat)) 32 = some 0x100001000 ∧
      (d.memWrite (.frame fr.src.toNat fr.msg.toNat fr.off.toNat) 0x100001000 fr.payload).2 = .ok [] ∧ (net.memWrite (.frame fr.src.toNat fr.msg.toNat fr.off.toNat) 0x100001000 fr.payload).2 = .wait) ∧
    (let fr := msg 4 0x80001000 (List.replicate 32 1); let d := taken net fr; d.refusal 1 fr = none ∧ d.plotMA 1 (BitVec.ofNat 64 (Frame.arg fr 0 41 + fr.off.toNat)) 32 = none) ∧
    (let fr := msg 5 (0x1000 + 6 * 2 ^ 41 + 12 * 2 ^ 64) (List.replicate 32 1); let d := taken { net with mem := { net.mem with clean := [(65536, true)] } } fr;
      ((inbox net fr).takeFrame fr ftSendData).isSome = true ∧ d.refusal 1 fr = none ∧ fr.off = 0 ∧ fr.last = true ∧
      d.plotMA 1 (BitVec.ofNat 64 (Frame.arg fr 0 41)) 32 = some 0x100001000 ∧ (d.allot 1).sendFresh fr.src (Frame.arg fr 41 12) (Frame.arg fr 64 64) = true ∧
      d.decided fr .landed = .landed ∧ (d.memWrite (.frame fr.src.toNat fr.msg.toNat fr.off.toNat) 0x100001000 fr.payload).2 = .ok [] ∧
      ((d.allot 1).sendApplied fr.src (Frame.arg fr 41 12) (Frame.arg fr 64 64)).sendFresh fr.src (Frame.arg fr 41 12) (Frame.arg fr 64 64) = false ∧ d.decided fr .discarded = .discarded) := by decide +kernel
/-- DataMessages: each answer of a message of this module. -/
theorem test_meets_MessageAnswers :
    (∀ o ∈ [0, 1, 2, 3, 4, 5, 6], let fr := msg 6 (2 + o * 2 ^ 32) []; let e := net.setSend 9 (some stream); let d := taken e fr;
      ((inbox e fr).takeFrame fr ftMsgAck).isSome = true ∧ d.sendStream fr.src = some stream ∧ Frame.arg fr 32 8 = o ∧ (d.takeMsg fr.src (Frame.arg fr 0 32)).map (fun r => r.2.1) = some (Origin.send 5 1) ∧
      (d.takeMsg fr.src (Frame.arg fr 0 32)).map (fun r => r.1.trl.retried.length) = some 0 ∧
      (d.takeMsg fr.src 7).isNone = true ∧
      (stream.msgs.find? (fun e => e.1.toNat == Frame.arg fr 0 32)).map (fun e => (e.1, e.2.1)) = some (2, .send 5 1)) := by decide +kernel
/-- ReceivedMessages: each type refused for its token, an RSEND of the running group, CONTRIB in parts, a transfer of this module that is acknowledged. -/
theorem test_meets_Refusals :
    (∀ t ∈ [1, 2, 3, 4, 5], let fr := { msg t 0 [] with token := 33 }; let d := taken net fr; ((inbox net fr).takeFrame fr fr.typ).isSome = true ∧
      d.refusal (d.allotOfToken fr.token) fr = some .access ∧ d.decided fr .access = .access) ∧
    (let fr := msg 1 (1 + 2 * 2 ^ 8 + 0x3000 * 2 ^ 32 + 3 * 2 ^ 64 + 2 ^ 96) [1]; let d := taken net fr; let x := d.pav 3;
      d.refusal 1 fr = none ∧ Frame.arg fr 8 8 < 0xC0 ∧ x.share.map (·.group) = some (BitVec.ofNat 32 (Frame.arg fr 64 32)) ∧
      (x.srcMark fr.src (Frame.arg fr 8 8)).landOrd < Frame.arg fr 96 32 ∧ x.allot = 1) ∧
    (let fr := msg 1 (9 + 2 * 2 ^ 8) [1]; (taken net fr).refusal 1 fr = none ∧ (taken net fr).pavOf 1 (Frame.arg fr 0 8) = none) ∧
    (let e := net.updAllot 1 (fun a => { a with st := .clearing }); let fr := msg 3 0 []; let d := taken e fr;
      d.refusal 1 fr = some .retry ∧ d.decided fr .retry = .retry ∧ (d.keepPart fr).blkRefused 1 7 = true) ∧
    (let e := (net.setSend 9 (some { stream with msgs := [(2, .xfer 5 1 2 4, [sent 10 2])] })).setPav 2 ((runX (xfer .rsend)).pav 2); let fr := msg 6 2 []; let d := taken e fr;
      (d.takeMsg fr.src 2).map (fun r => r.2.1) = some (.xfer 5 1 2 4) ∧ (d.pav 2).ownOf = some (5, 1)) := by decide +kernel
/-- A CONTROL message from module 9 about queue 5, SEQUENCE 1 and group 3. -/
def ctl (sub result blk : Nat) : Frame := msg 7 (sub + result * 2 ^ 8 + blk * 2 ^ 16 + 5 * 2 ^ 26 + 3 * 2 ^ 64) (leBytes 8 1)
def ctaken (d : Dev) (fr : Frame) (k : Nat) : Dev := ((inbox d fr).takeControl fr k).getD Dev.reset
/-- ControlMessages: a probe of a block that is armed, committed and absent, a contributor, a gang of two modules, the phases. -/
theorem test_meets_ControlMessages :
    (∀ k ∈ [1, 2, 3, 4, 5, 6, 7, 8], ((inbox net (ctl k 1 0)).takeControl (ctl k 1 0) k).isSome = true) ∧ net.allotOfToken (ctl 1 0 0).token = 1 ∧
    (∀ st ∈ [BlkSt.armed, .committed], let e := { net with blks := [(70, { CisBlk.reset with allot := 1, st := st, group := 3, fresh := false })] }; let d := ctaken e (ctl 1 0 0) 1;
      d.blkOf 1 0 = some 70 ∧ (d.blk 70).allot = 1 ∧ (d.blk 70).fresh = false ∧ (d.blk 70).st = st ∧ (d.blk 70).group = BitVec.ofNat 32 (Frame.arg (ctl 1 0 0) 64 32)) ∧
    (∀ k ∈ [3, 5, 6, 7, 8], let fr := { ctl k 0 0 with token := 33 }; ((inbox net fr).takeControl fr k).isSome = true ∧ net.allotOfToken fr.token = 0) ∧
    groupNewer 4 (BitVec.ofNat 32 (Frame.arg (ctl 1 0 0) 64 32)) = true ∧ groupNewer 3 (BitVec.ofNat 32 (Frame.arg (ctl 1 0 0) 64 32)) = false ∧
    (ctaken net (ctl 1 0 6) 1).blkOf 1 6 = none ∧ Frame.arg (ctl 2 1 0) 8 8 = 1 ∧ Frame.arg (ctl 2 2 0) 8 8 ≠ 1 ∧
    (let e := net.updQueue 5 (fun x => { x with execs := [{ done1 with data := kern ||| desc [(0x5C, 0, 2)] }] }); let d := ctaken e (ctl 3 0 0) 3;
      (d.homeDone 1 3 (9, 5, 1)).2 = false ∧ ((d.homeDone 1 3 (3, 5, 1)).1.homeDone 1 3 (9, 5, 1)).2 = true) ∧
    (∀ c ∈ [false, true], let e := net.updExec 5 1 (fun x => { x with contribs := [⟨1, 2, none, 3, false⟩], complete := c }); let d := ctaken e (ctl 8 0 2) 8;
      ((d.execsOf 1).filter (fun e => !e.2.issued && e.2.contribs.any (fun k => (d.allot 1).modules[k.module]? == some 9 && k.blk == 2 && k.group == 3))).map (fun e => (e.1, e.2.complete)) = [(5, c)]) := by decide +kernel
/-- PortTraining: a register that may be written, one that is locked, and one with a port enabled. -/
theorem test_meets_ModuleIdentity : let k := Reg.TRL_MODULE_ID;
    (run.fld k F.TRL_MODULE_ID_LOCK ≠ 1 ∧ (∀ p, p < 18 → run.fld (Reg.TRL_PORT_CFG p) F.TRL_PORT_CFG_EN ≠ 1) ∧ F.TRL_MODULE_ID_ID.get 0xFFFE ≠ 0xFFFF ∧
      F.TRL_MODULE_ID_ID.get 0xFFFE ≠ run.fld k F.TRL_MODULE_ID_ID ∧ run.trl.send = []) ∧ (run.setFld k F.TRL_MODULE_ID_LOCK 1).fld k F.TRL_MODULE_ID_LOCK = 1 ∧
    net.fld (Reg.TRL_PORT_CFG 4) F.TRL_PORT_CFG_EN = 1 ∧ F.TRL_MODULE_ID_ID.get 0xFFFF = 0xFFFF := by decide +kernel

/-! ### The Orangery and the valves (chapters 10 and 11) -/

/-- Zone 2 in automatic mode. -/
def zoned (l : List (Nat × Word32)) (sens : List (Nat × Nat)) : Dev :=
  let d : Dev := { run with org := { run.org with sensors := sens.map (fun (e : Nat × Nat) => (e.1, { Sensor.reset with seen := true, value := e.2 })), zones := [(2, { Zone.reset with on := true, auto := true })] }, vdr := { run.vdr with resetForce := false } }
  ((([(Reg.ORG_ZONE_UMIN 2, 1000), (Reg.ORG_ZONE_UMAX 2, 60000), (Reg.ORG_ZONE_SP 2, 75 * 65536)] : List (Nat × Word32))) ++ l).foldl (fun (d : Dev) (e : Nat × Word32) => d.setReg e.1 e.2) ((d.setFld (Reg.ORG_ZONE_CFG 2) F.ORG_ZONE_CFG_EN 1).setFld (Reg.ORG_ZONE_CFG 2) F.ORG_ZONE_CFG_MODE 1)
/-- The cold sensors of a zone and its coolant. -/
def sensors (t : Nat) : List (Nat × Nat) := [(4, 70 * 128), (5, 71 * 128)] ++ (List.range 40).map (fun k => (144 + k, t + k))
/-- ZoneLoops: a sample of one automatic zone, a following error, a keep-warm load. -/
theorem test_meets_ZoneLoops :
    (let d := zoned [(Reg.ORG_ZONE_KP 2, 30000), (Reg.ORG_ZONE_KI 2, 700)] (sensors (60 * 128));
      d.uminEff 2 ≤ d.qReg (Reg.ORG_ZONE_UMAX 2) ∧ d.pair.swap = false ∧ d.activeCore = some 0 ∧ d.coreSt (otherCore 0) ≠ 2 ∧ d.tripBits = 0 ∧ d.loopsHeld = false ∧ d.org.ready = none ∧
      d.fld (Reg.ORG_ZONE_CFG 2) F.ORG_ZONE_CFG_EN = 1 ∧ d.fld (Reg.ORG_ZONE_CFG 2) F.ORG_ZONE_CFG_MODE = 1 ∧ (d.zone 2).on = true ∧ (d.zone 2).auto = true ∧
      (d.zone 2).wasHeld = false ∧ ∀ j, j < 12 → j ≠ 2 → d.fld (Reg.ORG_ZONE_CFG j) F.ORG_ZONE_CFG_EN = 0 ∧ (d.zone j).on = false) ∧
    (let d := zoned [(Reg.ORG_ZONE_OUT 2, 60000), (Reg.ORG_ZONE_READ 2, 95 * 65536)] [];
      (d.zone 2).on = true ∧ (d.zone 2).fe = false ∧ ((d.fld (Reg.ORG_ZONE_FE 2) F.ORG_ZONE_FE_LIMIT * 512 : Nat) : Int) < d.qReg (Reg.ORG_ZONE_READ 2) - d.qReg (Reg.ORG_ZONE_SP 2) ∧
      d.qReg (Reg.ORG_ZONE_OUT 2) = d.qReg (Reg.ORG_ZONE_UMAX 2)) ∧
    (let d := ((zoned [(Reg.ORG_ZONE_OUT 2, 20 * 256)] (sensors (10 * 128))).setFld Reg.ORG_KW_CFG F.ORG_KW_CFG_LB 15 |>.setFld Reg.ORG_KW_CFG F.ORG_KW_CFG_UMIN 20).setFld Reg.ORG_CTRL F.ORG_CTRL_KW_LOAD_EN 1;
      d.fld Reg.ORG_CTRL F.ORG_CTRL_KW_LOAD_EN = 1 ∧ d.keepWarm 2 = true ∧ (d.zone 2).on = true ∧ d.qReg (Reg.ORG_ZONE_OUT 2) = d.uminEff 2) ∧
    (let d := (zoned [] []).setFld (Reg.ORG_ZONE_CFG 2) F.ORG_ZONE_CFG_EN 0; d.fld (Reg.ORG_ZONE_CFG 2) F.ORG_ZONE_CFG_EN = 0 ∧ (d.zone 2).on = true) ∧
    (let d := (zoned [] []).setFld (Reg.ORG_ZONE_CFG 2) F.ORG_ZONE_CFG_MODE 0; d.fld (Reg.ORG_ZONE_CFG 2) F.ORG_ZONE_CFG_EN = 1 ∧ d.fld (Reg.ORG_ZONE_CFG 2) F.ORG_ZONE_CFG_MODE = 0 ∧
      d.activeCore = some 0) ∧ (sensorKind 4).isSome = true ∧ (run.zone 2).on = false := by decide +kernel
/-- PowerLeases: demands above the floor and a budget that just holds the floors, a period, the flow, a prediction; whether a run holds a NaN is open (log), so its premise is not decided here. -/
theorem test_meets_PowerLeases :
    (∀ x ∈ [16, 20, 300, 77, 16], 16 ≤ x) ∧ 16 * [16, 20, 300, 77, 16].length ≤ 80 ∧ run.activeCore = some 0 ∧
    ({ run with org := { run.org with higher := [(3, 200)] } } : Dev).org.higher = [(3, 200)] ∧ run.floorCap ≤ (run.pav 159).lease ∧ run.fld Reg.ORG_CTRL F.ORG_CTRL_LEASE_EN = 0 ∧
    (let d := (run.setFld Reg.ORG_FLOW_REQ F.ORG_FLOW_REQ_REQ 4000).setFld Reg.ORG_FLOW_CFG F.ORG_FLOW_CFG_FE_LIMIT 1;
      d.org.flowFe = false ∧ d.fld Reg.ORG_FLOW_CFG F.ORG_FLOW_CFG_FE_LIMIT * 1024 < 100 * (d.fld Reg.ORG_FLOW_REQ F.ORG_FLOW_REQ_REQ - d.flow)) ∧
    (let d := { run.setFld Reg.ORG_FLOW_REQ F.ORG_FLOW_REQ_REQ 153 with org := { run.org with flowFe := true } };
      d.org.flowFe = true ∧ 200 * (d.fld Reg.ORG_FLOW_REQ F.ORG_FLOW_REQ_REQ - d.flow) ≤ d.fld Reg.ORG_FLOW_CFG F.ORG_FLOW_CFG_FE_LIMIT * 1024) ∧
    (let d := { run.setFld Reg.ORG_CTRL F.ORG_CTRL_PRED_EN 1 with org := { run.org with nextModel := some [], model := some [], run := some [0] } };
      d.org.nextModel = some [] ∧ d.org.model = some [] ∧ d.fld Reg.ORG_CTRL F.ORG_CTRL_PRED_EN = 1 ∧ d.org.run = some [0] ∧ d.isGated 19 = false ∧
      ({ d with org := { d.org with nextModel := none } } : Dev).predRuns = true) ∧ run.predRuns = false ∧ (up.setCoreSt 0 3 |>.setCoreSt 1 3).activeCore = none := by decide +kernel
/-- HazardPath: a latched hazard, a leak that is dry and one that is not, a heartbeat kept at the last microsecond and one lost, ISOLATE_N on and off. -/
theorem test_meets_HazardPath :
    (run.setFld Reg.ORG_HAZ_STATUS F.ORG_HAZ_STATUS_LATCHED 3).latched ≠ 0 ∧
    ({ run with org := { run.org with lastWet := some 0 }, clock := 70000000 } : Dev).dryFor = true ∧ ({ run with org := { run.org with lastWet := some 6 }, clock := 7 } : Dev).dryFor = false ∧
    (let d := run.setFld Reg.SUN_HB_CFG F.SUN_HB_CFG_EN 1; d.fld Reg.SUN_HB_CFG F.SUN_HB_CFG_EN = 1 ∧ d.hbLost = false ∧ d.isolateN = false ∧
      (let e := { d.setFld Reg.SUN_HB_STATUS F.SUN_HB_STATUS_HB_LOST 1 with hb := ⟨some 0, 2⟩, clock := d.hbTimeout };
        e.hbLost = true ∧ 2 ≤ e.hb.run ∧ e.hb.last = some 0 ∧ e.clock ≤ 0 + e.hbTimeout ∧ 0 + e.hbTimeout < e.clock + 1)) ∧
    (run.setFld Reg.SUN_HB_STATUS F.SUN_HB_STATUS_ISOLATE 1).isolateN = true := by decide +kernel
/-- A module with power on the valves and channel 3 changed. -/
def valves (f : Chan → Chan) : Dev := { run with vdr := { chans := [(3, f { Chan.reset with st := .run, phase := .hold, level := 30, target := 500, pc := 255 }), (12, { Chan.reset with st := .run, level := 7, target := 300 })], lastCmd := some 9, resetForce := false, railUv := false, railMv := 12000 } }
/-- FountainInstructions: a running channel, one that must defer, one that deferred, and each wait. -/
theorem test_meets_Fountain : ((valves id).chan 3).st = .run ∧ ((valves id).chan 3).wait = none ∧ (valves id).mustDefer 3 = false ∧
    (((({ valves id with clock := 100 } : Dev).setChan 1 { Chan.reset with st := .run, phase := .boost, boostSince := some 2 }).setFld Reg.VDR_CTRL F.VDR_CTRL_MAXBOOST 1).mustDefer 3 = true) ∧
    (let d := valves (fun x => { x with st := .defer, deferSince := some 0 }); (d.chan 3).st = .defer ∧ (d.chan 3).deferSince = some 0 ∧ d.mustDefer 3 = false) ∧
    ((valves (fun x => { x with wait := some (.time 5) })).chan 3).wait = some (.time 5) ∧ ((valves (fun x => { x with wait := some (.current 5) })).chan 3).wait = some (.current 5) ∧
    (let x := (valves (fun x => { x with wait := some (.current 5), target := 2500 })).chan 3; 16 * (x.target - 2380) ≤ x.target ∧ ¬ (16 * (x.target - 2300) ≤ x.target) ∧ (valves id).clock < 5) ∧
    (let x := (valves (fun x => { x with wait := some (.ramp 5), src := .ramp 10 40 3 2 })).chan 3; x.wait = some (.ramp 5) ∧ x.src = .ramp 10 40 3 2) ∧
    (let w : FtnF := ⟨0, 4095⟩; w.a.toNat = 0 ∧ w.b.toNat < 4096) ∧ (let w : FtnF := ⟨3, 0⟩; w.a.toNat = 3 ∧ w.b.toNat = 0) := by decide +kernel
/-- ValveCommands: commands refused and taken, a boost, trips within and after 10 s, an open load, the rail. -/
theorem test_meets_ValveCommands :
    (let d := { (valves (fun x => { x with cmd := some .stop })).setFld Reg.VDR_CTRL F.VDR_CTRL_EDIT 0 with clock := 50009 };
      (d.chan 3).cmd = some .stop ∧ d.refuses 3 = false ∧ (d.chan 3).st = .run ∧ d.vdr.lastCmd = some 9 ∧ 9 + 50000 ≤ d.clock) ∧
    (let d := valves (fun x => { x with cmd := some (.level 40), st := .defer, target := 30 }); (d.chan 3).cmd = some (.level (40 : BitVec 12).toNat) ∧ (d.chan 3).st = .defer ∧ d.refuses 3 = false ∧ d.editing = false) ∧
    (let d := valves (fun x => { x with cmd := some (.start 40) }); (d.chan 3).cmd = some (.start (40 : BitVec 12).toNat) ∧ d.refuses 3 = false ∧ d.editing = false) ∧
    (let d := valves (fun x => { x with cmd := some (.level 0), st := .idle }); (d.chan 3).cmd = some (.level (0 : BitVec 12).toNat) ∧ (d.chan 3).st = .idle ∧ d.refuses 3 = false ∧ d.editing = false) ∧
    (let d := (valves id).setFld Reg.VDR_CTRL F.VDR_CTRL_EDIT 0; (d.chan 12).cmd = none ∧ d.refuses 12 = false ∧ d.editing = false ∧ (d.chan 12).st = .run) ∧
    (let d := valves (fun x => { x with st := .openLoad }); (d.chan 3).cmd = none ∧ d.refuses 3 = true) ∧
    ((valves (fun x => { x with st := .idle })).chan 3).st = .idle ∧ ((valves (fun x => { x with phase := .boost })).chan 3).boosting = true ∧
    (let d := { valves (fun x => { x with tripAt := some 0 }) with clock := 10000000 }; d.fitted 3 = true ∧ d.chLimit 3 < 4500 ∧ (d.chan 3).tripAt = some 0 ∧
      d.clock ≤ 0 + 10000000 ∧ 0 + 10000000 < d.clock + 1) ∧ ((valves id).chan 3).tripAt = none ∧ ((valves (fun x => { x with st := .tripped })).chan 3).st = .tripped ∧ 200 ≤ ((valves id).chan 3).target ∧
    (let x := (valves (fun x => { x with st := .openLoad, offPass := 2 })).chan 3; x.st = .openLoad ∧ x.offPass = 2) ∧ ((valves (fun x => { x with st := .openLoad })).chan 3).offPass < 2 ∧
    (9999 : BitVec 16).toNat < 10000 ∧ 10000 ≤ (10000 : BitVec 16).toNat ∧ 10800 < (10801 : BitVec 16).toNat ∧ (10800 : BitVec 16).toNat ≤ 10800 := by decide +kernel
/-- A check of valve 12 in its window, with a flow. -/
def checking (fails flow : Nat) (v : Verify) : Dev := let d := valves id; { (d.setChan 12 { d.chan 12 with verify := some v, fails := fails }) with org := { d.org with sensors := [(28, { Sensor.reset with seen := true, value := flow }), (29, { Sensor.reset with seen := true, value := flow })] } }
/-- ValveCommands: a check that passes at the last flow, one that fails twice and the third time, and one of zone 3 that is not judged. -/
theorem test_meets_ValveUpkeep :
    ((checking 2 511 ⟨true, 0, false, 0⟩).chan 12).verify = some ⟨true, 0, false, 0⟩ ∧ (checking 2 511 ⟨true, 0, false, 0⟩).flow < 512 ∧ ¬ (checking 2 512 ⟨true, 0, false, 0⟩).flow < 512 ∧
    820 ≤ (checking 1 820 ⟨false, 0, false, 0⟩).flow ∧ ((checking 2 900 ⟨true, 0, false, 0⟩).chan 12).fails = 2 ∧ ((checking 2 900 ⟨true, 0, false, 0⟩).chan 12).suspect = false ∧
    ((checking 1 900 ⟨true, 0, false, 0⟩).chan 12).fails < 2 ∧ (valves (fun x => { x with verify := some ⟨true, 0, true, 0⟩ }) |>.chan 3).verify = some ⟨true, 0, true, 0⟩ ∧
    (∀ j, j < 16 → (Dev.reset.chan j).st = .idle) ∧ ((valves id).chan 3).st ≠ .idle := by decide +kernel

/-! ### The thermal bus (chapter 12) -/

def canFrame (id : BitVec 29) (data : Bytes) : CanFrame := ⟨false, false, false, false, false, false, id, BitVec.ofNat 4 data.length, data⟩
/-- Both controllers on, with slot 9. -/
def busUp : Dev := (((run.setFld (Reg.TBC_CTRL 0) F.TBC_CTRL_EN 1).setFld (Reg.TBC_CTRL 1) F.TBC_CTRL_EN 1).setFld (Reg.TBC_CTRL 0) F.TBC_CTRL_MODE 0).setFld Reg.TBC_NODE F.TBC_NODE_SLOT 9
/-- Mailbox 20 of TB0 with identifier, state and ONESHOT, its frame on the bus, and the controller's error count and state. -/
def mailbox (id st oneshot : Nat) : Dev := (((busUp.setFld (Reg.TBC_MB_ID 0 20) F.TBC_MB_ID_ID id).setMbSt 0 20 st).setFld (Reg.TBC_MB_CTRL 0 20) F.TBC_MB_CTRL_ONESHOT oneshot)
def onBus (oneshot tec es : Nat) : Dev := (((mailbox 0x500 2 oneshot).updCan 0 (fun c => { c with onBus := some (20, canFrame 0x500 [1, 2]) })).setFld (Reg.TBC_ERR 0) F.TBC_ERR_TEC tec).setFld (Reg.TBC_ERR 0) F.TBC_ERR_STATE es
/-- BusControllers: identifiers at both ends of the reserved range, each end of an attempt, bus-off, and a frame a filter takes. -/
theorem test_meets_BusControllers :
    (mailbox 0x33F 0 0).fld (Reg.TBC_MB_ID 0 20) F.TBC_MB_ID_ID % 2048 < 0x340 ∧ 0x340 ≤ (mailbox 0x340 0 0).fld (Reg.TBC_MB_ID 0 20) F.TBC_MB_ID_ID % 2048 ∧
    (mailbox 0x340 0 0).mbSt 0 20 ≠ 2 ∧ (mailbox 0x340 2 0).mbSt 0 20 = 2 ∧ (mailbox 0x340 1 0).mbSt 0 20 = 1 ∧ ((mailbox 0x500 1 0).setMbSt 0 25 1).mbNext 0 = some 25 ∧
    (let d := onBus 1 247 0; (d.can 0).onBus = some (20, canFrame 0x500 [1, 2]) ∧ 20 ∉ (d.can 0).again ∧ d.oneshot 0 20 = true ∧ d.fld (Reg.TBC_ERR 0) F.TBC_ERR_TEC + 8 < 256) ∧
    (let d := onBus 0 248 1; d.oneshot 0 20 = false ∧ d.busOff 0 = false ∧ 256 ≤ d.fld (Reg.TBC_ERR 0) F.TBC_ERR_TEC + 8 ∧ d.fld (Reg.TBC_ERR 0) F.TBC_ERR_STATE = 1) ∧
    (mailbox 0x500 1 0).busTx 0 = true ∧ ((onBus 0 255 2).updCan 0 (fun c => { c with recovering := true })).busOff 0 = true ∧
    (let d := (busUp.setFld (Reg.TBC_FILT_MASK 0 40) F.TBC_FILT_MASK_MASK 0).setFld (Reg.TBC_FILT_ID 0 40) F.TBC_FILT_ID_EN 1; let fr := canFrame 0x500 [1];
      d.busHears 0 = true ∧ (onBus 0 255 2).busHears 0 = false ∧ d.busNormal 0 = true ∧ d.fld (Reg.TBC_CTRL 0) F.TBC_CTRL_FD_EN ≠ 1 ∧ { fr with fdf := true }.fdf = true ∧
      (let e := (d.setFld (Reg.TBC_CTRL 0) F.TBC_CTRL_MODE 1).setFld (Reg.TBC_CTRL 0) F.TBC_CTRL_FD_EN 1; e.busHears 0 = true ∧ e.busNormal 0 = false ∧ e.fld (Reg.TBC_CTRL 0) F.TBC_CTRL_FD_EN = 1 ∧ { fr with res := true }.res = true) ∧ fr.fdf = false ∧ fr.res = false ∧ d.filterOf 0 fr = some 40 ∧ (d.can 0).fifo.length < 64 ∧
      64 ≤ ((d.updCan 0 (fun c => { c with fifo := List.replicate 64 (fr, 33) })).can 0).fifo.length) ∧
    (let fr := canFrame 0x280 [1, 2, 3, 4, 5, 6, 7, 8]; busUp.filterOf 0 fr = some 3 ∧ busUp.filterOf 0 (canFrame (0x180 + 9) [1, 2, 3, 4, 5, 6, 7, 8]) = some 2 ∧
      busUp.filterOf 0 (canFrame 0x2C0 []) = some 4 ∧ fr.rtr = false ∧ fr.fdf = false ∧ fr.dlc = 8 ∧ busUp.filterOf 0 (canFrame 0x7FF []) = none) ∧
    (busUp.can 0).quiet ≠ 0 ∧ busUp.busHears 0 = true ∧ busUp.busNormal 0 = true := by decide +kernel
/-- BusMessages: an active core and none, ISOLATE forced, repeated and new. -/
theorem test_meets_BusMessages : let v := { busUp with vdr := { run.vdr with resetForce := false, railMv := 12000, railUv := false } };
    busUp.busHears 0 = true ∧ (onBus 0 255 2).busHears 0 = false ∧ (busUp.setMbSt 0 0 2).mbSt 0 0 = 2 ∧ busUp.busOn 0 = true ∧ busUp.mbSt 0 0 ≠ 2 ∧ busUp.activeCore.isSome = true ∧ ((busUp.setCoreSt 0 2).setCoreSt 1 2).activeCore = none ∧ busUp.forced = true ∧
    v.forced = false ∧ v.org.isoSeq ≠ some (1, 7) ∧ ({ v with org := { v.org with isoSeq := some (1, 7) } } : Dev).org.isoSeq = some (1, 7) ∧ (1 : Byte).toNat ≤ 1 := by decide +kernel
/-- A module that follows network time on TB0 or is its master. -/
def timed (master : Nat) (x : TimeSvc) : Dev := { busUp.setFld Reg.TBC_TIME_CFG F.TBC_TIME_CFG_MASTER master with clock := 1000, time := x }
/-- BusMessages: the first reference, a pair, a rate at the nominal clock, the master, valid time. -/
theorem test_meets_BusTime : let x := busUp.time;
    (rateOf 123444 6040 123456 7000).isSome = true ∧ (timed 0 x).timeMaster = false ∧ (timed 0 x).timeSrc = 0 ∧ (timed 0 x).time.last = none ∧
    (let y := { x with last := some (3, 7000) }; y.last = some ((4 : Byte) - 1, 7000) ∧ y.pair = none ∧ y.line = none ∧ ¬ (3 : Byte) + 1 = 9) ∧ (timed 1 x).timeMaster = true ∧
    (timed 1 { x with sentAt := some 500 }).time.sentAt = some 500 ∧ (timed 1 x).busOn (timed 1 x).timeSrc = true ∧ (timed 0 x).busHears (timed 0 x).timeSrc = true ∧
    (let l : TimeLine := { t := 123444, l := 6040, num := 123456 - 123444, den := 12, slew := 0, slewAt := 6040 }; let y := { x with last := some (3, 7000), pair := some (123444, 6040), line := some l };
      y.last = some ((4 : Byte) - 1, 7000) ∧ y.pair = some (123444, 6040) ∧ y.line ≠ none ∧ rateOf 123444 6040 123456 6040 = none) ∧ (timed 0 { x with valid := true }).time.valid = true ∧
    (let d := { timed 0 { x with valid := true, pairAt := some 7 } with clock := 1000007 };
      d.time.pairAt = some 7 ∧ 7 + 100000 * max 1 (d.fld Reg.TBC_TIME_CFG F.TBC_TIME_CFG_TIMEOUT) = d.clock) ∧
    (((timed 1 x).updCan 0 (fun c => { c with onBus := some (3, canFrame 0xC0 []) })).can 0).onBus = some (3, canFrame 0xC0 []) := by decide +kernel
/-- ReceivedMessages, LocalMessages, CisternCommands: a recorded decision and none, a fresh and a stale landing ordinal, a packet not whole that is accepted and one that is not, messages while the allotment is CLEARING. -/
theorem test_meets_MessageDecisions :
    (let fr := { msg 1 (1 + 2 * 2 ^ 8 + 0x3000 * 2 ^ 32 + 3 * 2 ^ 64 + 2 ^ 96) [1] with last := false }; let d := taken net fr; let e := d.setRecv 9 (some { heard with decided := [(fr.msg, .discarded)] });
      d.recorded fr = none ∧ e.recorded fr = some .discarded ∧ (d.pav 3).share.map (·.group) = some (BitVec.ofNat 32 (Frame.arg fr 64 32)) ∧ d.bedRow 1 fr = .landed ∧
      ((d.pav 3).srcMark fr.src 2).landOrd < Frame.arg fr 96 32 ∧ d.bedRow 1 { fr with args := BitVec.ofNat 128 (fr.args.toNat - 2 ^ 96) } = .discarded ∧
      d.bedRow 1 { fr with token := 33 } = .landed ∧ d.bedRow 0 fr = .access) ∧
    (let k : Packet := { srcModule := 9, scaled := false, fmtB := 0, fmtA := 1, kind := 0, group := 3, part := 12, blk := 70, queue := 9, seq := 7, nanmask := 0, payload := [] }; let d := cis armed;
      (match d.packetRow 1 70 { k with part := arm.partBase + BitVec.ofNat 32 arm.i + 1 } with | .accept _ _ => true | _ => false) = true ∧ d.packetRow 1 70 { k with group := 4 } = .retry ∧ d.packetRow 2 70 k = .access) ∧
    (let t : Xfer := { xfer .esig with dstPav := 1, ord := 1 }; let d := (runX t).updAllot 1 (fun a => { a with st := .clearing });
      (d.allot (d.pav 2).allot).st = .clearing ∧ (d.pav 2).xfer? 4 = some t ∧ t.dstMod = d.lmod (d.allot 1) ∧ d.pavOf 1 1 = some 3 ∧ (runX t).toward = []) ∧
    (let d := (cis { posting with out := [1] }).updAllot 1 (fun a => { a with st := .clearing }); (d.allot 1).st = .clearing ∧ ∀ t ∈ (posting.params.getD arm).targets, d.isLocal posting.allot t = true) := by decide +kernel


/-! ### The Gatehouse (chapter 13) -/

/-- The module with its host link up and the Gatehouse in a phase, keys delivered and the I3C address given. -/
def gated (g : Gate → Gate) : Dev := let d := run.setFld Reg.GLB_HP_LINK F.GLB_HP_LINK_STATE 2; { d with gate := g { d.gate with i3c := some 9 }, keys := [⟨77, 99, 0, false, 3⟩, ⟨78, 100, 0, true, 4⟩], clock := 50 }
def staged (o : Mbx) (n : Nat) : Staging := ⟨o, 3, n, [(0, 7)], 0⟩
/-- GatehouseCommands: mailboxes that are served, staging of each owner at both ends of its kinds, key handles of each kind, records, items, cores; a commit that fails. -/
theorem test_meets_GatehouseCommands : let d := gated id; let e := gated (fun g => { g with staging := some (staged .cxl 200) });
    d.gate.up = true ∧ d.inLodge = false ∧ d.doorbell = false ∧ d.fld Reg.KDV_MBX_CTRL F.KDV_MBX_CTRL_GO ≠ 1 ∧ (d.setFld Reg.GHM_MBX_CTRL F.GHM_MBX_CTRL_GO 1).fld Reg.GHM_MBX_CTRL F.GHM_MBX_CTRL_GO = 1 ∧
    (gated (fun g => { g with up := false })).gate.up = false ∧ (let l := d.setFld Reg.KDV_STATE F.KDV_STATE_MODE 1; l.inLodge = true ∧ l.gate.up = true ∧ l.linkUp = true) ∧ tooLong .kdv (8 + 25) = true ∧ tooLong .ghm (8 + 3) = false ∧
    (let w := fun (m v : Nat) => ((d.reg Reg.GHM_DEBUG).toNat &&& (63 - m)) ||| v; w 24 8 ≠ (d.reg Reg.GHM_DEBUG).toNat ∧ w 0 0 = (d.reg Reg.GHM_DEBUG).toNat) ∧ 10 < (11 : Byte).toNat ∧
    (let x := staged .ghm 200; x.owner = .ghm ∧ ¬ [1, 2, (3 : Byte)].length > x.total) ∧ d.linkUp = true ∧ d.gate.i3c.isSome = true ∧ d.fld Reg.GHM_MBX_CTRL F.GHM_MBX_CTRL_GO = 0 ∧ d.gate.staging = none ∧
    (∀ k ∈ ([1, 6] : List Byte), 1 ≤ k.toNat ∧ k.toNat ≤ 6) ∧ 6 < (7 : Byte).toNat ∧ (2 ^ 19 : Word32).toNat ≤ 2 ^ 19 ∧ 2 ^ 19 < ((2 ^ 19 + 1 : Word32)).toNat ∧ 2 ^ 24 < ((2 ^ 24 + 1 : Word32)).toNat ∧
    e.gate.staging = some (staged .cxl 200) ∧ (staged .cxl 200).owner ≠ .i3c ∧ (staged .cxl 200).total < 198 + [1, 2, (3 : Byte)].length ∧ 197 + [1, 2, (3 : Byte)].length ≤ (staged .cxl 200).total ∧
    (d.commitStaged (staged .cxl 2)).2.1 ≠ 0 ∧ (d.keys.find? (fun k => k.handle == 77)).map (·.installed) = some false ∧ (d.keys.find? (fun k => k.handle == 78)).map (·.installed) = some true ∧
    d.keys.find? (fun k => k.handle == 79) = none ∧ (d.sun.find 5).2 = none ∧ (({ d with sun := { d.sun with ram := [{ seq := 0, pcycle := 0, opsec := 0, trigger := 1, list := 0, nreg := 0, flags := 0, nt48 := 0, gen := 0, ctx := 0, supp := 0, lost := 0, usec := 0, vals := [] }] } } : Dev).sun.find 0).2.isSome = true ∧ (1 : Byte).toNat ≤ 1 ∧ 1 < (2 : Byte).toNat ∧
    (d.inventory 1 0).isSome = true ∧ d.inventory 0 0 = none ∧ d.standbyOk = true ∧ (d.setCoreSt 1 2).standbyOk = false ∧ (d.setCoreSt 0 4).coreSt 0 = 4 ∧ d.coreSt 0 ≠ 4 := by decide +kernel
/-- A start that is at a phase of the Gatehouse. -/
def starting (n : Nat) (img : Option Bytes) : Dev := let d := gated (fun g => { g with phase := n, image := img, config := img }); { d with boot := { d.boot with running := true, keys := false } }
/-- GatehousePhases: each phase, with no image and with one; whether the checks of an image and of a configuration pass is open (log), so that premise is not decided here; the journal of reset rises. -/
theorem test_meets_GatehousePhases : (∀ n ∈ [1, 2, 3, 4, 6], (starting n none).boot.running = true ∧ (starting n none).boot.alwaysOn = true ∧ (starting n none).gate.phase = n) ∧
    (starting 3 none).gate.image = none ∧ (starting 3 (some [1])).gate.image = some [1] ∧ (starting 4 (some [1])).gate.config = some [1] ∧ (starting 6 none).boot.released = true ∧
    (starting 6 none).gate.journal = [] ∧ (starting 6 none).boot.keys = false ∧ (gated (fun g => { g with attest := none })).gate.attest = none ∧ 65536 ≤ (gated (fun g => { g with ident := 65536 })).gate.ident ∧
    (gated (fun g => { g with attest := some ⟨3, 1024, 7⟩ })).gate.attest = some ⟨3, 1024, 7⟩ ∧
    ((gated (fun g => { g with attest := some ⟨3, 1023, 7⟩ })).gate.attest).map (fun a => decide (a.next < 1024)) = some true := by decide +kernel
theorem test_meets_identity_left : ∀ pub, (starting 6 none).gate.bound 1 pub < 65536 := by
  intro pub
  show (0 : Nat) < 65536
  decide
/-- A RESERVE record under an attestation key, above its next index: signatures need no further record. -/
def reserved : JRec := let r : JRec := ⟨0, 2, 1, 300, Config.shake256 (Config.attestKey 3), 0⟩; { r with check := journalCheck r }
theorem test_meets_attest_left : ((gated (fun g => { g with attest := some ⟨3, 5, 7⟩, journal := [reserved] })).attestSign [1]).2 =
    some (Config.xmssSign (Config.attestKey 3) 5 [1]) := by
  simp [Dev.attestSign, Dev.reserve, gated, Gate.bound, Gate.latest, reserved, JRec.ok, journalCheck, Dev.setFld, Dev.setReg, Dev.updGate]
theorem test_meets_keysOfOneHash : ∀ x ∈ State.reset.dev.gate.journal, x.key = 1 → x.keyHash = Config.shake256 [] := by simp [State.reset, Dev.reset, Gate.reset]
theorem test_meets_JournalRises : State.reset.dev.gate.journalRises := by simp [State.reset, Dev.reset, Gate.reset, Gate.journalRises]
/-- A session before FINISH or after it, on a transport. -/
def sess (tr : SpdmTr) (o : Bool) : SpdmSession := ⟨3, tr, o, [], 1, 2, 0⟩
/-- A module with connections, an attestation key and a session. -/
def conn (c : SpdmConn) (o : Bool) : Dev := gated (fun g => { g with doeConn := c, i3cConn := c, signing := true, attest := some ⟨3, 5, 7⟩, sessions := [sess .doe o], nextSess := 4, traceSize := 7, traceIx := 6, traceBase := 0x1000 })
def hashed : SpdmConn := ⟨some 0x12, none, some false, some (3, 5, [1, 2])⟩
/-- SpdmRequests: a connection before and after the negotiation, an offer that fits and one that does not, sessions, the trace; whether a FINISH verifies is open (log), so that premise is not decided here. -/
theorem test_meets_SpdmRequests : let d := conn hashed true; let e := conn ⟨some 0x12, some 4, none, some (3, 5, [1, 2])⟩ false; let g := gated id;
    d.hears .doe = true ∧ d.hears .i3c = true ∧ run.hears .i3c = false ∧ d.measureBlocks .doe 9 = none ∧ (run.gate.conn .doe).large = none ∧ (run.gate.conn .doe).sha3 = none ∧
    (let k := { d with keys := List.replicate 1024 ⟨77, 99, 0, false, 3⟩ }; 1024 ≤ k.keys.length ∧ k.secured .doe (some 3) = true) ∧ d.gate.session? 9 = none ∧
    (let y := gated (fun g => { g with i3c := none, sessions := [sess .i3c true] }); y.gate.session? 3 = some (sess .i3c true) ∧ y.hears .i3c = false) ∧
    ((gated (fun g => { g with attest := none, ident := 65536, signing := true })).attestSign [1]).2 = none ∧ (e.gate.conn .doe).xfer = some 4 ∧ [1, 2, (3 : Byte)].length ≤ 4 ∧ 4 < [1, 2, 3, 4, (5 : Byte)].length ∧ (g.gate.conn .doe).version = none ∧ (e.gate.conn .doe).version.isSome = true ∧ (e.gate.conn .doe).sha3 = none ∧ (d.gate.conn .doe).sha3 = some false ∧
    e.offerOk ⟨true, true, 4, e.reg Reg.GHM_IDENT, 0x10, true, true⟩ = true ∧ e.offerOk ⟨true, true, 3, e.reg Reg.GHM_IDENT, 0x10, true, true⟩ = false ∧ e.offerOk ⟨false, false, 4, 0, 0, true, true⟩ = false ∧
    (let q : VendorReq := ⟨4, d.reg Reg.GHM_IDENT, []⟩; q.registry = 4 ∧ q.enterprise = d.reg Reg.GHM_IDENT) ∧ ¬ ((⟨3, 0, []⟩ : VendorReq).registry = 4) ∧ (d.gate.conn .doe).xfer = none ∧
    d.gate.signing = true ∧ (gated (fun g => { g with signing := false })).gate.signing = false ∧ (d.measureBlocks .doe 1).isSome = true ∧ d.gate.sessions.length < 8 ∧
    8 ≤ (gated (fun g => { g with sessions := List.replicate 8 (sess .doe false) })).gate.sessions.length ∧ (e.gate.conn .doe).large = some (3, 5, [1, 2]) ∧ (e.gate.conn .doe).xfer = some 4 := by decide +kernel
/-- The sealed requests, vendor requests and trace of SpdmRequests. -/
theorem test_meets_SpdmRequests2 : let d := conn hashed true; let e := conn ⟨some 0x12, some 4, none, some (3, 5, [1, 2])⟩ false;
    d.secured .doe (some 3) = true ∧ d.secured .doe none = false ∧ blobNat (1 :: List.replicate 40 0) 0 1 = 1 ∧ (1 :: List.replicate 40 (0 : Byte)).length = 41 ∧ d.keys.length < 1024 ∧
    d.gate.session? 3 = some (sess .doe true) ∧ e.gate.session? 3 = some (sess .doe false) ∧ (d.pldm .base).isSome = true ∧ d.pldm (.other 9) = none ∧ run.gate.i3c = none ∧
    (let t := { d.setReg Reg.GHM_DEBUG 8 with hp := hostUp.hp }; (t.reg Reg.GHM_DEBUG).toNat.testBit 3 = true ∧ t.tracing = true ∧ t.pfReach = true ∧ t.gate.traceSize ≠ 0) ∧
    (d.setReg Reg.GHM_DEBUG 8).pfReach = false ∧ (d.reg Reg.GHM_DEBUG).toNat.testBit 3 = false ∧ d.tracing = false ∧
    1 ≤ (1 : Byte).toNat ∧ (7 : Byte).toNat ≤ 7 ∧ 7 < (8 : Byte).toNat := by decide +kernel

/-! ### Clocks, supply and start (chapter 14) -/

/-- ClockSources: counts at both ends of the accepted range and one past them, a source on its way to stable, one stable and one failed, gates. -/
theorem test_meets_ClockSources : let r := run.clkRange 0; let f := run.setSrcState 0 2;
    r.1 ≤ r.2 ∧ ¬ (r.1 ≤ r.1 - 1 ∧ r.1 - 1 ≤ r.2) ∧ r.2 < r.2 + 1 ∧ 0 < r.1 ∧ run.srcState 0 = 1 ∧ f.srcState 0 ≠ 1 ∧
    (let d := { f with clk := { f.clk with good := [(0, f.stableN - 1)] } }; d.stableN ≤ min d.stableN (Tab.get 0 d.clk.good 0 + 1)) ∧ min f.stableN (Tab.get 0 f.clk.good 0 + 1) < f.stableN ∧
    run.trl.send = [] ∧ run.boot.running = false ∧ Tab.get none run.clk.bad 4 ≠ some run.clock ∧ (run.setFld Reg.CKP_CTRL F.CKP_CTRL_AUTO_RETURN 1).fld Reg.CKP_CTRL F.CKP_CTRL_AUTO_RETURN = 1 ∧
    (run.setFld Reg.CKP_CTRL F.CKP_CTRL_AUTO_RETURN 0).fld Reg.CKP_CTRL F.CKP_CTRL_AUTO_RETURN = 0 ∧
    (let d := run.setReg Reg.CKP_GATE 0; (d.reg Reg.CKP_GATE).toNat.testBit 17 = false ∧ d.isGated 17 = false ∧ (d.port 17).queue = [] ∧ (d.port 17).tail = [] ∧ (d.port 17).replay = [] ∧ (d.can 1).onBus = none ∧ d.org.run = none) ∧
    ((run.setPort 17 (portIn .active 15 15)).port 17).replay ≠ [] ∧ ({ run with clk := { run.clk with pend := some 5 } } : Dev).clk.pend = some 5 ∧ (f.setSrcState 4 2).srcState 4 = 2 ∧
    (let d := { run.setReg Reg.CKP_GATE 0xFFFFF with clk := { run.clk with gated := [3, 19] } }; (d.reg Reg.CKP_GATE).toNat.testBit 19 = true ∧ d.isGated 19 = true) := by decide +kernel
/-- ClockSources: a source lost while a domain uses it, the pin held low and driven, the oscillator stable for the first time and again, stalled Cisterns, a lost source's ports. -/
theorem test_meets_ClockLosses : (run.onFallback 0 = false ∧ domSrc 0 = 0 ∧ (run.judgeFailed 0 7).clk.dead.contains 4 = false) ∧
    (let d : Dev := { run with clk := { run.clk with obs := 1 } }; F.CKP_CLKOBS_EN.get d.clk.obs ≠ 0 ∨ d.clkobs = none) ∧ ({ run with clk := { run.clk with obs := 0 } } : Dev).clkobs = none ∧
    (run.setSrcState 4 0).srcState 4 = 0 ∧ (run.setSrcState 4 2).srcState 4 ≠ 0 ∧ ({ run with clk := { run.clk with relock := [1] } } : Dev).stalled = true ∧ run.stalled = false ∧ run.mem.waiting = [] ∧
    ((run.setPort 17 (portIn .fecLock 15 15)).port 17).st = .fecLock := by decide +kernel
/-- SupplyHoldup, StartPhases: VIN unmeasured, above the start threshold and at it, and a start that a hold-up ended. -/
theorem test_meets_SupplyStart : run.vinGood = true ∧ (run.setFld Reg.CKP_VIN F.CKP_VIN_VIN (run.vinReset + 201)).vinGood = true ∧ (run.setFld Reg.CKP_VIN F.CKP_VIN_VIN (run.vinReset + 200)).vinGood = false ∧
    run.starting = false ∧ (starting 1 none).starting = true ∧ ({ starting 1 none with sup := { run.sup with holdup := some 3 } } : Dev).starting = false := by decide +kernel
/-- SupplyHoldup: VIN at the thresholds, each phase of a hold-up. -/
theorem test_meets_SupplyHoldup : run.vinWarn ≤ 65434 ∧ 0 < run.vinReset ∧ run.vinReset < run.vinWarn ∧ run.sup.holdup = none ∧ (BitVec.ofNat 16 (run.vinWarn - 1)).toNat < run.vinWarn ∧
    run.vinWarn + 100 < (BitVec.ofNat 16 (run.vinWarn + 101)).toNat ∧ (BitVec.ofNat 16 (run.vinWarn + 100)).toNat ≤ run.vinWarn + 100 ∧ (BitVec.ofNat 16 (run.vinReset - 1)).toNat < run.vinReset ∧
    (∀ n ∈ [1, 2, 3, 4, 5], ({ run with sup := { run.sup with holdup := some n } } : Dev).sup.holdup = some n) ∧ run.boot.running = false ∧ (starting 1 none).boot.running = true ∧ run.sup.holdup ≠ some 3 ∧
    (let d := run.setFld Reg.CKP_VIN F.CKP_VIN_SAG 1; d.fld Reg.CKP_VIN F.CKP_VIN_SAG = 1 ∧ run.fld Reg.CKP_VIN F.CKP_VIN_SAG ≠ 1) ∧ run.reg Reg.GLB_INCARNATION + 1 ≠ 0 ∧ (run.setReg Reg.GLB_INCARNATION 0xFFFFFFFF).reg Reg.GLB_INCARNATION + 1 = 0 ∧ (run.queue 5).st ≠ .clearing ∧
    (gated (fun g => { g with signing := true })).gate.signing = true ∧
    (let d : Dev := { run with mem := run.mem.setPkg 3 { Pkg.reset with st := .retired, recorded := true } }; (d.mem.pkg 3).st = .retired ∧ (d.mem.pkg 3).recorded = true) := by decide +kernel
/-- A start that has reached some of its phases, at an attempt. -/
def booting (attempts : Nat) (b : Start → Start) : Dev := let d := run.setAttempts attempts; { d with boot := b { d.boot with running := true, kind := 0, qualified := true, alwaysOn := false, selfTest := false, released := false, trained := false, keys := false, compute := false, recorded := false } }
/-- StartPhases: resets at the second and the third attempt, and each phase with its tests passed and failed. -/
theorem test_meets_StartPhases : (booting 2 id).attempts < 3 ∧ (booting 3 id).attempts = 3 ∧ (booting 2 id).sup.holdup = none ∧ (booting 3 id).gate.wait = [] ∧ (booting 2 id).attempts < 255 ∧
    (let h : Dev := { booting 2 id with sup := { run.sup with holdup := some 2 } }; h.sup.holdup ≠ none) ∧ (booting 2 (fun b => { b with qualified := false, recorded := false })).boot.recorded = false ∧
    (let d := (booting 2 id).setSrcState 3 2; d.srcState 3 ≠ 1 ∧ d.boot.alwaysOn = false) ∧
    (∀ k ∈ [1, 3], let d : Dev := { booting 2 (fun b => { b with kind := k, alwaysOn := true, selfTest := true, keys := true }) with gate := { run.gate with phase := 5 } }; d.gateAt 5 = true ∧ d.boot.selfTest = true ∧ d.boot.kind = k ∧ d.boot.keys = true) ∧
    (run.setAttempts 3).gate.wait.all (· == .ghm) = true ∧
    (let b := (booting 2 (fun b => { b with qualified := false, recorded := true })).boot; b.qualified = false ∧ b.recorded = true) ∧
    (let d := booting 2 id; d.boot.running = true ∧ d.boot.qualified = true ∧ d.boot.alwaysOn = false ∧ d.srcState 3 = 1) ∧
    (let d := booting 2 (fun b => { b with alwaysOn := true }); d.boot.alwaysOn = true ∧ d.boot.selfTest = false) ∧
    (let d := { booting 2 (fun b => { b with alwaysOn := true, selfTest := true }) with gate := { run.gate with phase := 5 } }; d.gateAt 5 = true ∧ d.boot.selfTest = true ∧ d.boot.kind ≠ 1) ∧
    (let d := booting 2 (fun b => { b with alwaysOn := true, selfTest := true, released := true }); d.boot.released = true ∧ d.boot.trained = false ∧ d.boot.kind ≠ 1 ∧ d.boot.kind ≠ 3 ∧
      (∀ k, k < 20 → (d.mem.pkg k).st ≠ .retired) ∧ d.mem.nErased ≤ 2) ∧
    (let d := booting 2 (fun b => { b with released := true, trained := true }); d.boot.trained = true ∧ d.boot.compute = false ∧ d.boot.keys = false) ∧
    (let d := booting 2 (fun b => { b with keys := true, compute := true }); d.boot.running = true ∧ d.boot.keys = true ∧ d.boot.compute = true) := by decide +kernel

/-! ### The core pair, the Sundial, registers, debug and the journal (chapters 13, 15, 16) -/

/-- The module with core A active and core B in a state. -/
def paired (b : Nat) (f : Pair → Pair) : Dev := { run.setCoreSt 1 b with pair := f run.pair }
/-- CorePair: heartbeats missed once less than HB_MISS and as often, records that agree and differ to the last before MISMATCH_N, a core that syncs to its last match, a take-over, both results of the tests. -/
theorem test_meets_CorePair : let d := paired 1 id;
    d.gate.up = true ∧ d.activeIx = some 0 ∧ ((paired 3 id).setCoreSt 0 4).activeIx = none ∧ (d.coreRec 0).halt = false ∧ (d.coreRec 1).halt = false ∧ d.coreSt (otherCore 0) = 1 ∧ (d.coreRec 0).miss + 1 < d.hbMiss ∧
    (let e := paired 1 (fun p => { p with a := { p.a with miss := d.hbMiss - 1 } }); e.hbMiss ≤ (e.coreRec 0).miss + 1) ∧ d.pair.mism + 1 < d.mismatchN ∧
    (let e := paired 1 (fun p => { p with mism := d.mismatchN - 1 }); e.mismatchN ≤ e.pair.mism + 1) ∧
    (let e := paired 2 (fun p => { p with copied := true, matches_ := 999 }); e.coreSt 1 = 2 ∧ e.pair.copied = true ∧ 1000 ≤ e.pair.matches_ + 1 ∧ e.pair.restarts < 2) ∧
    (paired 2 (fun p => { p with copied := true, matches_ := 998 })).pair.matches_ + 1 < 1000 ∧ (paired 1 (fun p => { p with testDue := true })).pair.testDue = true ∧ d.pair.takeOver = none ∧
    (paired 1 (fun p => { p with takeOver := some 1 })).pair.takeOver = some 1 ∧ d.standbyOk = true ∧ (paired 2 id).standbyOk = false ∧ (paired 4 id).coreSt 1 = 4 ∧ (paired 3 id).coreSt 1 = 3 ∧
    (gated (fun g => { g with up := false })).gate.up = false ∧ run.loopsHeld = false ∧ d.coreSt 0 ≤ 2 ∧ (paired 2 (fun p => { p with copied := true, restarts := 2 })).pair.restarts = 2 ∧ (paired 2 (fun p => { p with copied := false })).pair.copied = false ∧
    ((paired 3 id).setCoreSt 0 4).pair.takeOver = none ∧ 2 < (paired 3 id).coreSt 1 ∧ (sensorKind 3).isSome = true ∧ sensorKind 3000 = none := by decide +kernel
/-- The Sundial with a state of its own and every trigger on, or none. -/
def sundial (on : Word32) (f : Sun → Sun) : Dev := let d := (run.setReg Reg.SUN_TRIG_EN_LO on).setReg Reg.SUN_TRIG_EN_HI on; { d with sun := f d.sun }
/-- Sundial: a trigger that is off and on, frozen, held off, with room for one record and for none, a list that changed, a lookup. -/
theorem test_meets_Sundial : let d := sundial 0xFFFFFFFF id;
    (sundial 0 id).trigOn 7 = false ∧ d.trigOn 7 = true ∧ d.trigOn 61 = true ∧ d.trigOn 21 = true ∧ d.sun.frozenAt = none ∧ d.heldOff 7 = false ∧ d.heldOff 61 = false ∧ d.sun.unflushed < 512 ∧
    (sundial 0xFFFFFFFF (fun x => { x with frozenAt := some 0 })).sun.frozenAt ≠ none ∧ ((sundial 0xFFFFFFFF (fun x => { x with last := [(7, some 0)] })).setReg (Reg.SUN_TRIG_CFG 7) 0xFFFF).heldOff 7 = true ∧
    512 ≤ (sundial 0xFFFFFFFF (fun x => { x with unflushed := 512 })).sun.unflushed ∧ (sundial 0xFFFFFFFF (fun x => { x with unflushed := 511 })).sun.unflushed < 512 ∧
    Tab.get none d.sun.changed 1 = none ∧ Tab.get none (sundial 0 (fun x => { x with changed := [(1, some 0)] })).sun.changed 1 ≠ none ∧ F.SUN_CTRL_FREEZE.get 0 = 0 ∧ F.SUN_CTRL_FREEZE.get 0x10000 = 1 ∧
    d.sun.busy = false ∧ (sundial 0 (fun x => { x with busy := true })).sun.busy = true ∧ d.fld (Reg.SUN_TRIG_CFG 7) F.SUN_TRIG_CFG_FLUSH = 0 ∧ d.sun.unflushed + 1 < 64 ∧ d.sun.perm.length ≤ 1024 := by decide +kernel
/-- RegisterAccess: the first and the last dword of BAR0, a register and a place with none, a gated block, Lodge. -/
theorem test_meets_RegisterAccess : let d := { run with hp := { run.hp with ready := true } }; let l := d.setFld Reg.KDV_STATE F.KDV_STATE_MODE 1; let g := { d with clk := { run.clk with gated := [19] } };
    l.noBar 0 = true ∧ run.noBar 0 = true ∧ d.hp.ready = true ∧ g.hp.ready = true ∧ d.noBar 0 = false ∧ d.noBar 0x3FFFFFC = false ∧ d.hidden Reg.VDR_RAIL_EVT = false ∧ Reg.VDR_RAIL_EVT % 4 = 0 ∧ mbDataAt Reg.VDR_RAIL_EVT = none ∧
    ((specials1 ++ specials2).find? (fun (m : Special) => decide (m.base ≤ Reg.VDR_RAIL_EVT) && dimsMatch m.dims (Reg.VDR_RAIL_EVT - m.base))).isNone = true ∧ (regRowAt Reg.VDR_RAIL_EVT).isSome = true ∧
    d.hidden 0x3FFFFFC = false ∧ mbDataAt 0x3FFFFFC = none ∧
    ((specials1 ++ specials2).find? (fun (m : Special) => decide (m.base ≤ 0x3FFFFFC) && dimsMatch m.dims (0x3FFFFFC - m.base))).isNone = true ∧ regRowAt 0x3FFFFFC = none ∧ d.hidden Reg.SUN_OPSEC_LO = false ∧ Reg.SUN_OPSEC_LO % 4 = 0 ∧ d.inLodge = false ∧ Reg.VDR_RAIL_EVT ≠ Reg.TBC_NT_LO ∧ Reg.VDR_RAIL_EVT ≠ Reg.SUN_OPSEC_LO ∧
    g.inLodge = false ∧ g.hidden Reg.ORG_PRED_STATUS = true ∧ Reg.ORG_PRED_STATUS % 4 = 0 ∧ Reg.ORG_PRED_STATUS < 0x4000000 ∧ ¬ (2 = 4 ∧ 0 % 4 = 0 ∨ 2 = 8 ∧ 0 % 8 = 0) := by decide +kernel
/-- OperatorDebug: places at the end of the bed and of memory, and one past each. -/
theorem test_meets_OperatorDebug : 2621432 + 8 ≤ 2621440 ∧ 2621440 < 2621433 + 8 ∧ run.maExists (run.nplots * 2 ^ 30 - 8) 8 = true ∧ run.maExists (run.nplots * 2 ^ 30 - 7) 8 = false ∧ run.mem.trained = true ∧
    Dev.reset.mem.trained = false ∧ (0x3FFFFFC % 4 = 0 ∧ 0x3FFFFFC < 0x4000000) ∧ 2 % 4 ≠ 0 := by decide +kernel
/-- JournalGrows, EveryStepGoesOn: a step that ends in a next state, with a command in front and with none. -/
theorem test_meets_JournalGrows : (∃ t, step State.reset = .next t) ∧ ∃ t, step ⟨[.perstNDeassert], Dev.reset⟩ = .next t :=
  ⟨⟨_, rfl⟩, ⟨_, rfl⟩⟩

end Sys2Proof.Tests
end

section
/-! SUPPORT and PROOF. The hazard path (O44): fields of registers, a force on the valve drive, messages put into mailboxes, the clamp and
the parts of a trip, the heartbeat watchdog and ISOLATE_N; then the statement from them. -/

namespace Sys2Proof.Machine

/-! ### Fields of a register word -/

theorem Fld.testBit_get (f : Fld) (w : Word32) (i : Nat) :
    (f.get w).testBit i = (decide (i < f.width) && w.getLsbD (f.lo + i)) := by
  simp [Fld.get, BitVec.getLsbD]

/-- A word holds the low bits of `v`, at a field and nowhere else. -/
theorem getLsbD_ofNat_shiftLeft (v lo i : Nat) (hi : i < 32) :
    (BitVec.ofNat 32 (v <<< lo)).getLsbD i = (decide (lo ≤ i) && v.testBit (i - lo)) := by
  rw [BitVec.getLsbD_ofNat, Nat.testBit_shiftLeft]
  simp [hi]

theorem Fld.getLsbD_put (f : Fld) (w : Word32) (v i : Nat) (hi : i < 32) :
    (f.put w v).getLsbD i = if f.lo ≤ i ∧ i < f.lo + f.width then v.testBit (i - f.lo) else w.getLsbD i := by
  simp only [Fld.put, BitVec.getLsbD_or, BitVec.getLsbD_and, BitVec.getLsbD_not, hi, getLsbD_ofNat_shiftLeft,
    Nat.testBit_two_pow_sub_one, Nat.testBit_mod_two_pow]
  by_cases hl : f.lo ≤ i
  · have hu : i < f.lo + f.width ↔ i - f.lo < f.width := by omega
    by_cases h : i - f.lo < f.width <;> simp [hl, hu, h]
  · simp [hl]

/-- A field reads as the low bits of what was put into it. -/
theorem Fld.get_put (f : Fld) (hf : f.lo + f.width ≤ 32) (w : Word32) (v : Nat) : f.get (f.put w v) = v % 2 ^ f.width := by
  apply Nat.eq_of_testBit_eq
  intro i
  rw [Fld.testBit_get, Nat.testBit_mod_two_pow]
  by_cases hi : i < f.width
  · simp [hi, Fld.getLsbD_put f w v (f.lo + i) (by omega)]
  · simp [hi]

/-- Putting a field leaves a field beside it as it was. -/
theorem Fld.get_put_of_disjoint (f g : Fld) (hfg : f.lo + f.width ≤ g.lo ∨ g.lo + g.width ≤ f.lo) (w : Word32) (v : Nat) :
    g.get (f.put w v) = g.get w := by
  apply Nat.eq_of_testBit_eq
  intro i
  rw [Fld.testBit_get, Fld.testBit_get]
  by_cases hi : i < g.width
  · by_cases h32 : g.lo + i < 32
    · have hout : ¬ (f.lo ≤ g.lo + i ∧ g.lo + i < f.lo + f.width) := by omega
      rw [Fld.getLsbD_put f w v _ h32, if_neg hout]
    · rw [BitVec.getLsbD_of_ge _ _ (by omega), BitVec.getLsbD_of_ge _ _ (by omega)]
  · simp [hi]

theorem Fld.get_lt (f : Fld) (w : Word32) : f.get w < 2 ^ f.width := Nat.mod_lt _ (Nat.two_pow_pos _)

/-! ### Fields of the block's registers -/

theorem Dev.fld_congr {d e : Dev} {off : Nat} (h : e.reg off = d.reg off) (f : Fld) : e.fld off f = d.fld off f :=
  congrArg f.get h

theorem Dev.fld_setFld_self (d : Dev) (off : Nat) (f : Fld) (hf : f.lo + f.width ≤ 32) (v : Nat) :
    (d.setFld off f v).fld off f = v % 2 ^ f.width := by
  rw [Dev.fld, Dev.setFld, Dev.reg_setReg_self, Fld.get_put f hf]

theorem Dev.fld_setFld_of_disjoint (d : Dev) (off : Nat) (f g : Fld) (hfg : f.lo + f.width ≤ g.lo ∨ g.lo + g.width ≤ f.lo) (v : Nat) :
    (d.setFld off f v).fld off g = d.fld off g := by
  rw [Dev.fld, Dev.setFld, Dev.reg_setReg_self, Fld.get_put_of_disjoint f g hfg, Dev.fld]

theorem Dev.reg_setFld_of_ne (d : Dev) {off o : Nat} (h : o ≠ off) (f : Fld) (v : Nat) : (d.setFld off f v).reg o = d.reg o :=
  Dev.reg_setReg_ne d _ h

theorem Dev.reg_raise_of_ne (d : Dev) {off o : Nat} (h : o ≠ off) : (d.raise off).reg o = d.reg o :=
  Dev.reg_setReg_ne d _ h

/-- An event that is raised has its flag set (R12). -/
theorem Dev.fld_raise_flag (d : Dev) (off : Nat) : (d.raise off).fld off ⟨0, 1⟩ = 1 := by
  simp only [Dev.fld, Dev.raise, Dev.reg_setReg_self, Fld.get, BitVec.toNat_ofNat, Nat.shiftRight_zero]
  omega

/-! ### The valve drive loses its power (R544, R545) -/

/-- Two blocks differ at most in their registers and in the valve drive. -/
def Dev.sameButValves (d e : Dev) : Prop := e = { d with regs := e.regs, vdr := e.vdr }

theorem Dev.sameButValves_trans {d e f : Dev} (h : d.sameButValves e) (g : e.sameButValves f) : d.sameButValves f := by
  unfold Dev.sameButValves at *
  rw [g, h]

theorem Dev.chan_updChan (d : Dev) (c k : Nat) (f : Chan → Chan) :
    (d.updChan c f).chan k = if k = c then f (d.chan c) else d.chan k := Dev.chan_setChan ..

theorem Dev.leaveDefer_same (d : Dev) (c : Nat) : d.sameButValves (d.leaveDefer c) := by
  unfold Dev.leaveDefer
  dsimp only
  split <;> rfl

theorem Dev.chan_leaveDefer_of_ne (d : Dev) {c k : Nat} (h : k ≠ c) : (d.leaveDefer c).chan k = d.chan k := by
  unfold Dev.leaveDefer
  dsimp only
  split
  · rw [Dev.setReg_chan_, Dev.chan_setChan, if_neg h]
  · rfl

theorem Dev.reg_leaveDefer_of_ne (d : Dev) {c o : Nat} (h : o ≠ Reg.VDR_CH_LAST_DEFER c) : (d.leaveDefer c).reg o = d.reg o := by
  unfold Dev.leaveDefer
  dsimp only
  split
  · rw [Dev.reg_setReg_ne _ _ h, Dev.setChan_reg_]
  · rfl

/-- A channel that a force keeps off: no target, no level, no command, and no program that runs or defers. -/
def Chan.isOff (x : Chan) : Prop := x.target = 0 ∧ x.level = 0 ∧ x.cmd = none ∧ x.st ≠ .run ∧ x.st ≠ .defer

/-- A channel as a force leaves it. -/
def Chan.forced (x : Chan) : Chan := { x.unpower x.st.off with level := 0, cmd := none, pc := 0 }

/-- One channel is forced off. -/
def Dev.forceChan (d : Dev) (c : Nat) : Dev := (d.leaveDefer c).updChan c Chan.forced

theorem Dev.forceOff_eq (d : Dev) : d.forceOff = (List.range 16).foldl Dev.forceChan d := rfl

theorem Chan.forced_isOff (x : Chan) : x.forced.isOff := by
  refine ⟨rfl, rfl, rfl, ?_⟩
  simp only [Chan.forced, Chan.unpower, ChSt.off]
  cases x.st <;> decide

theorem Dev.forceChan_same (d : Dev) (c : Nat) : d.sameButValves (d.forceChan c) :=
  Dev.sameButValves_trans (d.leaveDefer_same c) rfl

theorem Dev.reg_forceChan_of_ne (d : Dev) {c o : Nat} (h : o ≠ Reg.VDR_CH_LAST_DEFER c) : (d.forceChan c).reg o = d.reg o := by
  rw [Dev.forceChan, Dev.updChan_reg_, d.reg_leaveDefer_of_ne h]

theorem Dev.forceChan_isOff_self (d : Dev) (c : Nat) : ((d.forceChan c).chan c).isOff := by
  rw [Dev.forceChan, Dev.chan_updChan, if_pos rfl]
  exact Chan.forced_isOff _

theorem Dev.forceChan_keeps_isOff (d : Dev) {c k : Nat} (h : (d.chan k).isOff) : ((d.forceChan c).chan k).isOff := by
  by_cases hk : k = c
  · subst hk; exact d.forceChan_isOff_self k
  · rwa [Dev.forceChan, Dev.chan_updChan, if_neg hk, d.chan_leaveDefer_of_ne hk]

theorem Dev.foldl_forceChan_isOff (k : Nat) (l : List Nat) (d : Dev) (h : k ∈ l ∨ (d.chan k).isOff) :
    ((l.foldl Dev.forceChan d).chan k).isOff := by
  induction l generalizing d with
  | nil => simpa using h
  | cons c l ih =>
    apply ih
    rcases h with h | h
    · rcases List.mem_cons.1 h with rfl | h
      · exact .inr (d.forceChan_isOff_self k)
      · exact .inl h
    · exact .inr (d.forceChan_keeps_isOff h)

/-- After a force every channel is off. -/
theorem Dev.forceOff_isOff (d : Dev) {c : Nat} (hc : c < 16) : (d.forceOff.chan c).isOff :=
  Dev.foldl_forceChan_isOff c _ d (.inl (List.mem_range.2 hc))

/-- A force changes the valve drive and registers alone. -/
theorem Dev.forceOff_same (d : Dev) : d.sameButValves d.forceOff := by
  rw [Dev.forceOff_eq]
  exact List.foldlRecOn (motive := d.sameButValves) _ _ rfl fun e he c _ => Dev.sameButValves_trans he (e.forceChan_same c)

/-- Of the registers below those of the channels a force changes none. -/
theorem Dev.reg_forceOff (d : Dev) {o : Nat} (h : o < Reg.VDR_CH_LAST_DEFER 0) : d.forceOff.reg o = d.reg o := by
  rw [Dev.forceOff_eq]
  refine List.foldlRecOn (motive := fun (e : Dev) => e.reg o = d.reg o) _ _ rfl fun e he c _ => ?_
  have hne : o ≠ Reg.VDR_CH_LAST_DEFER c := by simp only [Reg.VDR_CH_LAST_DEFER] at *; omega
  rw [e.reg_forceChan_of_ne hne, he]

@[simp] theorem Dev.forceOff_pavs (d : Dev) : d.forceOff.pavs = d.pavs := by rw [d.forceOff_same]
@[simp] theorem Dev.forceOff_mem (d : Dev) : d.forceOff.mem = d.mem := by rw [d.forceOff_same]
@[simp] theorem Dev.forceOff_org (d : Dev) : d.forceOff.org = d.org := by rw [d.forceOff_same]
@[simp] theorem Dev.forceOff_clamp (d : Dev) : d.forceOff.clamp = d.clamp := by rw [d.forceOff_same]

/-! ### Messages put into the mailboxes of the thermal bus -/

/-- Two blocks differ at most in their registers and in the bus controllers. -/
def Dev.sameButBus (d e : Dev) : Prop := e = { d with regs := e.regs, cans := e.cans }

theorem Dev.sameButBus_trans {d e f : Dev} (h : d.sameButBus e) (g : e.sameButBus f) : d.sameButBus f := by
  unfold Dev.sameButBus at *
  rw [g, h]

theorem Dev.mbLoad_same (d : Dev) (t m id : Nat) (data : Bytes) : d.sameButBus (d.mbLoad t m id data) := by
  unfold Dev.mbLoad
  split
  · rfl
  · dsimp only
    split <;> rfl

theorem Dev.post_same (d : Dev) (m code : Nat) (data : Bytes) : d.sameButBus (d.post m code data) :=
  Dev.sameButBus_trans (d.mbLoad_same 0 m _ data) (Dev.mbLoad_same _ 1 m _ data)

/-- Loading a mailbox changes no register below those of the mailboxes. -/
theorem Dev.reg_mbLoad (d : Dev) (t m id : Nat) (data : Bytes) {o : Nat} (h : o < Reg.TBC_MB_CTRL 0 0) :
    (d.mbLoad t m id data).reg o = d.reg o := by
  simp only [Reg.TBC_MB_CTRL] at h
  have hctrl : o ≠ Reg.TBC_MB_CTRL t m := by simp only [Reg.TBC_MB_CTRL]; omega
  have hid : o ≠ Reg.TBC_MB_ID t m := by simp only [Reg.TBC_MB_ID]; omega
  have hflags : o ≠ Reg.TBC_MB_FLAGS t m := by simp only [Reg.TBC_MB_FLAGS]; omega
  have hdata : ∀ k, o ≠ Reg.TBC_MB_DATA t m k := by intro k; simp only [Reg.TBC_MB_DATA]; omega
  have hload : ((((d.setReg (Reg.TBC_MB_ID t m) (BitVec.ofNat 32 id)).setReg (Reg.TBC_MB_FLAGS t m) 8).mbData t m data).reg o) = d.reg o := by
    simp only [Dev.mbData, Dev.reg_setReg_ne _ _ hid, Dev.reg_setReg_ne _ _ hflags, Dev.reg_setReg_ne _ _ (hdata _)]
  unfold Dev.mbLoad
  split
  · rfl
  · dsimp only
    split
    · rw [Dev.updCan_reg_, hload]
    · rw [Dev.setMbSt, Dev.reg_setFld_of_ne _ hctrl, hload]

theorem Dev.reg_post (d : Dev) (m code : Nat) (data : Bytes) {o : Nat} (h : o < Reg.TBC_MB_CTRL 0 0) :
    (d.post m code data).reg o = d.reg o := by
  simp only [Dev.post, Dev.reg_mbLoad _ _ _ _ _ h]

/-! ### The parts of a trip (R512) -/

/-- The event of a hazard is raised, and its bits are set. -/
def Dev.latchBits (d : Dev) (h : Nat) : Dev :=
  let d := d.raise (Reg.ORG_HAZ_EVT h)
  let d := d.setFld Reg.ORG_HAZ_STATUS F.ORG_HAZ_STATUS_LATCHED (d.latched ||| 2 ^ h)
  d.setFld Reg.ORG_HAZ_STATUS F.ORG_HAZ_STATUS_ACTIVE (d.hazActive ||| 2 ^ h)

/-- A leak counts as wet now and as not acknowledged. -/
def Dev.startLeak (d : Dev) (h : Nat) : Dev :=
  if h = 1 then { d with org := { d.org with leakAck := false, lastWet := some d.clock } } else d

/-- The block of a trip before its alarm: latched, clamped, the valves without power, full flow requested. -/
def Dev.tripped (d : Dev) (h : Nat) : Dev := ((d.latchBits h).startLeak h).clampOn.forceOff.askFullFlow

/-- The alarm message of a hazard. -/
def Dev.tripAlarm (d : Dev) (h : Nat) : Dev := if h = 0 then d.flowStopAlarm else if h = 1 then d.leakAlarm else d.hazardAlarm

theorem Dev.trip_eq (d : Dev) (h : Nat) :
    d.trip h = ((d.tripped h).tripAlarm h).fire h ((d.tripped h).tripAlarm h).latched := rfl

/-- What a trip does not touch of the block: its memory, queues, ledger blocks and allotments. -/
def Dev.keepsStores (d r : Dev) : Prop := r.mem = d.mem ∧ r.qs = d.qs ∧ r.blks = d.blks ∧ r.allots = d.allots

theorem Dev.keepsStores_trans {d e f : Dev} (h : d.keepsStores e) (g : e.keepsStores f) : d.keepsStores f := by
  obtain ⟨hmem, hqs, hblks, hallots⟩ := h
  obtain ⟨gmem, gqs, gblks, gallots⟩ := g
  exact ⟨gmem.trans hmem, gqs.trans hqs, gblks.trans hblks, gallots.trans hallots⟩

theorem Dev.setReg_keepsStores (d : Dev) (off : Nat) (v : Word32) : d.keepsStores (d.setReg off v) := ⟨rfl, rfl, rfl, rfl⟩

theorem Dev.setFld_keepsStores (d : Dev) (off : Nat) (f : Fld) (v : Nat) : d.keepsStores (d.setFld off f v) := Dev.setReg_keepsStores ..

theorem Dev.raise_keepsStores (d : Dev) (off : Nat) : d.keepsStores (d.raise off) := Dev.setReg_keepsStores ..

theorem Dev.fire_keepsStores (d : Dev) (t ctx : Nat) : d.keepsStores (d.fire t ctx) := ⟨rfl, rfl, rfl, rfl⟩

theorem Dev.keepsStores_of_sameButBus {d e : Dev} (h : d.sameButBus e) : d.keepsStores e := by
  rw [h]; exact ⟨rfl, rfl, rfl, rfl⟩

theorem Dev.keepsStores_of_sameButValves {d e : Dev} (h : d.sameButValves e) : d.keepsStores e := by
  rw [h]; exact ⟨rfl, rfl, rfl, rfl⟩

theorem Dev.tripAlarm_same (d : Dev) (h : Nat) : d.sameButBus (d.tripAlarm h) := by
  unfold Dev.tripAlarm
  split
  · exact d.post_same _ _ _
  · split <;> exact d.post_same _ _ _

@[simp] theorem Dev.tripAlarm_pavs (d : Dev) (h : Nat) : (d.tripAlarm h).pavs = d.pavs := by rw [d.tripAlarm_same h]
@[simp] theorem Dev.tripAlarm_org (d : Dev) (h : Nat) : (d.tripAlarm h).org = d.org := by rw [d.tripAlarm_same h]
@[simp] theorem Dev.tripAlarm_vdr (d : Dev) (h : Nat) : (d.tripAlarm h).vdr = d.vdr := by rw [d.tripAlarm_same h]
@[simp] theorem Dev.tripAlarm_clamp (d : Dev) (h : Nat) : (d.tripAlarm h).clamp = d.clamp := by rw [d.tripAlarm_same h]

theorem Dev.reg_tripAlarm (d : Dev) (h : Nat) {o : Nat} (ho : o < Reg.TBC_MB_CTRL 0 0) : (d.tripAlarm h).reg o = d.reg o := by
  unfold Dev.tripAlarm
  split
  · exact d.reg_post _ _ _ ho
  · split <;> exact d.reg_post _ _ _ ho

/-! ### The clamp (R49, R50) -/

/-- A governor at the clamp's frequency; issue waits for the rail when the clamp is new (R49, R50). -/
def Pav.clamped (again : Bool) (x : Pav) : Pav := { x with freq := 400, settling := x.settling || !again }

/-- The clamp at the governors of some Pavilions. -/
def Dev.clampPavs (again : Bool) (d : Dev) (l : List Nat) : Dev := l.foldl (fun d p => d.updPav p (Pav.clamped again)) d

theorem Dev.clampOn_eq (d : Dev) :
    d.clampOn = { d.clampPavs d.clamp (List.range 160) with
      clamp := true, org := { (d.clampPavs d.clamp (List.range 160)).org with higher := [] } } := rfl

theorem Dev.pav_updPav (d : Dev) (p q : Nat) (f : Pav → Pav) : (d.updPav p f).pav q = if q = p then f (d.pav p) else d.pav q :=
  Dev.pav_setPav ..

theorem Dev.clampPavs_same (again : Bool) (l : List Nat) (d : Dev) :
    d.clampPavs again l = { d with pavs := (d.clampPavs again l).pavs } := by
  induction l generalizing d with
  | nil => rfl
  | cons p l ih => exact ih (d.updPav p _)

theorem Dev.pav_clampPavs (again : Bool) (q : Nat) (l : List Nat) (hl : l.Nodup) (d : Dev) :
    (d.clampPavs again l).pav q = if q ∈ l then (d.pav q).clamped again else d.pav q := by
  induction l generalizing d with
  | nil => simp [Dev.clampPavs]
  | cons p l ih =>
    obtain ⟨hp, hl⟩ := List.nodup_cons.1 hl
    have hstep : d.clampPavs again (p :: l) = (d.updPav p (Pav.clamped again)).clampPavs again l := rfl
    rw [hstep, ih hl, Dev.pav_updPav]
    by_cases hq : q = p
    · subst hq; simp [hp]
    · simp [hq]

/-- The clamp reaches each of the 160 governors. -/
theorem Dev.pav_clampOn (d : Dev) {p : Nat} (hp : p < 160) : d.clampOn.pav p = (d.pav p).clamped d.clamp := by
  have hpavs : d.clampOn.pavs = (d.clampPavs d.clamp (List.range 160)).pavs := by rw [Dev.clampOn_eq]
  rw [Dev.pav, hpavs, ← Dev.pav, Dev.pav_clampPavs _ _ _ List.nodup_range, if_pos (List.mem_range.2 hp)]

theorem Dev.reg_clampOn (d : Dev) (o : Nat) : d.clampOn.reg o = d.reg o := by
  have hregs : d.clampOn.regs = d.regs := by rw [Dev.clampOn_eq, Dev.clampPavs_same]
  rw [Dev.reg, hregs, Dev.reg]

theorem Dev.clampOn_keepsStores (d : Dev) : d.keepsStores d.clampOn := by
  rw [Dev.clampOn_eq, Dev.clampPavs_same]
  exact ⟨rfl, rfl, rfl, rfl⟩

theorem Dev.clampOn_clamp (d : Dev) : d.clampOn.clamp = true := rfl
theorem Dev.clampOn_higher (d : Dev) : d.clampOn.org.higher = [] := rfl

/-! ### Full flow (R493) -/

theorem Dev.fld_askFullFlow (d : Dev) :
    d.askFullFlow.fld Reg.ORG_FLOW_REQ F.ORG_FLOW_REQ_REQ = d.fld Reg.ORG_FLOW_REQ F.ORG_FLOW_REQ_QMAX * 32 % 2 ^ 16 :=
  Dev.fld_setFld_self _ _ F.ORG_FLOW_REQ_REQ (by decide) _

theorem Dev.reg_askFullFlow_of_ne (d : Dev) {o : Nat} (h : o ≠ Reg.ORG_FLOW_REQ) : d.askFullFlow.reg o = d.reg o :=
  Dev.reg_setFld_of_ne d h _ _

theorem Dev.askFullFlow_keepsStores (d : Dev) : d.keepsStores d.askFullFlow := Dev.setFld_keepsStores ..

/-! ### What a trip does (R512) -/

theorem hazIx_lt (h : Hazard) : hazIx h < 6 := by cases h <;> decide

theorem Dev.startLeak_pavs (d : Dev) (h : Nat) : (d.startLeak h).pavs = d.pavs := by
  unfold Dev.startLeak; split <;> rfl

theorem Dev.startLeak_clamp (d : Dev) (h : Nat) : (d.startLeak h).clamp = d.clamp := by
  unfold Dev.startLeak; split <;> rfl

theorem Dev.reg_startLeak (d : Dev) (h o : Nat) : (d.startLeak h).reg o = d.reg o := by
  unfold Dev.startLeak; split <;> rfl

theorem Dev.startLeak_keepsStores (d : Dev) (h : Nat) : d.keepsStores (d.startLeak h) := by
  unfold Dev.startLeak; split <;> exact ⟨rfl, rfl, rfl, rfl⟩

theorem Dev.latchBits_pavs (d : Dev) (h : Nat) : (d.latchBits h).pavs = d.pavs := by
  rw [Dev.latchBits, Dev.setFld_pavs, Dev.setFld_pavs, Dev.raise_pavs]

theorem Dev.latchBits_clamp (d : Dev) (h : Nat) : (d.latchBits h).clamp = d.clamp := by
  rw [Dev.latchBits, Dev.setFld_clamp, Dev.setFld_clamp, Dev.raise_clamp]

theorem Dev.latchBits_keepsStores (d : Dev) (h : Nat) : d.keepsStores (d.latchBits h) :=
  have hevt := d.raise_keepsStores (Reg.ORG_HAZ_EVT h)
  have hlatched := Dev.setFld_keepsStores (d.raise (Reg.ORG_HAZ_EVT h)) Reg.ORG_HAZ_STATUS F.ORG_HAZ_STATUS_LATCHED _
  Dev.keepsStores_trans (Dev.keepsStores_trans hevt hlatched) (Dev.setFld_keepsStores ..)

theorem Dev.reg_latchBits_of_ne (d : Dev) (h : Nat) {o : Nat} (hevt : o ≠ Reg.ORG_HAZ_EVT h) (hst : o ≠ Reg.ORG_HAZ_STATUS) :
    (d.latchBits h).reg o = d.reg o := by
  rw [Dev.latchBits, Dev.reg_setFld_of_ne _ hst, Dev.reg_setFld_of_ne _ hst, Dev.reg_raise_of_ne _ hevt]

theorem Dev.latchBits_evt (d : Dev) (h : Nat) : (d.latchBits h).fld (Reg.ORG_HAZ_EVT h) ⟨0, 1⟩ = 1 := by
  have hne : Reg.ORG_HAZ_EVT h ≠ Reg.ORG_HAZ_STATUS := by simp only [Reg.ORG_HAZ_EVT, Reg.ORG_HAZ_STATUS]; omega
  have hreg : (d.latchBits h).reg (Reg.ORG_HAZ_EVT h) = (d.raise (Reg.ORG_HAZ_EVT h)).reg (Reg.ORG_HAZ_EVT h) := by
    rw [Dev.latchBits, Dev.reg_setFld_of_ne _ hne, Dev.reg_setFld_of_ne _ hne]
  rw [Dev.fld_congr hreg, Dev.fld_raise_flag]

theorem Dev.latchBits_latched (d : Dev) {h : Nat} (hh : h < 6) : (d.latchBits h).latched = d.latched ||| 2 ^ h := by
  have hne : Reg.ORG_HAZ_STATUS ≠ Reg.ORG_HAZ_EVT h := by simp only [Reg.ORG_HAZ_EVT, Reg.ORG_HAZ_STATUS]; omega
  have hraise : (d.raise (Reg.ORG_HAZ_EVT h)).latched = d.latched := Dev.fld_congr (d.reg_raise_of_ne hne) _
  have hlt : d.latched ||| 2 ^ h < 2 ^ 6 :=
    Nat.or_lt_two_pow (Fld.get_lt F.ORG_HAZ_STATUS_LATCHED _) (Nat.pow_lt_pow_right (by decide) hh)
  rw [Dev.latched, Dev.latchBits, Dev.fld_setFld_of_disjoint _ _ _ _ (by decide), Dev.fld_setFld_self _ _ _ (by decide), hraise]
  exact Nat.mod_eq_of_lt hlt

theorem Dev.reg_forceOff_clampOn_startLeak (d : Dev) (h : Nat) {o : Nat} (hvdr : o < Reg.VDR_CH_LAST_DEFER 0) :
    (d.startLeak h).clampOn.forceOff.reg o = d.reg o := by
  rw [Dev.reg_forceOff _ hvdr, Dev.reg_clampOn, Dev.reg_startLeak]

theorem Dev.reg_trip_tripped (d : Dev) (h : Nat) {o : Nat} (hvdr : o < Reg.VDR_CH_LAST_DEFER 0) :
    (d.trip h).reg o = (d.tripped h).reg o := by
  rw [Dev.trip_eq, Dev.fire_reg_, Dev.reg_tripAlarm _ _ (hvdr.trans (by decide))]

/-- Of the registers below those of the channels, a trip changes those of the latched hazard and the flow request. -/
theorem Dev.reg_trip (d : Dev) (h : Nat) {o : Nat} (hvdr : o < Reg.VDR_CH_LAST_DEFER 0) (hflow : o ≠ Reg.ORG_FLOW_REQ) :
    (d.trip h).reg o = (d.latchBits h).reg o := by
  rw [Dev.reg_trip_tripped _ _ hvdr, Dev.tripped, Dev.reg_askFullFlow_of_ne _ hflow, Dev.reg_forceOff_clampOn_startLeak _ _ hvdr]

theorem Dev.trip_latched (d : Dev) {h : Nat} (hh : h < 6) : (d.trip h).latched = d.latched ||| 2 ^ h :=
  (Dev.fld_congr (d.reg_trip h (by decide) (by decide)) _).trans (d.latchBits_latched hh)

theorem Dev.trip_evt (d : Dev) {h : Nat} (hh : h < 6) : (d.trip h).fld (Reg.ORG_HAZ_EVT h) ⟨0, 1⟩ = 1 := by
  have hvdr : Reg.ORG_HAZ_EVT h < Reg.VDR_CH_LAST_DEFER 0 := by simp only [Reg.ORG_HAZ_EVT, Reg.VDR_CH_LAST_DEFER]; omega
  have hflow : Reg.ORG_HAZ_EVT h ≠ Reg.ORG_FLOW_REQ := by simp only [Reg.ORG_HAZ_EVT, Reg.ORG_FLOW_REQ]; omega
  rw [Dev.fld_congr (d.reg_trip h hvdr hflow), d.latchBits_evt]

theorem Dev.trip_flowReq (d : Dev) (h : Nat) :
    (d.trip h).fld Reg.ORG_FLOW_REQ F.ORG_FLOW_REQ_REQ = d.fld Reg.ORG_FLOW_REQ F.ORG_FLOW_REQ_QMAX * 32 % 2 ^ 16 := by
  have hevt : Reg.ORG_FLOW_REQ ≠ Reg.ORG_HAZ_EVT h := by simp only [Reg.ORG_HAZ_EVT, Reg.ORG_FLOW_REQ]; omega
  have hpre : ((d.latchBits h).startLeak h).clampOn.forceOff.reg Reg.ORG_FLOW_REQ = d.reg Reg.ORG_FLOW_REQ := by
    rw [Dev.reg_forceOff_clampOn_startLeak _ _ (by decide), Dev.reg_latchBits_of_ne _ _ hevt (by decide)]
  rw [Dev.fld_congr (d.reg_trip_tripped h (by decide)), Dev.tripped, Dev.fld_askFullFlow, Dev.fld_congr hpre]

theorem Dev.trip_clamp (d : Dev) (h : Nat) : (d.trip h).clamp = true := by
  simp [Dev.trip_eq, Dev.tripped, Dev.askFullFlow, Dev.clampOn_clamp]

theorem Dev.trip_higher (d : Dev) (h : Nat) : (d.trip h).org.higher = [] := by
  simp [Dev.trip_eq, Dev.tripped, Dev.askFullFlow, Dev.clampOn_higher]

theorem Dev.trip_isOff (d : Dev) (h : Nat) {c : Nat} (hc : c < 16) : ((d.trip h).chan c).isOff := by
  have hvdr : (d.trip h).vdr = ((d.latchBits h).startLeak h).clampOn.forceOff.vdr := by
    simp [Dev.trip_eq, Dev.tripped, Dev.askFullFlow]
  rw [Dev.chan, hvdr]
  exact Dev.forceOff_isOff _ hc

/-- A trip changes of a Pavilion its frequency and whether its rail settles, and nothing else (R51). -/
theorem Dev.trip_pav (d : Dev) (h : Nat) {p : Nat} (hp : p < 160) : (d.trip h).pav p = (d.pav p).clamped d.clamp := by
  have hpavs : (d.trip h).pavs = ((d.latchBits h).startLeak h).clampOn.pavs := by
    simp [Dev.trip_eq, Dev.tripped, Dev.askFullFlow]
  rw [Dev.pav, hpavs, ← Dev.pav, Dev.pav_clampOn _ hp, Dev.pav, Dev.startLeak_pavs, Dev.latchBits_pavs, ← Dev.pav,
    Dev.startLeak_clamp, Dev.latchBits_clamp]

theorem Dev.tripped_keepsStores (d : Dev) (h : Nat) : d.keepsStores (d.tripped h) := by
  have hleak := Dev.keepsStores_trans (d.latchBits_keepsStores h) (Dev.startLeak_keepsStores _ h)
  have hclamp := Dev.keepsStores_trans hleak (Dev.clampOn_keepsStores _)
  have hforce := Dev.keepsStores_trans hclamp (Dev.keepsStores_of_sameButValves (Dev.forceOff_same _))
  exact Dev.keepsStores_trans hforce (Dev.askFullFlow_keepsStores _)

theorem Dev.trip_keepsStores (d : Dev) (h : Nat) : d.keepsStores (d.trip h) := by
  have halarm := Dev.keepsStores_trans (d.tripped_keepsStores h) (Dev.keepsStores_of_sameButBus (Dev.tripAlarm_same _ h))
  rw [Dev.trip_eq]
  exact Dev.keepsStores_trans halarm (Dev.fire_keepsStores _ h _)

/-! ### The commands of the hazard path and of the pins -/

theorem exec_hazardTrip (h : Hazard) (s : State) : exec (.hazardTrip h) s = execHazardTrip h s := rfl
theorem exec_hazardQuiesce (s : State) : exec .hazardQuiesce s = execHazardQuiesce s := rfl
theorem exec_leakAck (s : State) : exec .leakAck s = execLeakAck s := rfl
theorem exec_hbLost (s : State) : exec .hbLost s = execHbLost s := rfl
theorem exec_hbInEdge (s : State) : exec .hbInEdge s = execHbInEdge s := rfl
theorem exec_isolateNAssert (s : State) : exec .isolateNAssert s = execIsolateNAssert s := rfl
theorem exec_isolateNRelease (s : State) : exec .isolateNRelease s = execIsolateNRelease s := rfl

theorem hazardTrip_ends (h : Hazard) (s : State) : Ends (.hazardTrip h) s (s.dev.trip (hazIx h)) := by
  rw [Ends, exec_hazardTrip]; rfl

theorem hazardQuiesce_latched {s : State} (h : s.dev.latched ≠ 0) :
    Ends .hazardQuiesce s { s.dev with org := { s.dev.org with hazQuiesce := true } } := by
  rw [Ends, exec_hazardQuiesce, execHazardQuiesce, onDev, if_pos h]

theorem hazardQuiesce_unlatched {s : State} (h : s.dev.latched = 0) : Ends .hazardQuiesce s s.dev := by
  rw [Ends, exec_hazardQuiesce, execHazardQuiesce, onDev, if_neg (not_not.2 h)]

theorem leakAck_dry {s : State} (h : s.dev.dryFor = true) :
    Ends .leakAck s { s.dev with org := { s.dev.org with leakAck := true } } := by
  rw [Ends, exec_leakAck, execLeakAck, onDev, if_pos h]

theorem leakAck_wet {s : State} (h : s.dev.dryFor = false) : Ends .leakAck s s.dev := by
  rw [Ends, exec_leakAck, execLeakAck, onDev, if_neg (by simp [h])]

/-! ### The heartbeat watchdog (R661, R662) -/

/-- The run of edges ends. -/
def Dev.endEdgeRun (d : Dev) : Dev := { d with hb := { d.hb with run := 0 } }

theorem Dev.reg_endEdgeRun (d : Dev) (o : Nat) : d.endEdgeRun.reg o = d.reg o := rfl

/-- A lost heartbeat is marked, and the run of edges ends. -/
def Dev.markHbLost (d : Dev) : Dev :=
  ((d.setFld Reg.SUN_HB_STATUS F.SUN_HB_STATUS_HB_LOST 1).raise (Reg.SUN_HB_EVT 0)).endEdgeRun

/-- What a lost heartbeat does while its watchdog is on. -/
def Dev.loseHeartbeat (d : Dev) : Dev := d.markHbLost.forceOff.askFullFlow.fire 32 0

theorem hbLost_ends {s : State} (hen : s.dev.fld Reg.SUN_HB_CFG F.SUN_HB_CFG_EN = 1) (hhb : s.dev.hbLost = false) :
    Ends .hbLost s s.dev.loseHeartbeat := by
  rw [Ends, exec_hbLost, execHbLost, onDev, if_pos ⟨hen, by simp [hhb]⟩]
  rfl

theorem hbLost_without_effect {s : State} (h : s.dev.fld Reg.SUN_HB_CFG F.SUN_HB_CFG_EN = 0 ∨ s.dev.hbLost = true) :
    Ends .hbLost s s.dev := by
  have hno : ¬ (s.dev.fld Reg.SUN_HB_CFG F.SUN_HB_CFG_EN = 1 ∧ (!s.dev.hbLost) = true) := by
    rcases h with h | h <;> simp [h]
  rw [Ends, exec_hbLost, execHbLost, onDev, if_neg hno]

theorem Dev.reg_markHbLost_of_ne (d : Dev) {o : Nat} (hst : o ≠ Reg.SUN_HB_STATUS) (hevt : o ≠ Reg.SUN_HB_EVT 0) :
    d.markHbLost.reg o = d.reg o := by
  rw [Dev.markHbLost, Dev.reg_endEdgeRun, Dev.reg_raise_of_ne _ hevt, Dev.reg_setFld_of_ne _ hst]

theorem Dev.markHbLost_hbLost (d : Dev) : d.markHbLost.hbLost = true := by
  rw [Dev.hbLost, Dev.markHbLost, Dev.fld_congr (Dev.reg_endEdgeRun _ _), Dev.fld_congr (Dev.reg_raise_of_ne _ (by decide)),
    Dev.fld_setFld_self _ _ _ (by decide)]
  rfl

theorem Dev.markHbLost_evt (d : Dev) : d.markHbLost.fld (Reg.SUN_HB_EVT 0) ⟨0, 1⟩ = 1 := by
  rw [Dev.markHbLost, Dev.fld_congr (Dev.reg_endEdgeRun _ _), Dev.fld_raise_flag]

/-- Of the registers below those of the channels, a lost heartbeat changes its status, its event and the flow request. -/
theorem Dev.reg_loseHeartbeat (d : Dev) {o : Nat} (hvdr : o < Reg.VDR_CH_LAST_DEFER 0) (hflow : o ≠ Reg.ORG_FLOW_REQ) :
    d.loseHeartbeat.reg o = d.markHbLost.reg o := by
  rw [Dev.loseHeartbeat, Dev.fire_reg_, Dev.reg_askFullFlow_of_ne _ hflow, Dev.reg_forceOff _ hvdr]

theorem Dev.loseHeartbeat_hbLost (d : Dev) : d.loseHeartbeat.hbLost = true := by
  rw [Dev.hbLost, Dev.fld_congr (d.reg_loseHeartbeat (by decide) (by decide)), ← Dev.hbLost, d.markHbLost_hbLost]

theorem Dev.loseHeartbeat_evt (d : Dev) : d.loseHeartbeat.fld (Reg.SUN_HB_EVT 0) ⟨0, 1⟩ = 1 := by
  rw [Dev.fld_congr (d.reg_loseHeartbeat (by decide) (by decide)), d.markHbLost_evt]

theorem Dev.loseHeartbeat_flowReq (d : Dev) : d.loseHeartbeat.fld Reg.ORG_FLOW_REQ F.ORG_FLOW_REQ_REQ =
    d.fld Reg.ORG_FLOW_REQ F.ORG_FLOW_REQ_QMAX * 32 % 2 ^ 16 := by
  have hpre : d.markHbLost.forceOff.reg Reg.ORG_FLOW_REQ = d.reg Reg.ORG_FLOW_REQ := by
    rw [Dev.reg_forceOff _ (by decide), Dev.reg_markHbLost_of_ne _ (by decide) (by decide)]
  rw [Dev.loseHeartbeat, Dev.fld_congr (Dev.fire_reg_ _ _ _ _), Dev.fld_askFullFlow, Dev.fld_congr hpre]

theorem Dev.loseHeartbeat_isOff (d : Dev) {c : Nat} (hc : c < 16) : (d.loseHeartbeat.chan c).isOff := by
  rw [Dev.loseHeartbeat, Dev.fire_chan_, Dev.askFullFlow, Dev.setFld_chan_]
  exact Dev.forceOff_isOff _ hc

theorem Dev.loseHeartbeat_pavs (d : Dev) : d.loseHeartbeat.pavs = d.pavs := by
  simp [Dev.loseHeartbeat, Dev.askFullFlow, Dev.markHbLost, Dev.endEdgeRun]

theorem Dev.loseHeartbeat_mem (d : Dev) : d.loseHeartbeat.mem = d.mem := by
  simp [Dev.loseHeartbeat, Dev.askFullFlow, Dev.markHbLost, Dev.endEdgeRun]

/-- Does an edge now follow the one before within the timeout? -/
def Dev.edgeInTime (d : Dev) : Prop := ∃ t, d.hb.last = some t ∧ d.clock ≤ t + d.hbTimeout

/-- The edges of the present run once an edge has come. -/
def Dev.edgeRun (d : Dev) : Nat :=
  if (match d.hb.last with | some t => decide (d.clock ≤ t + d.hbTimeout) | none => false) then min 3 (d.hb.run + 1) else 1

/-- Does an edge end the loss of the heartbeat: is it the third of its run, with the watchdog on? -/
def Dev.edgeClears (d : Dev) : Prop :=
  d.hbLost = true ∧ d.edgeInTime ∧ 2 ≤ d.hb.run ∧ d.fld Reg.SUN_HB_CFG F.SUN_HB_CFG_EN = 1

/-- The block with an edge counted. -/
def Dev.countEdge (d : Dev) (run : Nat) : Dev := { d with hb := ⟨some d.clock, run⟩ }

theorem hbInEdge_eq (s : State) : exec .hbInEdge s = onDev s fun d =>
    if d.hbLost && decide (3 ≤ d.edgeRun) && d.fld Reg.SUN_HB_CFG F.SUN_HB_CFG_EN == 1 then
      ((d.countEdge d.edgeRun).setFld Reg.SUN_HB_STATUS F.SUN_HB_STATUS_HB_LOST 0).fire 33 0
    else d.countEdge d.edgeRun := rfl

theorem Dev.edgeRun_in_time {d : Dev} (h : d.edgeInTime) : d.edgeRun = min 3 (d.hb.run + 1) := by
  obtain ⟨t, hlast, hle⟩ := h
  simp [Dev.edgeRun, hlast, hle]

theorem Dev.edgeRun_late {d : Dev} (h : ¬ d.edgeInTime) : d.edgeRun = 1 := by
  unfold Dev.edgeRun
  cases hlast : d.hb.last with
  | none => rfl
  | some t =>
    have hlt : ¬ d.clock ≤ t + d.hbTimeout := fun hle => h ⟨t, hlast, hle⟩
    simp [hlt]

theorem Dev.edgeClears_iff (d : Dev) :
    (d.hbLost && decide (3 ≤ d.edgeRun) && d.fld Reg.SUN_HB_CFG F.SUN_HB_CFG_EN == 1) = true ↔ d.edgeClears := by
  simp only [Dev.edgeClears, Bool.and_eq_true, decide_eq_true_eq, beq_iff_eq]
  by_cases h : d.edgeInTime
  · have hrun : 3 ≤ d.edgeRun ↔ 2 ≤ d.hb.run := by rw [Dev.edgeRun_in_time h]; omega
    simp only [hrun, h, true_and, and_assoc]
  · simp [Dev.edgeRun_late h, h]

theorem hbInEdge_clears {s : State} (h : s.dev.edgeClears) :
    Ends .hbInEdge s (((s.dev.countEdge s.dev.edgeRun).setFld Reg.SUN_HB_STATUS F.SUN_HB_STATUS_HB_LOST 0).fire 33 0) := by
  rw [Ends, hbInEdge_eq, onDev, if_pos ((Dev.edgeClears_iff _).2 h)]

theorem hbInEdge_counts {s : State} (h : ¬ s.dev.edgeClears) : Ends .hbInEdge s (s.dev.countEdge s.dev.edgeRun) := by
  rw [Ends, hbInEdge_eq, onDev, if_neg (fun hc => h ((Dev.edgeClears_iff _).1 hc))]

/-! ### ISOLATE_N (R663, R664) -/

theorem isolateNAssert_again {s : State} (h : s.dev.isolateN = true) : Ends .isolateNAssert s s.dev := by
  rw [Ends, exec_isolateNAssert, execIsolateNAssert, onDev, if_pos h]

theorem isolateNRelease_again {s : State} (h : s.dev.isolateN = false) : Ends .isolateNRelease s s.dev := by
  rw [Ends, exec_isolateNRelease, execIsolateNRelease, onDev, if_neg (by simp [h])]

theorem isolateNAssert_ends {s : State} (h : s.dev.isolateN = false) : Ends .isolateNAssert s
    (((s.dev.setFld Reg.SUN_HB_STATUS F.SUN_HB_STATUS_ISOLATE 1).raise (Reg.SUN_HB_EVT 1)).fire 34 0) := by
  rw [Ends, exec_isolateNAssert, execIsolateNAssert, onDev, if_neg (by simp [h])]

theorem isolateNRelease_ends {s : State} (h : s.dev.isolateN = true) : Ends .isolateNRelease s
    ((s.dev.setFld Reg.SUN_HB_STATUS F.SUN_HB_STATUS_ISOLATE 0).fire 35 0) := by
  rw [Ends, exec_isolateNRelease, execIsolateNRelease, onDev, if_pos h]

theorem Dev.isolateN_setFld (d : Dev) (v : Nat) :
    (d.setFld Reg.SUN_HB_STATUS F.SUN_HB_STATUS_ISOLATE v).isolateN = (v % 2 == 1) := by
  rw [Dev.isolateN, Dev.fld_setFld_self _ _ _ (by decide)]
  rfl

theorem Dev.isolateN_congr {d e : Dev} (h : e.reg Reg.SUN_HB_STATUS = d.reg Reg.SUN_HB_STATUS) : e.isolateN = d.isolateN := by
  rw [Dev.isolateN, Dev.fld_congr h, ← Dev.isolateN]

theorem Dev.quiesced_of_isolateN {d : Dev} (h : d.isolateN = true) : d.quiesced = true := by simp [Dev.quiesced, h]

/-! ### What the commands end in -/

section
variable (s : State)

theorem hazardTrip_endsIn (h : Hazard) :
    EndsIn (.hazardTrip h) s (fun r => r.latched = s.dev.latched ||| 2 ^ hazIx h ∧ r.clamp = true ∧
      (∀ c, c < 16 → (r.chan c).isOff) ∧ r.org.higher = [] ∧ r.fld (Reg.ORG_HAZ_EVT (hazIx h)) ⟨0, 1⟩ = 1 ∧
      r.fld Reg.ORG_FLOW_REQ F.ORG_FLOW_REQ_REQ = s.dev.fld Reg.ORG_FLOW_REQ F.ORG_FLOW_REQ_QMAX * 32 % 2 ^ 16 ∧
      (∀ p, p < 160 → r.pav p = (s.dev.pav p).clamped s.dev.clamp) ∧ s.dev.keepsStores r) :=
  ⟨_, hazardTrip_ends h s, Dev.trip_latched _ (hazIx_lt h), Dev.trip_clamp _ _, fun _ => Dev.trip_isOff _ _,
    Dev.trip_higher _ _, Dev.trip_evt _ (hazIx_lt h), Dev.trip_flowReq _ _, fun _ => Dev.trip_pav _ _, Dev.trip_keepsStores _ _⟩

theorem hbLost_endsIn (hen : s.dev.fld Reg.SUN_HB_CFG F.SUN_HB_CFG_EN = 1) (hhb : s.dev.hbLost = false) :
    EndsIn .hbLost s (fun r => r.hbLost = true ∧ (∀ c, c < 16 → (r.chan c).isOff) ∧
      r.fld Reg.ORG_FLOW_REQ F.ORG_FLOW_REQ_REQ = s.dev.fld Reg.ORG_FLOW_REQ F.ORG_FLOW_REQ_QMAX * 32 % 2 ^ 16 ∧
      r.fld (Reg.SUN_HB_EVT 0) ⟨0, 1⟩ = 1 ∧ r.pavs = s.dev.pavs ∧ r.mem = s.dev.mem) :=
  ⟨_, hbLost_ends hen hhb, Dev.loseHeartbeat_hbLost _, fun _ => Dev.loseHeartbeat_isOff _, Dev.loseHeartbeat_flowReq _,
    Dev.loseHeartbeat_evt _, Dev.loseHeartbeat_pavs _, Dev.loseHeartbeat_mem _⟩

theorem hbInEdge_endsIn (h : s.dev.edgeClears) :
    EndsIn .hbInEdge s (fun r => r.hbLost = false ∧ r.hb.last = some s.dev.clock ∧ r.pavs = s.dev.pavs) := by
  refine ⟨_, hbInEdge_clears h, ?_, rfl, rfl⟩
  rw [Dev.hbLost, Dev.fld_congr (Dev.fire_reg_ _ _ _ _), Dev.fld_setFld_self _ _ _ (by decide)]
  rfl

theorem isolateNAssert_endsIn (h : s.dev.isolateN = false) :
    EndsIn .isolateNAssert s (fun r => r.isolateN = true ∧ r.quiesced = true ∧ r.fld (Reg.SUN_HB_EVT 1) ⟨0, 1⟩ = 1 ∧
      r.pavs = s.dev.pavs ∧ r.vdr = s.dev.vdr) := by
  have hiso : (((s.dev.setFld Reg.SUN_HB_STATUS F.SUN_HB_STATUS_ISOLATE 1).raise (Reg.SUN_HB_EVT 1)).fire 34 0).isolateN = true := by
    rw [Dev.isolateN_congr (Dev.fire_reg_ _ _ _ _), Dev.isolateN_congr (Dev.reg_raise_of_ne _ (by decide)), Dev.isolateN_setFld]
    rfl
  refine ⟨_, isolateNAssert_ends h, hiso, Dev.quiesced_of_isolateN hiso, ?_, ?_, ?_⟩
  · rw [Dev.fld_congr (Dev.fire_reg_ _ _ _ _), Dev.fld_raise_flag]
  · rw [Dev.fire_pavs, Dev.raise_pavs, Dev.setFld_pavs]
  · rw [Dev.fire_vdr, Dev.raise_vdr, Dev.setFld_vdr]

theorem isolateNRelease_endsIn (h : s.dev.isolateN = true) :
    EndsIn .isolateNRelease s (fun r => r.isolateN = false ∧ r.pavs = s.dev.pavs ∧ r.vdr = s.dev.vdr ∧
      r.quiesced = (s.dev.org.hazQuiesce || s.dev.energised 12 || s.dev.energised 13)) := by
  have hiso : ((s.dev.setFld Reg.SUN_HB_STATUS F.SUN_HB_STATUS_ISOLATE 0).fire 35 0).isolateN = false := by
    rw [Dev.isolateN_congr (Dev.fire_reg_ _ _ _ _), Dev.isolateN_setFld]
    rfl
  refine ⟨_, isolateNRelease_ends h, hiso, by simp, by simp, ?_⟩
  rw [Dev.quiesced, hiso, Bool.or_false]
  rfl

end

/-- Settles O44: each clause is the command's end with what its parts do, a trip being the latched bits, the clamp, the
force on the valve drive, the flow request and an alarm message. How a run of edges is counted is log 39. -/
theorem hazardPath : Obligations.HazardPath := by
  intro s h
  refine ⟨hazardTrip_endsIn s h, fun hl => ⟨hazardQuiesce_latched hl, rfl⟩, hazardQuiesce_unlatched, leakAck_dry, leakAck_wet,
    hbLost_endsIn s, hbLost_without_effect, ⟨hbInEdge_endsIn s, ?_, ?_⟩, isolateNAssert_again, isolateNRelease_again,
    isolateNAssert_endsIn s, isolateNRelease_endsIn s⟩
  · intro hclears hnear
    have hends := hbInEdge_counts (s := s) hclears
    rwa [Dev.edgeRun_in_time hnear] at hends
  · intro hlate
    have hends := hbInEdge_counts (s := s) fun ⟨_, hnear, _⟩ => hlate hnear
    rwa [Dev.edgeRun_late hlate] at hends

end Sys2Proof.Machine
end

section
/-! SUPPORT and PROOF. The kernel instructions of the Pavilions (O5, O6, O8, O10): how a command that issues one ends, with its effect or
with a stop of the share; registers, bed words and special registers; the cells of TMUL. Then the statements from them. -/

namespace Sys2Proof.Machine

/-! ### The record of a fault (R187) -/

theorem faultNum_lt (c : FaultCode) : faultNum c < 2 ^ 8 := by cases c <;> decide

/-- The fields of PAV_FAULT after a record are those of its two writes: the word and the event stand in registers beside it. -/
theorem Dev.recordFault_fld (d : Dev) (p : Nat) (c : FaultCode) (pc : BitVec 22) (w : Word64) (g : Fld) :
    (d.recordFault p c pc w).fld (Reg.PAV_FAULT p) g =
      ((d.setFld (Reg.PAV_FAULT p) F.PAV_FAULT_PC pc.toNat).setFld (Reg.PAV_FAULT p) F.PAV_FAULT_CODE (faultNum c)).fld (Reg.PAV_FAULT p) g := by
  have hlo : Reg.PAV_FAULT p ≠ Reg.PAV_FAULT_INSN_LO p := by simp [Reg.PAV_FAULT, Reg.PAV_FAULT_INSN_LO]
  have hhi : Reg.PAV_FAULT p ≠ Reg.PAV_FAULT_INSN_HI p := by simp [Reg.PAV_FAULT, Reg.PAV_FAULT_INSN_HI]
  have hevt : Reg.PAV_FAULT p ≠ Reg.PAV_FAULT_EVT p := by simp [Reg.PAV_FAULT, Reg.PAV_FAULT_EVT]
  simp only [Dev.recordFault]
  rw [Dev.fld_congr (Dev.reg_raise_of_ne _ hevt), Dev.fld_congr (Dev.reg_setReg_ne _ _ hhi), Dev.fld_congr (Dev.reg_setReg_ne _ _ hlo)]

theorem Dev.recordFault_code (d : Dev) (p : Nat) (c : FaultCode) (pc : BitVec 22) (w : Word64) :
    (d.recordFault p c pc w).fld (Reg.PAV_FAULT p) F.PAV_FAULT_CODE = faultNum c := by
  rw [Dev.recordFault_fld, Dev.fld_setFld_self _ _ _ (by decide)]
  exact Nat.mod_eq_of_lt (faultNum_lt c)

theorem Dev.recordFault_pc (d : Dev) (p : Nat) (c : FaultCode) (pc : BitVec 22) (w : Word64) :
    (d.recordFault p c pc w).fld (Reg.PAV_FAULT p) F.PAV_FAULT_PC = pc.toNat := by
  rw [Dev.recordFault_fld, Dev.fld_setFld_of_disjoint _ _ _ _ (by decide), Dev.fld_setFld_self _ _ _ (by decide)]
  exact Nat.mod_eq_of_lt pc.isLt

theorem Dev.recordFault_insnLo (d : Dev) (p : Nat) (c : FaultCode) (pc : BitVec 22) (w : Word64) :
    (d.recordFault p c pc w).reg (Reg.PAV_FAULT_INSN_LO p) = BitVec.ofNat 32 (w.toNat % 2 ^ 32) := by
  have hhi : Reg.PAV_FAULT_INSN_LO p ≠ Reg.PAV_FAULT_INSN_HI p := by simp [Reg.PAV_FAULT_INSN_LO, Reg.PAV_FAULT_INSN_HI]
  have hevt : Reg.PAV_FAULT_INSN_LO p ≠ Reg.PAV_FAULT_EVT p := by simp [Reg.PAV_FAULT_INSN_LO, Reg.PAV_FAULT_EVT]
  simp only [Dev.recordFault]
  rw [Dev.reg_raise_of_ne _ hevt, Dev.reg_setReg_ne _ _ hhi, Dev.reg_setReg_self]

theorem Dev.recordFault_insnHi (d : Dev) (p : Nat) (c : FaultCode) (pc : BitVec 22) (w : Word64) :
    (d.recordFault p c pc w).reg (Reg.PAV_FAULT_INSN_HI p) = BitVec.ofNat 32 (w.toNat / 2 ^ 32) := by
  have hevt : Reg.PAV_FAULT_INSN_HI p ≠ Reg.PAV_FAULT_EVT p := by simp [Reg.PAV_FAULT_INSN_HI, Reg.PAV_FAULT_EVT]
  simp only [Dev.recordFault]
  rw [Dev.reg_raise_of_ne _ hevt, Dev.reg_setReg_self]

theorem Dev.recordFault_evt (d : Dev) (p : Nat) (c : FaultCode) (pc : BitVec 22) (w : Word64) :
    (d.recordFault p c pc w).fld (Reg.PAV_FAULT_EVT p) ⟨0, 1⟩ = 1 := Dev.fld_raise_flag _ _

/-- The report to the queue engine changes no register, so the registers after a fault are those of its record. -/
theorem Dev.takeFault_reg (d : Dev) (p : Nat) (c : FaultCode) (pc : BitVec 22) (w : Word64) (off : Nat) :
    (d.takeFault p c pc w).reg off = (d.recordFault p c pc w).reg off := by
  unfold Dev.takeFault
  dsimp only
  split <;> simp [Dev.reportFault, Dev.updExec]

theorem Dev.takeFault_pav_self (d : Dev) (p : Nat) (c : FaultCode) (pc : BitVec 22) (w : Word64) :
    (d.takeFault p c pc w).pav p = { d.pav p with faulted := true, block := none, deferred := none } := by
  rw [Dev.pav, Dev.takeFault_pavs, ← Dev.pav, Dev.pav_setPav_self]

/-- A fault taken at the program counter, after the corrections of the fetch, stops the share with its code and word. -/
theorem Dev.takeFault_stopped (d : Dev) (p n : Nat) (c : FaultCode) (w : Word64) :
    d.stopped ((d.bedCorrected p n).takeFault p c (d.pav p).pc22 w) p (faultNum c) w := by
  have hreg := (d.bedCorrected p n).takeFault_reg p c (d.pav p).pc22 w
  have hpav := (d.bedCorrected p n).takeFault_pav_self p c (d.pav p).pc22 w
  rw [Dev.bedCorrected_pav] at hpav
  refine ⟨?_, ?_, ?_, ?_, ?_, ?_⟩
  · rw [Dev.fld_congr (hreg _), Dev.recordFault_code]
  · rw [Dev.fld_congr (hreg _), Dev.recordFault_pc, Pav.pc22, BitVec.toNat_setWidth]
  · rw [hreg, Dev.recordFault_insnLo]
  · rw [hreg, Dev.recordFault_insnHi]
  · rw [Dev.fld_congr (hreg _), Dev.recordFault_evt]
  · simp [hpav]

/-! ### How a command that issues a kernel instruction ends -/

/-- Command `i` has the steward of `p` issue the kernel instruction `k`, with `n` corrected bed errors counted on the way. -/
def Issues (i : Instr) (p : Sw) (k : KInsn) (n : Nat) : Prop :=
  ∀ s : State, exec i s = onDev s fun d => d.issueK p.val k n

/-- The command that `kernelCmd` names for an instruction issues that instruction. -/
theorem issues_of_kernelCmd {p : Sw} {ce : Nat} {k : KInsn} {i : Instr} (h : kernelCmd p ce k = some i) : ∃ n, Issues i p k n := by
  have hop (op : BitVec 8) {m : Nat} (hm : op.toNat = m) : op = BitVec.ofNat 8 m := by rw [← hm, BitVec.ofNat_toNat, BitVec.setWidth_eq]
  cases k with
  | scalar op f | desc op f | vec op f | move op f =>
    simp only [kernelCmd] at h
    split at h
    all_goals cases h
    all_goals
      rename_i hm
      rw [hop op hm]
      exact ⟨_, fun _ => rfl⟩
  | tmul f | tclr f | tread f | tsave f | tload f | esig f | ewait f | mfence f | hint f =>
    cases h
    exact ⟨_, fun _ => rfl⟩

section
variable {d : Dev} {q : Nat} {s : State} {p : Sw} {i : Instr} {k : KInsn} {n : Nat}

theorem issueK_of_rsvBad (hr : Ready d q) (hk : k.rsvBad = true) :
    d.issueK q k n = (d.bedCorrected q n).takeFault q .reservedField (d.pav q).pc22 k.encode := by
  unfold Dev.issueK
  rw [if_pos hk, issue_bad hr]

theorem issueK_of_ok (hr : Ready d q) (hk : k.rsvBad = false) {e : Dev} (he : effK k q k.encode (d.bedCorrected q n) = .ok e) :
    d.issueK q k n = e := by
  unfold Dev.issueK
  rw [if_neg (Bool.eq_false_iff.1 hk), issue_ok hr he]

theorem issueK_of_error (hr : Ready d q) (hk : k.rsvBad = false) {c : FaultCode}
    (hc : effK k q k.encode (d.bedCorrected q n) = .error c) :
    d.issueK q k n = (d.bedCorrected q n).takeFault q c (d.pav q).pc22 k.encode := by
  unfold Dev.issueK
  rw [if_neg (Bool.eq_false_iff.1 hk), issue_err hr hc]

/-- An instruction with a nonzero reserved field stops the share (R124). -/
theorem Issues.stops_of_rsvBad (hi : Issues i p k n) (hr : Ready s.dev p.val) (hk : k.rsvBad = true) :
    EndsIn i s fun d => s.dev.stopped d p.val 0x02 k.encode := by
  refine ⟨_, hi s, ?_⟩
  simp only [issueK_of_rsvBad hr hk]
  exact s.dev.takeFault_stopped p.val n .reservedField k.encode

variable {eff : Pav → Eff Pav}

/-- An instruction whose effect on its Pavilion succeeds leaves that Pavilion and the count of corrections. -/
theorem Issues.ends (hi : Issues i p k n) (hr : Ready s.dev p.val) (hk : k.rsvBad = false)
    (heff : ∀ d, effK k p.val k.encode d = d.onPav p.val eff) {y : Pav} (hy : eff (s.dev.pav p.val) = .ok y) :
    Ends i s ((s.dev.bedCorrected p.val n).setPav p.val y) := by
  have hon : effK k p.val k.encode (s.dev.bedCorrected p.val n) = .ok ((s.dev.bedCorrected p.val n).setPav p.val y) := by
    rw [heff]
    exact onPav_ok (by rw [Dev.bedCorrected_pav, hy])
  rw [Ends, hi s, onDev_eq, issueK_of_ok hr hk hon]

/-- An instruction whose effect on its Pavilion is refused stops the share before any effect (R118, R186). -/
theorem Issues.stops (hi : Issues i p k n) (hr : Ready s.dev p.val) (hk : k.rsvBad = false)
    (heff : ∀ d, effK k p.val k.encode d = d.onPav p.val eff) {c : FaultCode} (hc : eff (s.dev.pav p.val) = .error c) :
    EndsIn i s fun d => s.dev.stopped d p.val (faultNum c) k.encode := by
  have hon : effK k p.val k.encode (s.dev.bedCorrected p.val n) = .error c := by
    rw [heff, Dev.onPav, Dev.bedCorrected_pav, hc]
  refine ⟨_, hi s, ?_⟩
  simp only [issueK_of_error hr hk hon]
  exact s.dev.takeFault_stopped p.val n c k.encode

/-! ### Scalar instructions -/

variable {op : BitVec 8} {f : ScalarF}

theorem rsvBad_scalar (hf : f.rsv = 0) : (KInsn.scalar op f).rsvBad = false := by simp [KInsn.rsvBad, hf]

theorem Issues.scalar_ends (hi : Issues i p (.scalar op f) n) (hr : Ready s.dev p.val) (hf : f.rsv = 0) {y : Pav}
    (hy : scalarEff op f (s.dev.pav p.val) = .ok y) : Ends i s ((s.dev.bedCorrected p.val n).setPav p.val y) :=
  hi.ends hr (rsvBad_scalar hf) (fun _ => rfl) hy

theorem Issues.scalar_stops (hi : Issues i p (.scalar op f) n) (hr : Ready s.dev p.val) (hf : f.rsv = 0) {c : FaultCode}
    (hc : scalarEff op f (s.dev.pav p.val) = .error c) :
    EndsIn i s fun d => s.dev.stopped d p.val (faultNum c) (KInsn.scalar op f).encode :=
  hi.stops hr (rsvBad_scalar hf) (fun _ => rfl) hc

end

theorem Pav.sreg_zero (x : Pav) : x.sreg 0 = 0 := if_pos rfl

theorem Pav.setS_zero (x : Pav) (v : Word64) : x.setS 0 v = x := if_pos rfl

/-- What every register reads as after a write to one (R127). -/
theorem Pav.sreg_setS (x : Pav) (i j : BitVec 5) (v : Word64) :
    (x.setS i v).sreg j = if j = 0 then 0 else if j = i then v else x.sreg j := by
  by_cases hj : j = 0
  · rw [if_pos hj, hj, Pav.sreg_zero]
  by_cases hi : i = 0
  · rw [hi, Pav.setS_zero, if_neg hj, if_neg hj]
  · rw [Pav.sreg, Pav.setS, Pav.sreg, if_neg hj, if_neg hj, if_neg hj, if_neg hi, Tab.get_set]
    simp only [BitVec.toNat_inj]

/-- LUI puts its immediate above a low half of zeros. -/
theorem append_zero_word (i : Word32) : i ++ (0 : Word32) = i.setWidth 64 <<< 32 := by
  apply BitVec.eq_of_getLsbD_eq
  intro k hk
  rw [BitVec.getLsbD_append, BitVec.getLsbD_shiftLeft, BitVec.getLsbD_setWidth]
  by_cases h : k < 32
  · simp [h]
  · have : k - 32 < 64 := by omega
    simp [h, hk, this]

/-- RDSR of a selector of Table 3-6 puts the value it names into SD. -/
theorem Pav.rdsr_of_special {x : Pav} {f : ScalarF} {sh : Share} {v : Word64} (hsh : x.share = some sh)
    (hv : sh.special f.imm.toNat = some v) : x.rdsr f = .ok (x.setS f.sd v).next := by
  simp [Pav.rdsr, Pav.put, hsh, hv]

/-- Table 3-6 ends at selector 8. -/
theorem Share.special_of_le (sh : Share) {n : Nat} (hn : 9 ≤ n) : sh.special n = none := by
  obtain ⟨m, rfl⟩ := Nat.exists_eq_add_of_le' hn
  rfl

theorem Pav.rdsr_of_le (x : Pav) {f : ScalarF} (hf : 9 ≤ f.imm.toNat) : x.rdsr f = .error .reservedField := by
  cases hsh : x.share <;> simp [Pav.rdsr, hsh, Share.special_of_le _ hf]

/-! ### The word address of LDS and STS (R129, R135) -/

theorem Pav.wordAddr_misaligned {x : Pav} {f : ScalarF} (h : (x.sreg f.sa + sx32 f.imm).toNat % 8 ≠ 0) :
    x.wordAddr f = .error .alignment := if_pos h

theorem bedOut_word (a : Nat) : bedOut a (a + 8 : Nat) = decide (bedSize < a + 8) := by
  simp only [bedOut, Nat.cast_lt, Bool.or_eq_right_iff_imp, decide_eq_true_eq]
  omega

theorem Pav.wordAddr_out {x : Pav} {f : ScalarF} (h8 : (x.sreg f.sa + sx32 f.imm).toNat % 8 = 0)
    (hout : bedSize < (x.sreg f.sa + sx32 f.imm).toNat + 8) : x.wordAddr f = .error .bedRange := by
  simp only [Pav.wordAddr]
  rw [if_neg (not_not.2 h8), bedOut_word, if_pos (decide_eq_true hout)]

theorem Pav.wordAddr_ok {x : Pav} {f : ScalarF} (h8 : (x.sreg f.sa + sx32 f.imm).toNat % 8 = 0)
    (hin : (x.sreg f.sa + sx32 f.imm).toNat + 8 ≤ bedSize) :
    x.wordAddr f = .ok (x.sreg f.sa + sx32 f.imm).toNat := by
  simp only [Pav.wordAddr]
  rw [if_neg (not_not.2 h8), bedOut_word, if_neg (by simpa only [decide_eq_true_eq, not_lt] using hin)]

theorem Pav.lds_error {x : Pav} {f : ScalarF} {c : FaultCode} (h : x.wordAddr f = .error c) : x.lds f = .error c := by
  rw [Pav.lds, h]
  rfl

theorem Pav.sts_error {x : Pav} {f : ScalarF} {c : FaultCode} (h : x.wordAddr f = .error c) : x.sts f = .error c := by
  rw [Pav.sts, h]
  rfl

/-- A store into the code image is refused (R116). -/
theorem Pav.sts_hitsCode {x : Pav} {f : ScalarF} {a : Nat} (h : x.wordAddr f = .ok a) (hc : x.hitsCode a (a + 8 : Nat) = true) :
    x.sts f = .error .bedRange := by
  have hguard : guardNot (x.hitsCode a (a + 8 : Nat)) .bedRange = .error .bedRange := if_pos hc
  rw [Pav.sts, h]
  exact congrArg (· >>= fun _ => _) hguard

/-! ### Updating the cells of a slot in order -/

/-- Pass over the cells `l` of a slot: each takes the result of its own step, and the flags of all steps are gathered. -/
def Tab.passCells (step : Nat → Cell → Cell × Flags) (l : List Nat) (r : Tab Cell × Flags) : Tab Cell × Flags :=
  l.foldl (fun r c =>
    let (cell, fl) := step c (Tab.get Cell.zero r.1 c)
    (Tab.set Cell.zero r.1 c cell, r.2 ||| fl)) r

section
variable (step : Nat → Cell → Cell × Flags)

theorem Tab.passCells_cons (c : Nat) (l : List Nat) (r : Tab Cell × Flags) :
    Tab.passCells step (c :: l) r = Tab.passCells step l
      (Tab.set Cell.zero r.1 c (step c (Tab.get Cell.zero r.1 c)).1, r.2 ||| (step c (Tab.get Cell.zero r.1 c)).2) := rfl

/-- A cell of the pass holds its step's result on what it held before, every other cell what it held. -/
theorem Tab.get_passCells (l : List Nat) (hl : l.Nodup) (r : Tab Cell × Flags) (c : Nat) :
    Tab.get Cell.zero (Tab.passCells step l r).1 c =
      if c ∈ l then (step c (Tab.get Cell.zero r.1 c)).1 else Tab.get Cell.zero r.1 c := by
  induction l generalizing r with
  | nil => rfl
  | cons b l ih =>
    obtain ⟨hb, hl⟩ := List.nodup_cons.1 hl
    rw [Tab.passCells_cons, ih hl]
    by_cases hc : c = b
    · subst hc
      simp [hb]
    · simp [hc, Tab.get_set_ne]

/-- The flags of the pass are those of every cell's step on what the cell held before. -/
theorem Tab.flags_passCells (l : List Nat) (hl : l.Nodup) (r : Tab Cell × Flags) :
    (Tab.passCells step l r).2 = (l.map fun c => (step c (Tab.get Cell.zero r.1 c)).2).foldl (· ||| ·) r.2 := by
  induction l generalizing r with
  | nil => rfl
  | cons b l ih =>
    obtain ⟨hb, hl⟩ := List.nodup_cons.1 hl
    have hrest : ∀ c ∈ l, c ≠ b := fun c hc hcb => hb (hcb ▸ hc)
    rw [Tab.passCells_cons, ih hl, List.map_cons, List.foldl_cons]
    congr 1
    refine List.map_congr_left fun c hc => ?_
    rw [Tab.get_set_ne _ _ _ (hrest c hc)]

end

/-! ### TMUL (R139 to R147) -/

section
variable (x : Pav) (f : TmulF) (fa fb : Fmt) (kd : AccKind)

/-- The extents M, N and K that TA and TB name, K as the A descriptor gives it (R142). -/
def Pav.tmulM : Nat := if f.ta == 1 then (x.dreg f.da).e0 else (x.dreg f.da).e1
def Pav.tmulN : Nat := if f.tb == 1 then (x.dreg f.db).e0 else (x.dreg f.db).e1
def Pav.tmulK : Nat := if f.ta == 1 then (x.dreg f.da).e1 else (x.dreg f.da).e0

/-- The old slot, where ACC keeps it. -/
def Pav.tmulKept : Option Slot :=
  match x.slot f.slot with
  | some o => if f.acc = 1 then some o else none
  | none => none

/-- The slot that TMUL adds to: the one kept, or a cleared one of the operands' pair and shape (R146). -/
def Pav.tmulBase : Slot :=
  (x.tmulKept f).getD ⟨fa, (x.dreg f.da).scaled == 1, fb, (x.dreg f.db).scaled == 1, kd, x.tmulM f, x.tmulN f, []⟩

/-- What TMUL does to the cell at a linear index: its products in rising k on top of what it holds (R142, R147). -/
def Pav.tmulStep (c : Nat) (cell : Cell) : Cell × Flags :=
  Cell.mulAcc kd cell (x.cellProds (x.dreg f.da) (x.dreg f.db) fa fb (f.ta == 1) (f.tb == 1) (x.tmulK f) (c / x.tmulN f) (c % x.tmulN f))

/-- The cells and the flags after TMUL. -/
def Pav.tmulCells : Tab Cell × Flags :=
  Tab.passCells (x.tmulStep f fa fb kd) (List.range (x.tmulM f * x.tmulN f)) ((x.tmulBase f fa fb kd).cells, 0)

/-- The operands, their pair, shapes, placement and range are as TMUL asks (R139 to R146). -/
structure Pav.TmulFits : Prop where
  fmtA : Fmt.ofCode (x.dreg f.da).fmt.toNat = some fa
  fmtB : Fmt.ofCode (x.dreg f.db).fmt.toNat = some fb
  scaleA : fa.scaleOk ((x.dreg f.da).scaled == 1) = true
  scaleB : fb.scaleOk ((x.dreg f.db).scaled == 1) = true
  pair : pairKind fa ((x.dreg f.da).scaled == 1) fb ((x.dreg f.db).scaled == 1) = some kd
  scaledA : (x.dreg f.da).scaled = 1 → f.ta = 0 ∧ (x.dreg f.da).e0 % 32 = 0
  scaledB : (x.dreg f.db).scaled = 1 → f.tb = 0 ∧ (x.dreg f.db).e0 % 32 = 0
  sameK : x.tmulK f = if f.tb == 1 then (x.dreg f.db).e1 else (x.dreg f.db).e0
  maxK : x.tmulK f ≤ min fa.kt fb.kt
  maxM : x.tmulM f ≤ 128
  maxN : x.tmulN f ≤ 64
  flatA : (x.dreg f.da).e2 = 1 ∧ (x.dreg f.da).e3 = 1
  flatB : (x.dreg f.db).e2 = 1 ∧ (x.dreg f.db).e3 = 1
  placed : x.fillBad f.slot kd = false
  inBedA : (x.dreg f.da).out fa.bits ((x.dreg f.da).scaled == 1) = false
  inBedB : (x.dreg f.db).out fb.bits ((x.dreg f.db).scaled == 1) = false
  kept : ∀ o : Slot, x.slot f.slot = some o → f.acc = 1 →
    o.samePair fa ((x.dreg f.da).scaled == 1) fb ((x.dreg f.db).scaled == 1) = true ∧ o.kind = kd ∧ o.m = x.tmulM f ∧ o.n = x.tmulN f

end

section
variable {x : Pav} {f : TmulF} {fa fb : Fmt} {kd : AccKind}

theorem Pav.tmulKept_eq_some {o : Slot} : x.tmulKept f = some o ↔ x.slot f.slot = some o ∧ f.acc = 1 := by
  unfold Pav.tmulKept
  cases x.slot f.slot with
  | none => simp
  | some o' =>
    dsimp only
    split
    · next hacc => simp only [hacc, and_true]
    · next hacc => simp only [hacc, and_false, reduceCtorEq]

/-- The slot that TMUL adds to has the pair, the kind and the shape of the operands. -/
theorem Pav.TmulFits.base (h : x.TmulFits f fa fb kd) :
    (x.tmulBase f fa fb kd).samePair fa ((x.dreg f.da).scaled == 1) fb ((x.dreg f.db).scaled == 1) = true ∧
      (x.tmulBase f fa fb kd).kind = kd ∧ (x.tmulBase f fa fb kd).m = x.tmulM f ∧ (x.tmulBase f fa fb kd).n = x.tmulN f := by
  unfold Pav.tmulBase
  cases hkept : x.tmulKept f with
  | none => simp [Slot.samePair]
  | some o =>
    obtain ⟨hslot, hacc⟩ := Pav.tmulKept_eq_some.1 hkept
    exact h.kept o hslot hacc

/-- No check of TMUL refuses operands that fit, so it writes the pass over the cells. -/
theorem Pav.TmulFits.tmul_eq (h : x.TmulFits f fa fb kd) :
    x.tmul f = .ok (((x.setSlot f.slot (some { x.tmulBase f fa fb kd with cells := (x.tmulCells f fa fb kd).1 })).addFlags
      (x.tmulCells f fa fb kd).2).next) := by
  have hturnA : ((x.dreg f.da).scaled == 1 && f.ta == 1) = false :=
    Bool.and_eq_false_imp.2 fun hs => by rw [(h.scaledA (beq_iff_eq.1 hs)).1]; rfl
  have hturnB : ((x.dreg f.db).scaled == 1 && f.tb == 1) = false :=
    Bool.and_eq_false_imp.2 fun hs => by rw [(h.scaledB (beq_iff_eq.1 hs)).1]; rfl
  have hblockA : ((x.dreg f.da).scaled == 1 && (x.dreg f.da).e0 % 32 != 0) = false :=
    Bool.and_eq_false_imp.2 fun hs => by rw [(h.scaledA (beq_iff_eq.1 hs)).2]; rfl
  have hblockB : ((x.dreg f.db).scaled == 1 && (x.dreg f.db).e0 % 32 != 0) = false :=
    Bool.and_eq_false_imp.2 fun hs => by rw [(h.scaledB (beq_iff_eq.1 hs)).2]; rfl
  have hshape : ¬ (x.tmulK f ≠ (if f.tb == 1 then (x.dreg f.db).e1 else (x.dreg f.db).e0) ∨ min fa.kt fb.kt < x.tmulK f ∨
      128 < x.tmulM f ∨ 64 < x.tmulN f ∨ (x.dreg f.da).e2 ≠ 1 ∨ (x.dreg f.da).e3 ≠ 1 ∨ (x.dreg f.db).e2 ≠ 1 ∨ (x.dreg f.db).e3 ≠ 1) := by
    simp only [not_or, not_not, Nat.not_lt]
    exact ⟨h.sameK, h.maxK, h.maxM, h.maxN, h.flatA.1, h.flatA.2, h.flatB.1, h.flatB.2⟩
  unfold Pav.tmul
  simp only [h.fmtA, h.fmtB, h.pair, h.scaleA, h.scaleB, hturnA, hturnB, hblockA, hblockB, h.placed, h.inBedA, h.inBedB, Bool.not_true,
    Bool.or_false, Bool.false_eq_true, if_false]
  refine (if_neg hshape).trans ?_
  unfold Pav.tmulCells Pav.tmulBase Pav.tmulKept
  cases hslot : x.slot f.slot with
  | none => rfl
  | some o =>
    by_cases hacc : f.acc = 1
    · obtain ⟨hpair, -, hm, hn⟩ := h.kept o hslot hacc
      have hsize : (o.m != x.tmulM f || o.n != x.tmulN f) = false := by rw [hm, hn, bne_self_eq_false, bne_self_eq_false]; rfl
      simp only [if_pos hacc, hpair]
      exact if_neg (Bool.eq_false_iff.1 hsize)
    · simp only [if_neg hacc]
      rfl

end

end Sys2Proof.Machine

/-! The statements stand in a namespace of their own: the model has a table named `scalarOps`. -/

namespace Sys2Proof.Machine.Pavilions

/-- Settles O6: a read after a write, with S0 out of both. -/
theorem scalarZeroRegister : Obligations.ScalarZeroRegister :=
  fun x i j v => ⟨x.sreg_zero, x.sreg_setS i j v, x.setS_zero v⟩

/-- Settles O5: each command issues its word, and the word's effect on the Pavilion is the one the statement names. -/
theorem scalarOps : Obligations.ScalarOps := by
  constructor
  · intro s p f hr hf x a b n gives
    have ends {i : Instr} (op : BitVec 8) (hi : Issues i p (.scalar op f) p.ce) {v : Word64}
        (hv : scalarEff op f x = x.put f v) : gives i v := hi.scalar_ends hr hf hv
    refine ⟨ends 0x01 (fun _ => rfl) rfl, ends 0x02 (fun _ => rfl) rfl, ends 0x03 (fun _ => rfl) rfl, ends 0x04 (fun _ => rfl) rfl,
      ends 0x05 (fun _ => rfl) rfl, ends 0x06 (fun _ => rfl) rfl, ends 0x07 (fun _ => rfl) rfl, ends 0x08 (fun _ => rfl) rfl,
      ends 0x09 (fun _ => rfl) rfl, ends 0x0A (fun _ => rfl) ?_, ends 0x0B (fun _ => rfl) ?_⟩
    · simp only [scalarEff, BitVec.slt_iff_toInt_lt]; rfl
    · simp only [scalarEff, BitVec.ult_iff_toNat_lt]; rfl
  · intro s p f hr hf d x a i n gives
    have ends {c : Instr} (op : BitVec 8) (hc : Issues c p (.scalar op f) p.ce) {v : Word64}
        (hv : scalarEff op f x = x.put f v) : gives c v := hc.scalar_ends hr hf hv
    have hrdsr : Issues (.rdsr p f) p (.scalar 0x3E f) p.ce := fun _ => rfl
    refine ⟨ends 0x10 (fun _ => rfl) rfl, ends 0x11 (fun _ => rfl) rfl, ends 0x12 (fun _ => rfl) rfl, ends 0x13 (fun _ => rfl) rfl,
      ends 0x14 (fun _ => rfl) rfl, ends 0x15 (fun _ => rfl) rfl, ends 0x16 (fun _ => rfl) ?_, ?_, ?_⟩
    · simp only [scalarEff, append_zero_word]; rfl
    · exact Issues.scalar_ends (op := 0x3D) (fun _ => rfl) hr hf rfl
    · intro sh hsh
      have reads {sel : Word32} {v : Word64} (hv : sh.special sel.toNat = some v) (himm : f.imm = sel) : gives (.rdsr p f) v :=
        hrdsr.scalar_ends hr hf (Pav.rdsr_of_special hsh (himm ▸ hv))
      exact ⟨reads rfl, reads rfl, reads rfl, reads rfl, reads rfl, reads rfl, reads rfl, reads rfl, reads rfl⟩

/-- Settles O8: a reserved field by the check before the effect, the others by the effect's own refusal. -/
theorem scalarFaults : Obligations.ScalarFaults := by
  intro s p f ce hr x at_ stops lds sts
  have hlds : Issues (.lds p f ce) p (.scalar 0x20 f) (p.ce + ce) := fun _ => rfl
  have hsts : Issues (.sts p f) p (.scalar 0x21 f) p.ce := fun _ => rfl
  have hrdsr : Issues (.rdsr p f) p (.scalar 0x3E f) p.ce := fun _ => rfl
  refine ⟨?_, ?_, ?_, ?_, ?_⟩
  · intro k i hk hbad
    obtain ⟨n, hi⟩ := issues_of_kernelCmd hk
    exact hi.stops_of_rsvBad hr hbad
  · intro hf h8
    have haddr : x.wordAddr f = .error .alignment := Pav.wordAddr_misaligned h8
    exact ⟨hlds.scalar_stops hr hf (Pav.lds_error haddr), hsts.scalar_stops hr hf (Pav.sts_error haddr)⟩
  · intro hf h8 hout
    have haddr : x.wordAddr f = .error .bedRange := Pav.wordAddr_out h8 hout
    exact ⟨hlds.scalar_stops hr hf (Pav.lds_error haddr), hsts.scalar_stops hr hf (Pav.sts_error haddr)⟩
  · intro hf h8 hin hcode
    exact hsts.scalar_stops hr hf (Pav.sts_hitsCode (Pav.wordAddr_ok h8 hin) hcode)
  · intro hf hsel
    exact hrdsr.scalar_stops hr hf (x.rdsr_of_le hsel)

/-- Settles O10: TMUL is a pass over the cells of its slot, in which the step of a cell sees what the cell held before. -/
theorem tmulCells : Obligations.TmulCells := by
  intro s p f ce fa fb kd hr hf x a b ta tb sa sb m n k old r hfa hfb hsa hsb hpair hscA hscB hk hkt hm hn ha2 ha3 hb2 hb3 hfill hoA hoB hkept
  have fits : x.TmulFits f fa fb kd :=
    ⟨hfa, hfb, hsa, hsb, hpair, hscA, hscB, hk, hkt, hm, hn, ⟨ha2, ha3⟩, ⟨hb2, hb3⟩, hfill, hoA, hoB, hkept⟩
  have hnodup : (List.range (m * n)).Nodup := List.nodup_range
  have hold (c : Nat) : Tab.get Cell.zero (x.tmulBase f fa fb kd).cells c = old c := by
    unfold Pav.tmulBase Pav.tmulKept
    dsimp only [old]
    cases x.slot f.slot with
    | none => rfl
    | some o => dsimp only; split <;> rfl
  have hstep (c : Nat) : x.tmulStep f fa fb kd c (Tab.get Cell.zero (x.tmulBase f fa fb kd).cells c) = r (c / n) (c % n) := by
    dsimp only [r]
    rw [Nat.div_add_mod', hold]
    rfl
  have hflags : (x.tmulCells f fa fb kd).2 = ((List.range (m * n)).map fun c => (r (c / n) (c % n)).2).foldl (· ||| ·) 0 := by
    simp only [← hstep]
    exact Tab.flags_passCells _ _ hnodup _
  have hissues : Issues (.tmul p f ce) p (.tmul f) (p.ce + ce) := fun _ => rfl
  have hends := hissues.ends (eff := fun x => x.tmul f) hr (by simp [KInsn.rsvBad, hf]) (fun _ => rfl) fits.tmul_eq
  rw [hflags] at hends
  obtain ⟨hsame, hkind, hM, hN⟩ := fits.base
  refine ⟨_, hends, hsame, hkind, hM, hN, fun i j hi hj => ?_⟩
  have hdiv : (i * n + j) / n = i := by
    rw [Nat.add_comm, Nat.add_mul_div_right _ _ (Nat.zero_lt_of_lt hj), Nat.div_eq_of_lt hj, Nat.zero_add]
  have hmod : (i * n + j) % n = j := by rw [Nat.mul_add_mod', Nat.mod_eq_of_lt hj]
  have hlt : i * n + j < m * n := calc
    i * n + j < (i + 1) * n := by rw [Nat.succ_mul]; omega
    _ ≤ m * n := Nat.mul_le_mul_right n hi
  refine (Tab.get_passCells _ _ hnodup _ _).trans ?_
  rw [if_pos (List.mem_range.2 hlt), hstep, hdiv, hmod]

end Sys2Proof.Machine.Pavilions
end

section
/-! SUPPORT and PROOF. Packets at a ledger block (O20): the first element of a list that is changed, executions of a queue, what a packet
adds to ledgers and flags, a block in POSTING that decides its waiters again, the rows of Table 4-6, and the CSEND that a packet leaves;
then the statement from them. -/

namespace Sys2Proof.Machine

/-! ### Changing the first element that satisfies a test -/

section
variable {α : Type} {t u : α → Bool} {f : α → α}

/-- A search with the test of the change finds the changed element. -/
theorem find?_updFirst_self (hf : ∀ x, t x = true → t (f x) = true) (l : List α) :
    (updFirst t f l).find? t = (l.find? t).map f := by
  induction l with
  | nil => rfl
  | cons x l ih =>
    by_cases hx : t x = true
    · simp [updFirst, hx, hf x hx]
    · simp [updFirst, hx, ih]

/-- A search that meets neither the old nor the changed element finds what it found before. -/
theorem find?_updFirst_of_disjoint (hu : ∀ x, t x = true → u x = false ∧ u (f x) = false) (l : List α) :
    (updFirst t f l).find? u = l.find? u := by
  induction l with
  | nil => rfl
  | cons x l ih =>
    by_cases hx : t x = true
    · obtain ⟨hold, hnew⟩ := hu x hx
      simp [updFirst, hx, hold, hnew]
    · simp [updFirst, hx, List.find?_cons, ih]

end

theorem Pav.xfer?_updXfer_self (x : Pav) (id : Nat) {f : Xfer → Xfer} (hf : ∀ t, (f t).id = t.id) :
    (x.updXfer id f).xfer? id = (x.xfer? id).map f :=
  find?_updFirst_self (fun t ht => by rw [hf]; exact ht) x.xfers

/-! ### The executions of a queue -/

section
variable (d : Dev) (q seq : Nat) {f : Exec → Exec}

theorem Dev.queue_updExec (j : Nat) : (d.updExec q seq f).queue j =
    if j = q then { d.queue q with execs := updFirst (fun e => e.seq == seq) f (d.queue q).execs } else d.queue j :=
  Dev.queue_setQueue ..

theorem Dev.qAllot_updExec (j : Nat) : (d.updExec q seq f).qAllot j = d.qAllot j := by
  rw [Dev.qAllot, Dev.queue_updExec]
  split
  · next h => rw [h, Dev.qAllot]
  · rfl

/-- A change that keeps its descriptor's sequence is seen by that descriptor alone. -/
theorem Dev.exec?_updExec (hf : ∀ e, (f e).seq = e.seq) (j n : Nat) :
    (d.updExec q seq f).exec? j n = if j = q ∧ n = seq then (d.exec? q seq).map f else d.exec? j n := by
  rw [Dev.exec?, Dev.queue_updExec]
  by_cases hj : j = q
  · subst hj
    by_cases hn : n = seq
    · subst hn
      simp only [and_self, if_true]
      exact find?_updFirst_self (fun e he => by rw [hf]; exact he) _
    · simp only [hn, and_false, if_true, if_false]
      refine find?_updFirst_of_disjoint (fun e he => ?_) _
      rw [hf]
      simp [beq_iff_eq.1 he, Ne.symm hn]
  · simp only [hj, false_and, if_false]
    rfl

end

@[simp] theorem Exec.finish_seq (e : Exec) (st : Nat) : (e.finish st).seq = e.seq := by
  unfold Exec.finish
  split <;> rfl

@[simp] theorem Exec.finish_contribs (e : Exec) (st : Nat) : (e.finish st).contribs = e.contribs := by
  unfold Exec.finish
  split <;> rfl

/-! ### What a packet adds to a block (R80, R81, R204, R205) -/

/-- A ledger that takes a value: NaN sets its NaN bit, a number adds to its integer. -/
def Ledger.add (l : Ledger) : Val → Ledger
  | .nan => { l with nan := true }
  | .num neg mag => { l with v := l.v + (Val.num neg mag).int }

/-- Ledger j of a block. -/
def CisBlk.ledger (x : CisBlk) (j : Nat) : Ledger := Tab.get ⟨0, false⟩ x.ledgers j

/-- Element j of a packet goes to ledger j and its flags to the block. -/
def CisBlk.addElem (k : Packet) (x : CisBlk) (j : Nat) : CisBlk :=
  { x with ledgers := Tab.set ⟨0, false⟩ x.ledgers j ((x.ledger j).add (k.value j).1), flags := x.flags ||| (k.value j).2 }

/-- The block with the part at a position counted. -/
def CisBlk.counted (x : CisBlk) (q : Nat) : CisBlk := { x with arrived := Tab.set false x.arrived q true, count := x.count + 1 }

/-- The block in another state, with other posts left to do and other REDUCEs waiting. -/
def CisBlk.inState (x : CisBlk) (st : BlkSt) (left : List Nat) (ws : List (Nat × Nat × Nat)) : CisBlk :=
  { x with st := st, postLeft := left, waiters := ws }

section
variable (x : CisBlk) (st : BlkSt) (left : List Nat) (ws : List (Nat × Nat × Nat)) (q j : Nat)

@[simp] theorem CisBlk.inState_st : (x.inState st left ws).st = st := rfl
@[simp] theorem CisBlk.inState_count : (x.inState st left ws).count = x.count := rfl
@[simp] theorem CisBlk.inState_arrived : (x.inState st left ws).arrived = x.arrived := rfl
@[simp] theorem CisBlk.inState_flags : (x.inState st left ws).flags = x.flags := rfl
@[simp] theorem CisBlk.inState_ledger : (x.inState st left ws).ledger j = x.ledger j := rfl

theorem CisBlk.inState_self {x : CisBlk} {st : BlkSt} (h : x.st = st) : x.inState st x.postLeft x.waiters = x := by
  subst h
  rfl

@[simp] theorem CisBlk.counted_st : (x.counted q).st = x.st := rfl
@[simp] theorem CisBlk.counted_count : (x.counted q).count = x.count + 1 := rfl
@[simp] theorem CisBlk.counted_flags : (x.counted q).flags = x.flags := rfl
@[simp] theorem CisBlk.counted_ledger : (x.counted q).ledger j = x.ledger j := rfl

@[simp] theorem CisBlk.counted_arrived : Tab.get false (x.counted q).arrived q = true := by simp [CisBlk.counted]

end

section
variable (k : Packet) (x : CisBlk)

theorem CisBlk.addPacket_eq : x.addPacket k = (List.range 64).foldl (CisBlk.addElem k) x := by
  unfold CisBlk.addPacket
  congr 1
  funext y j
  unfold CisBlk.addElem
  obtain ⟨v, fl⟩ := k.value j
  cases v <;> rfl

theorem CisBlk.foldl_addElem_frame (l : List Nat) : l.foldl (CisBlk.addElem k) x =
    { x with ledgers := (l.foldl (CisBlk.addElem k) x).ledgers, flags := (l.foldl (CisBlk.addElem k) x).flags } := by
  induction l generalizing x with
  | nil => rfl
  | cons j l ih => exact ih (x.addElem k j)

/-- A packet changes the ledgers and the flags of its block, nothing else. -/
theorem CisBlk.addPacket_frame : x.addPacket k = { x with ledgers := (x.addPacket k).ledgers, flags := (x.addPacket k).flags } := by
  rw [CisBlk.addPacket_eq]
  exact x.foldl_addElem_frame k _

@[simp] theorem CisBlk.addPacket_st : (x.addPacket k).st = x.st := by rw [CisBlk.addPacket_frame]
@[simp] theorem CisBlk.addPacket_count : (x.addPacket k).count = x.count := by rw [CisBlk.addPacket_frame]
@[simp] theorem CisBlk.addPacket_arrived : (x.addPacket k).arrived = x.arrived := by rw [CisBlk.addPacket_frame]

theorem CisBlk.addPacket_flags :
    (x.addPacket k).flags = x.flags ||| ((List.range 64).map fun j => (k.value j).2).foldl (· ||| ·) 0 := calc
  (x.addPacket k).flags = (List.range 64).foldl (fun fl j => fl ||| (k.value j).2) x.flags := by
    rw [CisBlk.addPacket_eq]
    exact (List.foldl_hom CisBlk.flags (fun _ _ => rfl)).symm
  _ = ((List.range 64).map fun j => (k.value j).2).foldl (· ||| ·) (x.flags ||| 0) := by
    rw [List.foldl_map, show x.flags ||| 0 = x.flags from BitVec.or_zero]
  _ = x.flags ||| ((List.range 64).map fun j => (k.value j).2).foldl (· ||| ·) 0 := List.foldl_assoc

theorem CisBlk.ledger_addElem (i j : Nat) : (x.addElem k i).ledger j = if j = i then (x.ledger i).add (k.value i).1 else x.ledger j :=
  Tab.get_set ..

/-- Of the elements added, each changes its own ledger once. -/
theorem CisBlk.ledger_foldl_addElem (l : List Nat) (hl : l.Nodup) (j : Nat) :
    (l.foldl (CisBlk.addElem k) x).ledger j = if j ∈ l then (x.ledger j).add (k.value j).1 else x.ledger j := by
  induction l generalizing x with
  | nil => rfl
  | cons i l ih =>
    obtain ⟨hi, hl⟩ := List.nodup_cons.1 hl
    rw [List.foldl_cons, ih _ hl, CisBlk.ledger_addElem]
    by_cases hj : j = i
    · subst hj
      simp [hi]
    · simp [hj]

theorem CisBlk.ledger_addPacket {j : Nat} (hj : j < 64) : (x.addPacket k).ledger j = (x.ledger j).add (k.value j).1 := by
  rw [CisBlk.addPacket_eq, CisBlk.ledger_foldl_addElem k x _ List.nodup_range, if_pos (List.mem_range.2 hj)]

end

/-! ### What changes at one block and in the queues only -/

/-- `e` differs from `d` at block `b`, and in what the queues know of their descriptors, except for their contributions. -/
structure Dev.DiffersAt (b : Nat) (d e : Dev) : Prop where
  rest : e = { d with qs := e.qs, blks := e.blks }
  blk : ∀ c, c ≠ b → e.blk c = d.blk c
  qAllot : ∀ q, e.qAllot q = d.qAllot q
  contribs : ∀ q seq, (e.exec? q seq).map Exec.contribs = (d.exec? q seq).map Exec.contribs

/-- `e` differs from `d` so, and at block `b` in the waiting REDUCEs alone. -/
structure Dev.Redecided (b : Nat) (d e : Dev) : Prop extends Dev.DiffersAt b d e where
  waiters : ∃ ws, e.blk b = { d.blk b with waiters := ws }

section
variable {b : Nat} {d e g : Dev}

theorem Dev.DiffersAt.trans (h : Dev.DiffersAt b d e) (i : Dev.DiffersAt b e g) : Dev.DiffersAt b d g where
  rest := by rw [i.rest, h.rest]
  blk c hc := (i.blk c hc).trans (h.blk c hc)
  qAllot q := (i.qAllot q).trans (h.qAllot q)
  contribs q seq := (i.contribs q seq).trans (h.contribs q seq)

theorem Dev.DiffersAt.allot (h : Dev.DiffersAt b d e) (a : Nat) : e.allot a = d.allot a := by rw [h.rest]; rfl
theorem Dev.DiffersAt.lmod (h : Dev.DiffersAt b d e) (a : Allot) : e.lmod a = d.lmod a := by rw [h.rest]; rfl
theorem Dev.DiffersAt.blkOf (h : Dev.DiffersAt b d e) (a l : Nat) : e.blkOf a l = d.blkOf a l := by rw [h.rest]; rfl
theorem Dev.DiffersAt.pav (h : Dev.DiffersAt b d e) (p : Nat) : e.pav p = d.pav p := by rw [h.rest]; rfl
theorem Dev.DiffersAt.mem (h : Dev.DiffersAt b d e) : e.mem = d.mem := by rw [h.rest]

theorem Dev.differsAt_setBlk (d : Dev) (b : Nat) (x : CisBlk) : Dev.DiffersAt b d (d.setBlk b x) where
  rest := rfl
  blk _ hc := by rw [Dev.blk_setBlk, if_neg hc]
  qAllot _ := rfl
  contribs _ _ := rfl

theorem Dev.Redecided.refl (b : Nat) (d : Dev) : Dev.Redecided b d d := ⟨⟨rfl, fun _ _ => rfl, fun _ => rfl, fun _ _ => rfl⟩, _, rfl⟩

theorem Dev.Redecided.trans (h : Dev.Redecided b d e) (i : Dev.Redecided b e g) : Dev.Redecided b d g := by
  obtain ⟨ws, hws⟩ := h.waiters
  obtain ⟨vs, hvs⟩ := i.waiters
  exact ⟨h.toDiffersAt.trans i.toDiffersAt, vs, by rw [hvs, hws]⟩

theorem Dev.Redecided.st_eq (h : Dev.Redecided b d e) : (e.blk b).st = (d.blk b).st := by
  obtain ⟨ws, hws⟩ := h.waiters
  rw [hws]

theorem Dev.redecided_waiters (d : Dev) (b : Nat) (f : CisBlk → List (Nat × Nat × Nat)) :
    Dev.Redecided b d (d.updBlk b fun x => { x with waiters := f x }) :=
  ⟨d.differsAt_setBlk b _, f (d.blk b), by rw [Dev.updBlk, Dev.blk_setBlk, if_pos rfl]⟩

theorem Dev.redecided_updExec (d : Dev) (b q seq : Nat) {f : Exec → Exec} (hseq : ∀ e, (f e).seq = e.seq)
    (hcontribs : ∀ e, (f e).contribs = e.contribs) : Dev.Redecided b d (d.updExec q seq f) where
  rest := rfl
  blk _ _ := rfl
  qAllot := d.qAllot_updExec q seq
  contribs j n := by
    rw [d.exec?_updExec q seq hseq]
    split
    · next h => rw [h.1, h.2, Option.map_map, show Exec.contribs ∘ f = Exec.contribs from funext hcontribs]
    · rfl
  waiters := ⟨_, rfl⟩

theorem Dev.redecided_finishReduce (d : Dev) (b q seq st : Nat) : Dev.Redecided b d (d.finishReduce q seq st) :=
  (d.redecided_updExec b q seq (f := fun e => { e with flags := e.flags ||| d.reduceFlags q seq }) (fun _ => rfl) fun _ => rfl).trans
    (Dev.redecided_updExec _ b q seq (Exec.finish_seq · st) (Exec.finish_contribs · st))

end

/-! ### A block in POSTING decides its waiters again (R201) -/

/-- One REDUCE that waits on a block is decided again. -/
def Dev.redecideOne (b : Nat) (d : Dev) (w : Nat × Nat × Nat) : Dev :=
  match d.exec? w.1 w.2.1 with
  | none => d
  | some e =>
    if e.complete then d
    else
      match (d.blk b).armCase e.group w.1 w.2.1 with
      | .arm => d.arm (d.qAllot w.1) e w.1 w.2.2 b
      | .wait => d.updBlk b (fun x => { x with waiters := x.waiters ++ [w] })
      | .join => d
      | .faulted => d.finishReduce w.1 w.2.1 0x7F
      | .bad => d.finishReduce w.1 w.2.1 0x21

theorem Dev.redecide_eq (d : Dev) (b : Nat) :
    d.redecide b = (d.blk b).waiters.foldl (Dev.redecideOne b) (d.updBlk b fun x => { x with waiters := [] }) := rfl

theorem CisBlk.armCase_posting {x : CisBlk} (h : x.st = .posting) (g : Word32) (q seq : Nat) : x.armCase g q seq ≠ .arm := by
  have hidle : (x.st == .idle) = false := by rw [h]; rfl
  have hcommitted : (x.st == .committed) = false := by rw [h]; rfl
  simp only [CisBlk.armCase, hidle, hcommitted, Bool.or_false, Bool.false_and, Bool.false_eq_true, if_false]
  split_ifs <;> decide

theorem Dev.redecideOne_posting {d : Dev} {b : Nat} (h : (d.blk b).st = .posting) (w : Nat × Nat × Nat) :
    Dev.Redecided b d (d.redecideOne b w) := by
  unfold Dev.redecideOne
  split
  · exact .refl b d
  · next e _ =>
    split
    · exact .refl b d
    · split
      · next harm => exact absurd harm (CisBlk.armCase_posting h _ _ _)
      · exact d.redecided_waiters b _
      · exact .refl b d
      · exact d.redecided_finishReduce ..
      · exact d.redecided_finishReduce ..

theorem Dev.foldl_redecideOne_posting {b : Nat} (ws : List (Nat × Nat × Nat)) {d : Dev} (h : (d.blk b).st = .posting) :
    Dev.Redecided b d (ws.foldl (Dev.redecideOne b) d) := by
  induction ws generalizing d with
  | nil => exact .refl b d
  | cons w ws ih =>
    have hone := Dev.redecideOne_posting h w
    exact hone.trans (ih (hone.st_eq.trans h))

/-- No waiter of a POSTING block arms it, so nothing of the block changes but who waits. -/
theorem Dev.blkState_posting (d : Dev) (b : Nat) : Dev.Redecided b (d.updBlk b fun x => { x with st := .posting }) (d.blkState b .posting) := by
  have hclear := Dev.redecided_waiters (d.updBlk b fun x => { x with st := .posting }) b fun _ => []
  rw [Dev.blkState, Dev.redecide_eq]
  refine hclear.trans (Dev.foldl_redecideOne_posting _ (hclear.st_eq.trans ?_))
  rw [Dev.updBlk, Dev.blk_setBlk, if_pos rfl]

/-! ### A block takes a packet (R210, R215) -/

/-- The block's count is complete: all its posts are left to do. -/
def Dev.startPosts (d : Dev) (b n : Nat) : Dev := (d.updBlk b fun z => { z with postLeft := List.range n }).blkState b .posting

theorem Dev.differsAt_startPosts (d : Dev) (b n : Nat) : Dev.DiffersAt b d (d.startPosts b n) :=
  ((d.differsAt_setBlk b _).trans (Dev.differsAt_setBlk _ b _)).trans (Dev.blkState_posting _ b).toDiffersAt

theorem Dev.blk_startPosts (d : Dev) (b n : Nat) :
    ∃ ws, (d.startPosts b n).blk b = (d.blk b).inState .posting (List.range n) ws := by
  obtain ⟨ws, hws⟩ := (Dev.blkState_posting (d.updBlk b fun z => { z with postLeft := List.range n }) b).waiters
  refine ⟨ws, hws.trans ?_⟩
  simp only [Dev.updBlk, Dev.blk_setBlk, if_true]
  rfl

/-- `y` is the block `x` once the packet has been added to it at a position, exactly (R210). -/
structure CisBlk.Adds (x : CisBlk) (k : Packet) (q expect : Nat) (y : CisBlk) : Prop where
  count : y.count = x.count + 1
  arrived : Tab.get false y.arrived q = true
  st : y.st = if x.count + 1 = expect then .posting else .armed
  flags : y.flags = x.flags ||| ((List.range 64).map fun j => (k.value j).2).foldl (· ||| ·) 0
  ledger : ∀ j, j < 64 → y.ledger j = (x.ledger j).add (k.value j).1

section
variable (d : Dev) (b q : Nat) (k : Packet) {p : ArmParams}

theorem Dev.acceptPacket_sum (hp : p.gather = false) :
    d.acceptPacket b k p q = if (d.blk b).count + 1 = p.expect
      then (d.setBlk b (((d.blk b).counted q).addPacket k)).startPosts b p.targets.length
      else d.setBlk b (((d.blk b).counted q).addPacket k) := by
  simp only [Dev.acceptPacket, hp]
  rfl

theorem Dev.differsAt_acceptPacket (hp : p.gather = false) : Dev.DiffersAt b d (d.acceptPacket b k p q) := by
  rw [d.acceptPacket_sum b q k hp]
  split
  · exact (d.differsAt_setBlk b _).trans (Dev.differsAt_startPosts ..)
  · exact d.differsAt_setBlk b _

theorem Dev.blk_acceptPacket (hp : p.gather = false) (hst : (d.blk b).st = .armed) :
    ∃ left ws, (d.acceptPacket b k p q).blk b =
      (((d.blk b).counted q).addPacket k).inState (if (d.blk b).count + 1 = p.expect then .posting else .armed) left ws := by
  rw [d.acceptPacket_sum b q k hp]
  split
  · obtain ⟨ws, hws⟩ := (d.setBlk b (((d.blk b).counted q).addPacket k)).blk_startPosts b p.targets.length
    rw [Dev.blk_setBlk, if_pos rfl] at hws
    exact ⟨_, ws, hws⟩
  · refine ⟨_, _, (Dev.blk_setBlk ..).trans <| (if_pos rfl).trans (CisBlk.inState_self ?_).symm⟩
    rw [CisBlk.addPacket_st, CisBlk.counted_st, hst]

/-- A SUM block counts the part, adds the packet, and is POSTING with the last one. -/
theorem Dev.acceptPacket_adds (hp : p.gather = false) (hst : (d.blk b).st = .armed) :
    CisBlk.Adds (d.blk b) k q p.expect ((d.acceptPacket b k p q).blk b) := by
  obtain ⟨left, ws, hblk⟩ := d.blk_acceptPacket b q k hp hst
  rw [hblk]
  exact {
    count := by rw [CisBlk.inState_count, CisBlk.addPacket_count, CisBlk.counted_count]
    arrived := by rw [CisBlk.inState_arrived, CisBlk.addPacket_arrived, CisBlk.counted_arrived]
    st := CisBlk.inState_st ..
    flags := by rw [CisBlk.inState_flags, CisBlk.addPacket_flags, CisBlk.counted_flags]
    ledger := fun j hj => by rw [CisBlk.inState_ledger, CisBlk.ledger_addPacket _ _ hj, CisBlk.counted_ledger] }

/-- A GATHER block of one target here writes the packet's payload there. -/
theorem Dev.gather_local {t : Target} {e : Dev} (bs : Bytes) (fin : Bool) (ht : p.targets = [t]) (hl : d.isLocal (d.blk b).allot t = true)
    (hpost : d.postLocal (d.blk b).allot b 0 q t ((p.i * p.expect + q) * bs.length) bs = (e, 0)) (hlands : e.postLands b 0 ≠ .bad) :
    d.gather b q p bs fin = e := by
  simp only [Dev.gather, ht, List.length_singleton, List.range_one, List.zip_cons_cons, List.zip_nil_left, List.foldl_cons, List.foldl_nil,
    hl, if_true, hpost, hlands, if_false]

theorem Dev.acceptPacket_gather {t : Target} {e : Dev} (hp : p.gather = true) (ht : p.targets = [t])
    (hl : d.isLocal (d.blk b).allot t = true)
    (hpost : (d.setBlk b ((d.blk b).counted q)).postLocal (d.blk b).allot b 0 q t ((p.i * p.expect + q) * k.payload.length) k.payload = (e, 0))
    (hlands : e.postLands b 0 ≠ .bad) :
    d.acceptPacket b k p q = if (d.blk b).count + 1 = p.expect then e.startPosts b 1 else e := by
  have hallot : ((d.setBlk b ((d.blk b).counted q)).blk b).allot = (d.blk b).allot := by rw [Dev.blk_setBlk, if_pos rfl]; rfl
  have hgather (fin : Bool) := Dev.gather_local (d.setBlk b ((d.blk b).counted q)) b q k.payload fin ht (hallot ▸ hl) (hallot ▸ hpost) hlands
  unfold CisBlk.counted at hgather
  simp only [Dev.acceptPacket, hp, if_true, hgather, ht]
  rfl

end

/-! ### The rows of Table 4-6 (R206, R207) -/

@[simp] theorem groupNewer_self (g : Word32) : groupNewer g g = false := by simp [groupNewer]
@[simp] theorem groupOlder_self (g : Word32) : groupOlder g g = false := by simp [groupOlder]

/-- The packet comes from the REDUCE's own queue and from an earlier descriptor (R207). -/
abbrev Packet.ownEarlier (k : Packet) (d : Dev) (p : ArmParams) : Prop := k.queue = p.q ∧ k.srcModule = d.moduleId ∧ k.seq < p.seq

/-- The position of a packet's part in the block's arrival map. -/
def Packet.place (k : Packet) (p : ArmParams) : Nat := (k.part - p.partBase - BitVec.ofNat 32 p.i).toNat

/-- Row 1: the block is not the sender's to use. -/
def Dev.barred (d : Dev) (a b : Nat) : Prop := a = 0 ∨ (d.blk b).allot ≠ a ∨ (d.blk b).st = .clearing

/-- Row 2: the block is not ready for the packet's group yet. -/
def Dev.tooEarly (d : Dev) (b : Nat) (k : Packet) : Prop :=
  (d.blk b).st = .idle ∨ groupNewer k.group (d.blk b).group = true ∨ (d.blk b).st = .arming

/-- The block collects the packet's group, for the sender's allotment, with parameters `p`. -/
structure Dev.Collects (d : Dev) (a b : Nat) (k : Packet) (p : ArmParams) : Prop where
  bound : a ≠ 0
  allot : (d.blk b).allot = a
  st : (d.blk b).st = .armed
  params : (d.blk b).params = some p
  group : k.group = (d.blk b).group

/-- A GATHER block cannot write a packet of this form. -/
abbrev Packet.badForm (k : Packet) (p : ArmParams) : Prop := p.gather = true ∧ (k.kind ≠ 0 ∨ k.fmtA ≠ p.fmt ∨ k.scaled = true)

section
variable {d : Dev} {a b : Nat} {k : Packet} {p : ArmParams}

theorem Dev.not_barred (ha : a ≠ 0) (hallot : (d.blk b).allot = a) (hst : (d.blk b).st ≠ .clearing) : ¬ d.barred a b := by
  simp [Dev.barred, ha, hallot, hst]

theorem Dev.not_tooEarly (hidle : (d.blk b).st ≠ .idle) (harming : (d.blk b).st ≠ .arming)
    (hnewer : groupNewer k.group (d.blk b).group = false) : ¬ d.tooEarly b k := by
  simp [Dev.tooEarly, hidle, harming, hnewer]

theorem Dev.packetRow_access (h : d.barred a b) : d.packetRow a b k = .access := if_pos h

theorem Dev.packetRow_retry (hbar : ¬ d.barred a b) (h : d.tooEarly b k) : d.packetRow a b k = .retry := (if_neg hbar).trans (if_pos h)

theorem Dev.packetRow_older (hbar : ¬ d.barred a b) (hearly : ¬ d.tooEarly b k) (h : groupOlder k.group (d.blk b).group = true) :
    d.packetRow a b k = .discard := (if_neg hbar).trans <| (if_neg hearly).trans (if_pos h)

/-- A block that is not ARMED collects no more. -/
theorem Dev.packetRow_closed (hbar : ¬ d.barred a b) (hearly : ¬ d.tooEarly b k) (h : (d.blk b).st ≠ .armed) :
    d.packetRow a b k = .discard := by
  refine (if_neg hbar).trans <| (if_neg hearly).trans ?_
  split
  · rfl
  · split
    · next hst _ => exact absurd hst h
    · rfl

/-- At a block that collects its group the packet's part decides. -/
theorem Dev.Collects.packetRow_eq (h : d.Collects a b k p) :
    d.packetRow a b k = if k.ownEarlier d p then .access else if p.expect ≤ k.place p then .access else if k.badForm p then .format
      else if Tab.get false (d.blk b).arrived (k.place p) then .duplicate else .accept p (k.place p) := by
  have hbar : ¬ d.barred a b := Dev.not_barred h.bound h.allot (by simp [h.st])
  have hearly : ¬ d.tooEarly b k := Dev.not_tooEarly (by simp [h.st]) (by simp [h.st]) (by rw [h.group, groupNewer_self])
  have holder : ¬ groupOlder k.group (d.blk b).group = true := by rw [h.group, groupOlder_self]; decide
  refine (if_neg hbar).trans <| (if_neg hearly).trans <| (if_neg holder).trans ?_
  simp only [h.st, h.params]
  rfl

/-- A part of an earlier descriptor of the REDUCE's own queue. -/
theorem Dev.Collects.packetRow_own (h : d.Collects a b k p) (hown : k.ownEarlier d p) : d.packetRow a b k = .access :=
  h.packetRow_eq.trans (if_pos hown)

/-- A part outside EXPECT. -/
theorem Dev.Collects.packetRow_outside (h : d.Collects a b k p) (hown : ¬ k.ownEarlier d p) (hout : p.expect ≤ k.place p) :
    d.packetRow a b k = .access :=
  h.packetRow_eq.trans <| (if_neg hown).trans (if_pos hout)

section
variable (h : d.Collects a b k p) (hown : ¬ k.ownEarlier d p) (hin : k.place p < p.expect)
include h hown hin

theorem Dev.Collects.packetRow_inside : d.packetRow a b k = if k.badForm p then .format
    else if Tab.get false (d.blk b).arrived (k.place p) then .duplicate else .accept p (k.place p) :=
  h.packetRow_eq.trans <| (if_neg hown).trans (if_neg (Nat.not_le.2 hin))

theorem Dev.Collects.packetRow_format (hform : k.badForm p) : d.packetRow a b k = .format :=
  (h.packetRow_inside hown hin).trans (if_pos hform)

theorem Dev.Collects.packetRow_duplicate (hform : ¬ k.badForm p) (hseen : Tab.get false (d.blk b).arrived (k.place p) = true) :
    d.packetRow a b k = .duplicate :=
  (h.packetRow_inside hown hin).trans <| (if_neg hform).trans (if_pos hseen)

theorem Dev.Collects.packetRow_accept (hform : ¬ k.badForm p) (hnew : Tab.get false (d.blk b).arrived (k.place p) = false) :
    d.packetRow a b k = .accept p (k.place p) :=
  (h.packetRow_inside hown hin).trans <| (if_neg hform).trans (if_neg (Bool.eq_false_iff.1 hnew))

end

theorem Dev.decidePacket_access (h : d.packetRow a b k = .access) : d.decidePacket a b k = (d, .access) := by rw [Dev.decidePacket, h]

theorem Dev.decidePacket_retry (h : d.packetRow a b k = .retry) :
    d.decidePacket a b k = (d.bump (Reg.CIS_REFUSED (b / 64)) F.CIS_REFUSED_RETRIES 1, .retry) := by rw [Dev.decidePacket, h]

theorem Dev.decidePacket_discard (h : d.packetRow a b k = .discard) : d.decidePacket a b k = (d, .discarded) := by rw [Dev.decidePacket, h]

theorem Dev.decidePacket_format (h : d.packetRow a b k = .format) : d.decidePacket a b k = (d, .format) := by rw [Dev.decidePacket, h]

theorem Dev.decidePacket_duplicate (h : d.packetRow a b k = .duplicate) :
    d.decidePacket a b k = (d.raise (Reg.CIS_DUP_EVT (b / 64)), .discarded) := by rw [Dev.decidePacket, h]

theorem Dev.decidePacket_accept {q : Nat} (h : d.packetRow a b k = .accept p q) :
    d.decidePacket a b k = (d.acceptPacket b k p q, .landed) := by rw [Dev.decidePacket, h]

/-- A discarded packet leaves the module as it was, or its count of duplicates raised (R209). -/
theorem Dev.eq_or_eq_raise_of_discarded {e : Dev} (h : d.decidePacket a b k = (e, .discarded)) :
    e = d ∨ e = d.raise (Reg.CIS_DUP_EVT (b / 64)) := by
  cases hrow : d.packetRow a b k with
  | discard => exact .inl (Prod.mk.inj ((Dev.decidePacket_discard hrow).symm.trans h)).1.symm
  | duplicate => exact .inr (Prod.mk.inj ((Dev.decidePacket_duplicate hrow).symm.trans h)).1.symm
  | access => simp [Dev.decidePacket_access hrow] at h
  | retry => simp [Dev.decidePacket_retry hrow] at h
  | format => simp [Dev.decidePacket_format hrow] at h
  | accept p q => simp [Dev.decidePacket_accept hrow] at h

end

/-! ### A CSEND delivers a packet (R194, R207, R220) -/

/-- Packet k leaves its CSEND. -/
def Dev.dropPacket (d : Dev) (p id k : Nat) : Dev :=
  d.updPav p fun x => x.updXfer id fun t => { t with pkts := t.pkts.filter (fun e => e.1 != k) }

theorem Dev.pav_dropPacket_of_ne (d : Dev) {p o : Nat} (id k : Nat) (h : o ≠ p) : (d.dropPacket p id k).pav o = d.pav o := by
  rw [Dev.dropPacket, Dev.pav_updPav, if_neg h]

theorem Dev.xfer?_dropPacket {d : Dev} {p id : Nat} {t : Xfer} (k : Nat) (h : (d.pav p).xfer? id = some t) :
    ((d.dropPacket p id k).pav p).xfer? id = some { t with pkts := t.pkts.filter (fun e => e.1 != k) } := by
  rw [Dev.dropPacket, Dev.pav_updPav, if_pos rfl, Pav.xfer?_updXfer_self]
  · rw [h]; rfl
  · exact fun _ => rfl

/-- A packet for a block of this module that lands leaves the CSEND and counts as a contribution of its descriptor. -/
theorem Dev.sendPacket_landed {d e : Dev} {p id k b : Nat} {t : Xfer} {pk : Packet} (hstall : d.stalled = false)
    (ht : (d.pav p).xfer? id = some t) (hkind : t.kind = .csend) (hpk : t.pkts.find? (fun e => e.1 == k) = some (k, pk))
    (hmod : t.dstMod = d.lmod (d.allot (d.pav p).allot)) (hclear : (d.allot (d.pav p).allot).st ≠ .clearing)
    (hb : d.blkOf (d.pav p).allot pk.blk = some b) (hland : d.decidePacket (d.pav p).allot b { pk with blk := b } = (e, .landed)) :
    d.sendPacket p id k = (e.dropPacket p id k).contributed t.dstMod pk := by
  simp only [Dev.sendPacket, hstall, ht, hkind, hpk, hb, hland, ← hmod, hclear, Bool.false_eq_true, if_false, if_true, false_and]
  rfl

/-- The first contribution of a descriptor, to a block of this module. -/
theorem Dev.contribs_contributed {d : Dev} {a b m : Nat} {pk : Packet} (hq : d.qAllot pk.queue = a) (hm : m = d.lmod (d.allot a))
    (hb : d.blkOf a pk.blk = some b) (he : (d.exec? pk.queue pk.seq).map Exec.contribs = some []) :
    ∃ e, (d.contributed m pk).exec? pk.queue pk.seq = some e ∧ e.contribs = [⟨m, pk.blk, some b, pk.group, false⟩] := by
  obtain ⟨e, he, hnone⟩ := Option.map_eq_some_iff.1 he
  have hseq (k : ContribMark) (e : Exec) : (if e.contribs.contains k then e else { e with contribs := e.contribs ++ [k] }).seq = e.seq := by
    split <;> rfl
  simp only [Dev.contributed, hq, ← hm, if_true, hb]
  rw [Dev.exec?_updExec _ _ _ (hseq _), if_pos ⟨rfl, rfl⟩, he]
  exact ⟨_, rfl, by simp [hnone]⟩

/-- Both commands deliver the packet. -/
theorem sendPacket_ends {i : Instr} {p : Pv} {id k : Nat} (s : State) (h : i = .contributionPacket p id k ∨ i = .contributionRetry p id k) :
    Ends i s (s.dev.sendPacket p.val id k) := by
  obtain rfl | rfl := h <;> rfl

/-! ### The statement -/

/-- Settles O20: a packet that counts is delivered, taken by its block and noted with its descriptor, each by its own lemma; the rest are
the rows of Table 4-6 in order. -/
theorem packetArrivals : Obligations.PacketArrivals := by
  constructor
  · intro s p id k b t pk pr i d x y n hi ht hkind hpk hmod hb ha hallot hst hp hg hstall hclear hsum hown hn hnew
    have hcollects : d.Collects x.allot b { pk with blk := b } pr := ⟨ha, hallot, hst, hp, hg⟩
    have hform : ¬ Packet.badForm { pk with blk := b } pr := by simp [Packet.badForm, hsum]
    have hland := Dev.decidePacket_accept (hcollects.packetRow_accept hown hn hform hnew)
    have hends : Ends i s _ := Dev.sendPacket_landed hstall ht hkind hpk hmod hclear hb hland ▸ sendPacket_ends s hi
    have hdiff := d.differsAt_acceptPacket b n { pk with blk := b } hsum
    have hadds := d.acceptPacket_adds b n { pk with blk := b } hsum hst
    refine ⟨_, hends, hadds.count, hadds.arrived, hadds.st, hadds.flags, ?ledgers, hdiff.blk, ?pavs, hdiff.mem, ?xfer, ?contribs⟩
    case ledgers =>
      intro j hj old
      refine (hadds.ledger j hj).trans ?_
      change old.add (pk.value j).1 = _
      cases (pk.value j).1 <;> rfl
    case pavs => exact fun o ho => (Dev.pav_dropPacket_of_ne _ id k ho).trans (hdiff.pav o)
    case xfer => exact ⟨_, Dev.xfer?_dropPacket k (hdiff.pav p.val ▸ ht), rfl⟩
    case contribs =>
      intro e hq he hnone
      have hcontribs := hdiff.contribs pk.queue pk.seq
      rw [he, Option.map_some, hnone] at hcontribs
      exact Dev.contribs_contributed ((hdiff.qAllot _).trans hq) (hmod.trans (by rw [← hdiff.allot, ← hdiff.lmod]; rfl))
        ((hdiff.blkOf ..).trans hb) hcontribs
  · intro d d1 a b k pr t x n y
    refine ⟨?discarded, fun h => Dev.decidePacket_access (Dev.packetRow_access h), fun ha hallot hclear => ?_⟩
    case discarded =>
      intro d2 h
      obtain rfl | rfl := Dev.eq_or_eq_raise_of_discarded h <;> simp
    have hbar : ¬ d.barred a b := Dev.not_barred ha hallot hclear
    refine ⟨fun h => Dev.decidePacket_retry (Dev.packetRow_retry hbar h), ?discard, ?collects⟩
    case discard =>
      intro hidle harming hnewer h
      have hearly : ¬ d.tooEarly b k := Dev.not_tooEarly hidle harming hnewer
      apply Dev.decidePacket_discard
      obtain hold | hclosed := h
      · exact Dev.packetRow_older hbar hearly hold
      · refine Dev.packetRow_closed hbar hearly fun harmed => ?_
        simp [x, harmed] at hclosed
    case collects =>
      intro hst hp hg
      have hcollects : d.Collects a b k pr := ⟨ha, hallot, hst, hp, hg⟩
      refine ⟨fun hown => Dev.decidePacket_access (hcollects.packetRow_own hown), fun hown =>
        ⟨fun hout => Dev.decidePacket_access (hcollects.packetRow_outside hown hout), fun hin =>
          ⟨fun hform => Dev.decidePacket_format (hcollects.packetRow_format hown hin hform), ?duplicate, ?gather⟩⟩⟩
      case duplicate =>
        intro hform hseen
        refine Dev.decidePacket_duplicate (hcollects.packetRow_duplicate hown hin ?_ hseen)
        rintro ⟨hgather, hbad⟩
        obtain hsum | ⟨hkind, hfmt, hscaled⟩ := hform
        · exact absurd hsum (by simp [hgather])
        · simp [hkind, hfmt, hscaled] at hbad
      case gather =>
        intro hgather hkind hfmt hscaled hnew htargets hlocal hpost hlands
        have hform : ¬ k.badForm pr := by simp [Packet.badForm, hkind, hfmt, hscaled]
        rw [Dev.decidePacket_accept (hcollects.packetRow_accept hown hin hform hnew)]
        subst hallot
        exact congrArg (·, Outcome8.landed) (d.acceptPacket_gather b n k hgather htargets hlocal hpost hlands)

end Sys2Proof.Machine
end

section
/-! SUPPORT. Module memory (O23, O24): a cleared range of a table, the packages and their counts, what a report, a read and a write of
stripes change, and the accesses that arrive or wait. -/

namespace Sys2Proof.Machine

/-! ### A cleared range of a table -/

theorem Tab.get_cons {α : Type} (dflt : α) (e : Nat × α) (t : Tab α) (j : Nat) :
    Tab.get dflt (e :: t) j = if j = e.1 then e.2 else Tab.get dflt t j := rfl

theorem Tab.get_clearRange {α : Type} (dflt : α) (t : Tab α) (lo hi j : Nat) :
    (t.clearRange lo hi).get dflt j = if lo ≤ j ∧ j < hi then dflt else t.get dflt j := by
  induction t with
  | nil => simp [Tab.clearRange]
  | cons e t ih =>
    by_cases he : e.1 < lo ∨ hi ≤ e.1
    · have hkeep : Tab.clearRange (e :: t) lo hi = e :: Tab.clearRange t lo hi := by simp [Tab.clearRange, he]
      rw [hkeep, Tab.get_cons, Tab.get_cons, ih]
      by_cases hj : j = e.1
      · rw [if_pos hj, if_pos hj, if_neg (by omega)]
      · rw [if_neg hj, if_neg hj]
    · obtain ⟨hlo, hhi⟩ := not_or.1 he
      have hdrop : Tab.clearRange (e :: t) lo hi = Tab.clearRange t lo hi := by simp [Tab.clearRange, hlo, hhi]
      rw [hdrop, ih, Tab.get_cons]
      by_cases hj : j = e.1
      · rw [if_pos (by omega), if_pos (by omega)]
      · rw [if_neg hj]

/-! ### A report of an uncorrectable stripe (R243, R246) -/

@[simp] theorem Dev.reportUE_outbox (d : Dev) (s : Nat) : (d.reportUE s).outbox = d.outbox := by simp [Dev.reportUE]

theorem Dev.reportUE_evt (d : Dev) (s : Nat) : (d.reportUE s).fld Reg.MEM_UE_EVT ⟨0, 1⟩ = 1 := by
  refine (Dev.fld_congr ?_ _).trans (d.fld_raise_flag Reg.MEM_UE_EVT)
  have hgroup : Reg.MEM_UE_EVT ≠ Reg.MEM_GRP_UE (stripeGroup s) := by simp only [Reg.MEM_UE_EVT, Reg.MEM_GRP_UE]; omega
  simp only [Dev.reportUE, Dev.fire_reg_, Dev.bump]
  rw [Dev.reg_setFld_of_ne _ hgroup, Dev.reg_setReg_ne _ _ (by decide), Dev.reg_setReg_ne _ _ (by decide)]

/-- Reports of several stripes, at least one, set MEM_UE_EVT. -/
theorem Dev.foldl_reportUE_evt (d : Dev) {l : List Nat} (hl : l ≠ []) : (l.foldl Dev.reportUE d).fld Reg.MEM_UE_EVT ⟨0, 1⟩ = 1 := by
  obtain ⟨s, l, rfl⟩ := List.exists_cons_of_ne_nil hl
  exact foldl_keeps (fun e : Dev => e.fld Reg.MEM_UE_EVT ⟨0, 1⟩ = 1) _ (fun e t _ => e.reportUE_evt t) l _ (d.reportUE_evt s)

theorem Dev.foldl_reportUE_mem (d : Dev) (l : List Nat) : (l.foldl Dev.reportUE d).mem = d.mem :=
  foldl_keeps (fun e : Dev => e.mem = d.mem) _ (fun e s he => (e.reportUE_mem s).trans he) l d rfl

theorem Dev.foldl_reportUE_outbox (d : Dev) (l : List Nat) : (l.foldl Dev.reportUE d).outbox = d.outbox :=
  foldl_keeps (fun e : Dev => e.outbox = d.outbox) _ (fun e s he => (e.reportUE_outbox s).trans he) l d rfl

/-! ### What reads and writes of stripes leave unchanged -/

/-- Two blocks differ at most in the packages' contents and counts and the poison table, in registers and triggers fired, and in what is
exchanged with the host. -/
def Dev.sameButCells (d e : Dev) : Prop :=
  e = { d with regs := e.regs, fired := e.fired, freeIx := e.freeIx, outbox := e.outbox, hp := e.hp,
               mem := { d.mem with raw := e.mem.raw, poison := e.mem.poison, pkgs := e.mem.pkgs } }

theorem Dev.sameButCells_refl (d : Dev) : d.sameButCells d := rfl

theorem Dev.sameButCells_trans {d e f : Dev} (h : d.sameButCells e) (g : e.sameButCells f) : d.sameButCells f := by
  unfold Dev.sameButCells at *
  rw [g, h]

/-- A fold of steps that each differ only there differs only there. -/
theorem Dev.sameButCells_foldl {β : Type} {f : Dev → β → Dev} (h : ∀ (d : Dev) b, d.sameButCells (f d b)) :
    ∀ (l : List β) (d : Dev), d.sameButCells (l.foldl f d)
  | [], d => d.sameButCells_refl
  | b :: l, d => Dev.sameButCells_trans (h d b) (Dev.sameButCells_foldl h l (f d b))

section
variable {d e : Dev} (h : d.sameButCells e)
include h

theorem Dev.sameButCells.pavs : e.pavs = d.pavs := by rw [h]
theorem Dev.sameButCells.owed (g : Nat) : e.mem.owed g = d.mem.owed g := by rw [h]; rfl
theorem Dev.sameButCells.isLost (p : Nat) : e.mem.isLost p = d.mem.isLost p := by rw [h]; rfl
theorem Dev.sameButCells.filling : e.mem.filling = d.mem.filling := by rw [h]
theorem Dev.sameButCells.waiting : e.mem.waiting = d.mem.waiting := by rw [h]
theorem Dev.sameButCells.owing : e.mem.owing = d.mem.owing := by rw [h]
theorem Dev.sameButCells.begun (u : MemUser) : e.mem.begun u = d.mem.begun u := by rw [h]; rfl

end

theorem Dev.reportUE_same (d : Dev) (s : Nat) : d.sameButCells (d.reportUE s) := rfl

/-- One corrected symbol of a stripe is counted against its package. -/
def Dev.countSymbol (s : Nat) (d : Dev) (k : Nat) : Dev :=
  let d := d.bump (Reg.MEM_CH_CE k (stripeGroup s)) F.MEM_CH_CE_SYMBOLS 1
  { d with mem := d.mem.setPkg k { d.mem.pkg k with window := (d.mem.pkg k).window + 1 } }

theorem Dev.countFixed_eq (d : Dev) (s : Nat) (fixed : List Nat) :
    d.countFixed s fixed = if fixed.isEmpty then d else fixed.foldl (Dev.countSymbol s) (d.raise Reg.MEM_CE_EVT) := rfl

theorem Dev.countSymbol_same (s : Nat) (d : Dev) (k : Nat) : d.sameButCells (Dev.countSymbol s d k) := rfl

theorem Dev.raise_same (d : Dev) (off : Nat) : d.sameButCells (d.raise off) := rfl

theorem Dev.countFixed_same (d : Dev) (s : Nat) (fixed : List Nat) : d.sameButCells (d.countFixed s fixed) := by
  rw [Dev.countFixed_eq]
  split
  · exact d.sameButCells_refl
  · exact Dev.sameButCells_trans (d.raise_same _) (Dev.sameButCells_foldl (Dev.countSymbol_same s) fixed _)

theorem Dev.readStripe_same (d : Dev) (errs : List SymErr) (s : Nat) : d.sameButCells (d.readStripe errs s).1 := by
  unfold Dev.readStripe
  repeat' split
  · exact d.reportUE_same s
  · exact d.sameButCells_refl
  · exact d.reportUE_same s
  · exact d.countFixed_same s _
  · exact d.reportUE_same s

theorem Dev.store_same (d : Dev) (s : Nat) (data : Bytes) (p : Bool) : d.sameButCells { d with mem := (d.mem.encode s data).setPoison s p } := rfl

theorem Dev.writeStripe_same (d : Dev) (errs : List SymErr) (s off : Nat) (bs : Bytes) (p : Bool) :
    d.sameButCells (d.writeStripe errs s off bs p).1 := by
  have hif (c : Prop) [Decidable c] (e : Dev) (he : d.sameButCells e) : d.sameButCells (if c then d else e) := by
    split
    · exact d.sameButCells_refl
    · exact he
  unfold Dev.writeStripe
  dsimp only
  split
  · exact d.store_same ..
  · split
    · next data fixed _ =>
      have hcount := hif (bs.length = 512) _ (d.countFixed_same s fixed)
      split
      · exact Dev.sameButCells_trans hcount (Dev.reportUE_same ..)
      · exact Dev.sameButCells_trans hcount (Dev.store_same ..)
    · split
      · exact d.reportUE_same s
      · exact Dev.sameButCells_trans (hif (bs.length = 512) _ (d.reportUE_same s)) (Dev.store_same ..)

theorem Dev.performWrite_same (d : Dev) (errs : List SymErr) (ma : Nat) (bs : Bytes) (p : Bool) : d.sameButCells (d.performWrite errs ma bs p).1 := by
  refine foldl_keeps (fun r : Dev × Bool => d.sameButCells r.1) _ ?_ _ _ d.sameButCells_refl
  exact fun r x hr => Dev.sameButCells_trans hr (r.1.writeStripe_same errs (stripeOf x.1) (x.1 % 512) x.2 p)

/-! ### A read of a range -/

/-- The next stripe of a read. -/
def Dev.readNext (errs : List SymErr) (r : Dev × Option Bytes) (s : Nat) : Dev × Option Bytes :=
  match r.1.readStripe errs s with
  | (d, some bs) => (d, r.2.map (· ++ bs))
  | (d, none) => (d, none)

/-- What the stripes of a range give their reader. -/
def rangeOf (ma len : Nat) : Dev × Option Bytes → Dev × RdRes
  | (d, some bs) => (d, .ok ((bs.drop (ma % 512)).take len))
  | (d, none) => (d, .bad)

theorem Dev.performRead_eq (d : Dev) (errs : List SymErr) (ma : Nat) {len : Nat} (hlen : 0 < len) :
    d.performRead errs ma len = rangeOf ma len ((stripesOf ma len).foldl (Dev.readNext errs) (d, some [])) :=
  if_neg (by omega)

theorem Dev.readNext_fst (errs : List SymErr) (r : Dev × Option Bytes) (s : Nat) : (Dev.readNext errs r s).1 = (r.1.readStripe errs s).1 := by
  unfold Dev.readNext
  split <;> rename_i heq <;> rw [heq]

theorem rangeOf_fst (ma len : Nat) (r : Dev × Option Bytes) : (rangeOf ma len r).1 = r.1 := by
  obtain ⟨d, _ | bs⟩ := r <;> rfl

theorem Dev.performRead_same (d : Dev) (errs : List SymErr) (ma len : Nat) : d.sameButCells (d.performRead errs ma len).1 := by
  obtain rfl | hlen := Nat.eq_zero_or_pos len
  · exact d.sameButCells_refl
  rw [d.performRead_eq errs ma hlen, rangeOf_fst]
  refine foldl_keeps (fun r : Dev × Option Bytes => d.sameButCells r.1) _ (fun r s hr => ?_) _ _ d.sameButCells_refl
  rw [Dev.readNext_fst]
  exact Dev.sameButCells_trans hr (r.1.readStripe_same errs s)

theorem stripesOf_length (ma : Nat) {len : Nat} (hlen : 0 < len) : ma % 512 + len ≤ 512 * (stripesOf ma len).length := by
  simp only [stripesOf, stripeOf, List.length_map, List.length_range]
  omega

/-- Every stripe of a range holds a byte of it. -/
theorem exists_byte_of_mem_stripesOf {ma len s : Nat} (hlen : 0 < len) (h : s ∈ stripesOf ma len) : ∃ k, k < len ∧ (ma + k) / 512 = s := by
  simp only [stripesOf, stripeOf, List.mem_map, List.mem_range] at h
  obtain ⟨i, hi, rfl⟩ := h
  obtain rfl | hpos := Nat.eq_zero_or_pos i
  · exact ⟨0, by omega, by omega⟩
  · exact ⟨512 * (i + ma / 512) - ma, by omega, by omega⟩

theorem granuleOf_stripe (a : Nat) : granuleOf (a / 512 * 512) = a / 65536 := by unfold granuleOf; omega
theorem plotAt_stripe (a : Nat) : plotAt (a / 512 * 512) = plotAt a := by unfold plotAt; omega

/-- A stripe of an owed granule of a plot that is not lost reads as zeros (R260). -/
theorem Dev.readStripe_owed {d : Dev} {a : Nat} (errs : List SymErr) (ho : d.mem.owed (a / 65536) = true) (hl : d.mem.isLost (plotAt a) = false) :
    d.readStripe errs (a / 512) = (d, some (List.replicate 512 0)) := by
  rw [Dev.readStripe, plotAt_stripe, granuleOf_stripe, if_neg (by simp [hl]), if_pos ho]

/-- A stripe of a lost plot is uncorrectable (R267). -/
theorem Dev.readStripe_lost {d : Dev} {a : Nat} (errs : List SymErr) (hl : d.mem.isLost (plotAt a) = true) :
    d.readStripe errs (a / 512) = (d.reportUE (a / 512), none) := by
  rw [Dev.readStripe, plotAt_stripe, if_pos hl]

theorem Dev.foldl_readNext_zeros {d : Dev} {errs : List SymErr} {l : List Nat} (h : ∀ s ∈ l, d.readStripe errs s = (d, some (List.replicate 512 0)))
    (n : Nat) : l.foldl (Dev.readNext errs) (d, some (List.replicate n 0)) = (d, some (List.replicate (n + 512 * l.length) 0)) := by
  induction l generalizing n with
  | nil => rfl
  | cons s l ih =>
    have hs : Dev.readNext errs (d, some (List.replicate n 0)) s = (d, some (List.replicate (n + 512) 0)) := by
      simp only [Dev.readNext, h s (List.mem_cons_self ..), Option.map_some, List.replicate_append_replicate]
    rw [List.foldl_cons, hs, ih (fun t ht => h t (List.mem_cons_of_mem s ht)), List.length_cons]
    congr 3
    omega

theorem Dev.performRead_of_owed {d : Dev} {ma len : Nat} (errs : List SymErr)
    (h : ∀ k, k < len → d.mem.owed ((ma + k) / 65536) = true ∧ d.mem.isLost (plotAt (ma + k)) = false) :
    d.performRead errs ma len = (d, .ok (List.replicate len 0)) := by
  obtain rfl | hlen := Nat.eq_zero_or_pos len
  · rfl
  have hstripe : ∀ s ∈ stripesOf ma len, d.readStripe errs s = (d, some (List.replicate 512 0)) := by
    intro s hs
    obtain ⟨k, hk, rfl⟩ := exists_byte_of_mem_stripesOf hlen hs
    exact Dev.readStripe_owed errs (h k hk).1 (h k hk).2
  have hcover := stripesOf_length ma hlen
  rw [d.performRead_eq errs ma hlen]
  refine (congrArg _ (Dev.foldl_readNext_zeros hstripe 0)).trans ?_
  simp only [rangeOf, List.drop_replicate, List.take_replicate]
  congr 3
  omega

theorem Dev.foldl_readNext_lost {m : Mem} {errs : List SymErr} {l : List Nat}
    (h : ∀ s ∈ l, ∀ e : Dev, e.mem = m → e.readStripe errs s = (e.reportUE s, none)) {e : Dev} (he : e.mem = m) (acc : Option Bytes) :
    l.foldl (Dev.readNext errs) (e, acc) = (l.foldl Dev.reportUE e, if l = [] then acc else none) := by
  induction l generalizing e acc with
  | nil => rfl
  | cons s l ih =>
    have hs : Dev.readNext errs (e, acc) s = (e.reportUE s, none) := by simp only [Dev.readNext, h s (List.mem_cons_self ..) e he]
    rw [List.foldl_cons, hs, ih (fun t ht => h t (List.mem_cons_of_mem s ht)) ((e.reportUE_mem s).trans he)]
    simp

theorem stripesOf_ne_nil (ma : Nat) {len : Nat} (hlen : 0 < len) : stripesOf ma len ≠ [] := by
  have := stripesOf_length ma hlen
  intro h
  rw [h, List.length_nil] at this
  omega

theorem Dev.performRead_of_lost {d : Dev} {ma len : Nat} (errs : List SymErr) (hlen : 0 < len)
    (h : ∀ k, k < len → d.mem.isLost (plotAt (ma + k)) = true) :
    d.performRead errs ma len = ((stripesOf ma len).foldl Dev.reportUE d, .bad) := by
  have hstripe : ∀ s ∈ stripesOf ma len, ∀ e : Dev, e.mem = d.mem → e.readStripe errs s = (e.reportUE s, none) := by
    intro s hs e he
    obtain ⟨k, hk, rfl⟩ := exists_byte_of_mem_stripesOf hlen hs
    exact Dev.readStripe_lost errs (he ▸ h k hk)
  rw [d.performRead_eq errs ma hlen, Dev.foldl_readNext_lost hstripe rfl, if_neg (stripesOf_ne_nil ma hlen)]
  rfl

/-! ### Lines that the host holds -/

/-- Without lines of the range in the host's cache a read snoops nothing. -/
theorem Dev.snoopRead_of_held_nil {d : Dev} {ma len : Nat} (h : d.heldLines ma len = []) : d.snoopRead ma len = d := by
  simp [Dev.snoopRead, h]

theorem Dev.mem_heldLines {d : Dev} {ma len l : Nat} (h : l ∈ d.heldLines ma len) : ma / 64 ≤ l ∧ l * 64 < ma + len := by
  simp only [Dev.heldLines, List.mem_map, List.mem_filter, decide_eq_true_eq] at h
  obtain ⟨e, ⟨_, he⟩, rfl⟩ := h
  exact he

/-- After a back-invalidation the host holds no line of the range. -/
theorem Dev.backInvalidate_gone (d : Dev) (ma len : Nat) :
    ∀ e ∈ (d.backInvalidate ma len).hp.held, e.1 < ma / 64 ∨ ma + len ≤ e.1 * 64 := by
  intro e he
  have hout := (List.mem_filter.1 he).2
  simp only [Bool.not_eq_true', decide_eq_false_iff_not] at hout
  omega

theorem Dev.backInvalidate_same (d : Dev) (ma len : Nat) : d.sameButCells (d.backInvalidate ma len) := by
  have hemit := Dev.sameButCells_foldl (f := fun (d : Dev) (e : Nat × Bool) => d.emit (.backInvalidate (e.1 * 64))) (fun _ _ => rfl)
    (d.hp.held.filter (fun e => decide (ma / 64 ≤ e.1 ∧ e.1 * 64 < ma + len))) d
  exact Dev.sameButCells_trans hemit rfl

theorem Dev.backInvalidate_regs (d : Dev) (ma len : Nat) : (d.backInvalidate ma len).regs = d.regs :=
  foldl_keeps (fun e : Dev => e.regs = d.regs) (fun (d : Dev) (e : Nat × Bool) => d.emit (.backInvalidate (e.1 * 64))) (fun _ _ he => he) _ d rfl

/-- The host's answer to a snoop comes from no user but the line. -/
theorem Dev.lineBack_begun (d : Dev) (l : Nat) {u : MemUser} (hu : u ≠ .line) : (d.lineBack l).mem.begun u = d.mem.begun u := by
  have hfree : d.sameButCells d.takeFree.1 := rfl
  unfold Dev.lineBack
  dsimp only
  repeat' split
  · exact hfree.begun u
  · exact (Dev.sameButCells_trans hfree (Dev.reportUE_same ..)).begun u
  · exact hfree.begun u
  · have hline : (MemUser.line == u) = false := by simpa using hu.symm
    simp [Mem.begun, MemAcc.user, hline]
  · have hline : (MemUser.line == u) = false := by simpa using hu.symm
    simp [Mem.begun, MemAcc.user, hline]
  · exact (Dev.sameButCells_trans hfree (Dev.performWrite_same ..)).begun u

theorem Dev.snoopRead_begun (d : Dev) (ma len : Nat) {u : MemUser} (hu : u ≠ .line) : (d.snoopRead ma len).mem.begun u = d.mem.begun u :=
  foldl_keeps (fun e : Dev => e.mem.begun u = d.mem.begun u) (fun (d : Dev) l => (d.emit (.snoopData (64 * l))).lineBack l)
    (fun _ l he => (Dev.lineBack_begun _ l hu).trans he) _ _ rfl

theorem Dev.tryRead_begun (d : Dev) (errs : List SymErr) (ma len : Nat) {u : MemUser} (hu : u ≠ .line) :
    (d.tryRead errs ma len u).1.mem.begun u = d.mem.begun u := by
  have hsnoop : (if u = .host then d else d.snoopRead ma len).mem.begun u = d.mem.begun u := by
    split
    · rfl
    · exact d.snoopRead_begun ma len hu
  unfold Dev.tryRead
  dsimp only
  generalize (if u = .host then d else d.snoopRead ma len) = e at hsnoop ⊢
  split
  · exact hsnoop
  · exact ((Dev.performRead_same ..).begun u).trans hsnoop

/-- The host's copy of a line of a clean granule of a plot that is not lost changes cells alone. -/
theorem Dev.lineBack_same {d : Dev} {l : Nat} (hl : d.mem.isLost (plotAt (64 * l)) = false) (ho : d.mem.owed (granuleOf (64 * l)) = false) :
    d.sameButCells (d.lineBack l) := by
  have hfree : d.sameButCells d.takeFree.1 := rfl
  have hwrite := Dev.sameButCells_trans hfree
    (Dev.performWrite_same d.takeFree.1 [] (64 * l) ((List.range 64).map (Config.hostByte d.takeFree.2)) false)
  simp only [Dev.lineBack]
  split
  · exact hfree
  · rw [if_neg (by simp [hl]), if_neg (by simp [ho])]
    exact hwrite

theorem Dev.foldl_lineBack_same (ls : List Nat) {d : Dev}
    (h : ∀ l ∈ ls, d.mem.isLost (plotAt (64 * l)) = false ∧ d.mem.owed (granuleOf (64 * l)) = false) : d.sameButCells (ls.foldl Dev.lineBack d) := by
  induction ls generalizing d with
  | nil => exact d.sameButCells_refl
  | cons l ls ih =>
    obtain ⟨hl, ho⟩ := h l (List.mem_cons_self ..)
    have hsame := Dev.lineBack_same hl ho
    refine Dev.sameButCells_trans hsame (ih fun k hk => ?_)
    rw [hsame.isLost, hsame.owed]
    exact h k (List.mem_cons_of_mem l hk)

/-! ### A run of bytes within one granule -/

/-- The bytes of a run lie in one granule. -/
structure InGranule (g ma len : Nat) : Prop where
  first : ma / 65536 = g
  last : (ma + len - 1) / 65536 = g
  pos : 0 < len

section
variable {g ma len : Nat} (h : InGranule g ma len)
include h

theorem InGranule.granuleOf_eq : granuleOf ma = g := h.first
theorem InGranule.plotAt_eq : plotAt ma = g / 16384 := by
  have := h.first
  unfold plotAt
  omega
theorem InGranule.fits : ma % 65536 + len ≤ 65536 := by
  obtain ⟨hfirst, hlast, hpos⟩ := h
  omega

/-- Every line of the run lies in the granule. -/
theorem InGranule.line {l : Nat} (hl : ma / 64 ≤ l ∧ l * 64 < ma + len) : granuleOf (64 * l) = g ∧ plotAt (64 * l) = g / 16384 := by
  obtain ⟨hfirst, hlast, hpos⟩ := h
  unfold granuleOf plotAt
  omega

end

/-- A run that does not cross a multiple of n is one piece. -/
theorem cutAt_of_fits {n ma : Nat} {bs : Bytes} (hne : bs ≠ []) (hfit : ma % n + bs.length ≤ n) : cutAt n bs.length ma bs = [(ma, bs)] := by
  have hpos : 0 < bs.length := List.length_pos_of_ne_nil hne
  obtain ⟨f, hf⟩ : ∃ f, bs.length = f + 1 := ⟨bs.length - 1, by omega⟩
  have hrest : ∀ k a, cutAt n k a ([] : Bytes) = [] := by rintro (_ | k) a <;> rfl
  rw [hf, cutAt, if_neg (by simpa using hne)]
  dsimp only
  rw [List.take_of_length_le (by omega), List.drop_of_length_le (by omega), hrest]

/-- Before a write of a clean granule of a plot that is not lost the host's copies change cells alone. -/
theorem Dev.snoopWrite_same {d : Dev} {g ma len : Nat} (h : InGranule g ma len) (hl : d.mem.isLost (g / 16384) = false) (ho : d.mem.owed g = false) :
    d.sameButCells (d.snoopWrite ma len) := by
  have hback := d.backInvalidate_same ma len
  refine Dev.sameButCells_trans hback (Dev.foldl_lineBack_same _ fun l hm => ?_)
  obtain ⟨hg, hp⟩ := h.line (Dev.mem_heldLines hm)
  rw [hback.isLost, hback.owed, hg, hp]
  exact ⟨hl, ho⟩

/-! ### A write has its turn (R261, R267) -/

section
variable {d : Dev} {g ma : Nat} {bs : Bytes} (h : InGranule g ma bs.length) (errs : List SymErr) (p : Bool) (u : MemUser)
include h

theorem Dev.tryWrite_lost (hl : d.mem.isLost (g / 16384) = true) : d.tryWrite errs ma bs p u = (d.reportUE (stripeOf ma), some true) := by
  simp [Dev.tryWrite, h.plotAt_eq, hl]

/-- A write to an owed granule that nothing fills starts its fill. -/
theorem Dev.tryWrite_owed (hl : d.mem.isLost (g / 16384) = false) (ho : d.mem.owed g = true) (hf : g ∉ d.mem.filling) :
    d.tryWrite errs ma bs p u = ({ d with mem := { d.mem with filling := d.mem.filling ++ [g] } }, none) := by
  simp [Dev.tryWrite, h.plotAt_eq, h.granuleOf_eq, hl, ho, hf]

/-- A write to a clean granule is performed, and changes cells alone. -/
theorem Dev.tryWrite_clean (hl : d.mem.isLost (g / 16384) = false) (ho : d.mem.owed g = false) :
    ∃ e dropped, d.tryWrite errs ma bs p u = (e, some dropped) ∧ d.sameButCells e := by
  have hsnoop : d.sameButCells (if u = .host then d else d.snoopWrite ma bs.length) := by
    split
    · exact d.sameButCells_refl
    · exact Dev.snoopWrite_same h hl ho
  simp only [Dev.tryWrite, h.plotAt_eq, h.granuleOf_eq, hl, ho, Bool.false_eq_true, if_false]
  generalize (if u = .host then d else d.snoopWrite ma bs.length) = e at hsnoop ⊢
  exact ⟨_, _, rfl, Dev.sameButCells_trans hsnoop (e.performWrite_same errs ma bs p)⟩

end

/-- What a write gives its user changes results and outputs alone. -/
theorem Dev.writeDone_frame (d : Dev) (ma : Nat) (u : MemUser) (b : Bool) :
    d.writeDone ma u b = { d with outbox := (d.writeDone ma u b).outbox, mem := { d.mem with results := (d.writeDone ma u b).mem.results } } := by
  unfold Dev.writeDone
  repeat' split
  all_goals rfl

/-! ### Accesses that arrive, and those that wait -/

theorem Dev.blocked_eq_false_iff (d : Dev) (ma len : Nat) :
    d.blocked ma len = false ↔ d.stalled = false ∧ d.mem.owesIn ma len = 0 ∧ d.mem.behind ma len = false := by
  simp [Dev.blocked, and_assoc]

theorem Dev.arrive_blocked {d : Dev} {a : MemAcc} (errs : List SymErr) (h : d.blocked a.place.1 a.place.2.1 = true) :
    d.arrive errs a = d.accWaits a := if_pos h

theorem Dev.arrive_served {d e : Dev} {errs : List SymErr} {a : MemAcc} (h : d.blocked a.place.1 a.place.2.1 = false)
    (hs : d.serveAcc errs a = (e, true)) : d.arrive errs a = e := by
  simp [Dev.arrive, h, hs]

theorem Dev.arrive_unserved {d e : Dev} {errs : List SymErr} {a : MemAcc} (h : d.blocked a.place.1 a.place.2.1 = false)
    (hs : d.serveAcc errs a = (e, false)) : d.arrive errs a = e.accWaits a := by
  simp [Dev.arrive, h, hs]

theorem Dev.serveAcc_read {d e : Dev} {errs : List SymErr} {ma len l : Nat} {u : MemUser} {r : RdRes}
    (h : d.tryRead errs ma len u = (e, r)) (hr : r ≠ .wait) : d.serveAcc errs (.read ma len u l) = (e.readDone ma u r, true) := by
  cases r <;> simp_all [Dev.serveAcc]

theorem Dev.readArrives_served {d e : Dev} {errs : List SymErr} {ma len : Nat} {u : MemUser} {r : RdRes} (hb : d.blocked ma len = false)
    (h : d.tryRead errs ma len u = (e, r)) (hr : r ≠ .wait) : d.readArrives errs ma len u = e.readDone ma u r :=
  Dev.arrive_served hb (Dev.serveAcc_read h hr)

theorem Dev.readArrives_blocked {d : Dev} {ma len : Nat} (errs : List SymErr) (u : MemUser) (hb : d.blocked ma len = true) :
    d.readArrives errs ma len u = d.accWaits (.read ma len u (d.mem.owesIn ma len)) := Dev.arrive_blocked errs hb

/-- A read of which the host holds no line, and which nothing holds up, is performed as it has its turn. -/
theorem Dev.tryRead_unblocked {d : Dev} {ma len : Nat} (errs : List SymErr) (u : MemUser) (hh : d.heldLines ma len = []) (hb : d.blocked ma len = false) :
    d.tryRead errs ma len u = d.performRead errs ma len := by
  obtain ⟨_, _, hbehind⟩ := (d.blocked_eq_false_iff ma len).1 hb
  simp [Dev.tryRead, Dev.snoopRead_of_held_nil hh, hbehind]

theorem Dev.writeArrives_granule {d : Dev} {g ma : Nat} {bs : Bytes} (h : InGranule g ma bs.length) (errs : List SymErr) (p : Bool) (u : MemUser) :
    d.writeArrives errs ma bs p u = d.arrive errs (.write ma bs p u (d.mem.owesIn ma bs.length)) := by
  rw [Dev.writeArrives, cutAt_of_fits (List.ne_nil_of_length_pos h.pos) h.fits]
  rfl

/-- The block as the accesses that wait are taken out to have their turns. -/
def Dev.noneWaits (d : Dev) : Dev := { d with mem := { d.mem with waiting := [] } }

/-- The turn of one access. -/
def Dev.giveTurn (d : Dev) (a : MemAcc) : Dev :=
  if d.mem.mustWait a then d.accWaits a
  else
    match d.serveAcc [] a with
    | (d, true) => d
    | (d, false) => d.accWaits a

theorem Dev.runWaiting_eq (d : Dev) : d.runWaiting = if d.stalled then d else d.mem.waiting.foldl Dev.giveTurn d.noneWaits := rfl

theorem Dev.noneWaits_of_nil {d : Dev} (h : d.mem.waiting = []) : d.noneWaits = d := by rw [Dev.noneWaits, ← h]

/-- Without waiting accesses no turn is given. -/
theorem Dev.runWaiting_nil {d : Dev} (h : d.mem.waiting = []) : d.runWaiting = d := by
  rw [Dev.runWaiting_eq, h, List.foldl_nil, Dev.noneWaits_of_nil h, ite_self]

/-- The one write that waits has its turn when no fill and no owe holds it up. -/
theorem Dev.runWaiting_write {d e : Dev} {ma : Nat} {bs : Bytes} {p b : Bool} {u : MemUser} (hstall : d.stalled = false)
    (hw : d.mem.waiting = [.write ma bs p u 0]) (hf : d.mem.filling = []) (ht : d.noneWaits.tryWrite [] ma bs p u = (e, some b)) :
    d.runWaiting = e.writeDone ma u b := by
  have hturn : d.noneWaits.mem.mustWait (.write ma bs p u 0) = false := by
    simp [Mem.mustWait, MemAcc.place, Mem.behind, Dev.noneWaits, hf]
  rw [Dev.runWaiting_eq, hw, List.foldl_cons, List.foldl_nil, if_neg (by simp [hstall]), Dev.giveTurn, if_neg (by simp [hturn])]
  simp only [Dev.serveAcc, ht]

/-! ### A read of a user -/

theorem Mem.begun_eq_false_iff (m : Mem) (u : MemUser) :
    m.begun u = false ↔ m.results.any (fun e => e.1 == u) = false ∧ m.waiting.any (fun a => a.user == u) = false := by
  simp [Mem.begun]

theorem Dev.readDone_user (d : Dev) (ma : Nat) {u : MemUser} (r : RdRes) (hhost : u ≠ .host) (hport : u ≠ .port) (hjtag : u ≠ .jtag) :
    d.readDone ma u r = d.tell u r := by
  cases u with
  | host => exact absurd rfl hhost
  | port => exact absurd rfl hport
  | jtag => exact absurd rfl hjtag
  | line | xfer | start | exec | frame | post => rfl

/-- A user that has been told its result finds it. -/
theorem Mem.resultOf_tell {d : Dev} {u : MemUser} (r : RdRes) (h : d.mem.begun u = false) : (d.tell u r).mem.resultOf u = r := by
  obtain ⟨_, hw⟩ := (d.mem.begun_eq_false_iff u).1 h
  have hfind : (d.mem.results.filter (fun e => e.1 != u)).find? (fun e => e.1 == u) = none := by
    simp only [List.find?_eq_none, List.mem_filter]
    rintro x ⟨_, hx⟩
    simpa using hx
  simp [Mem.resultOf, Dev.tell, hw, List.find?_append, hfind]

/-- Taking the result that was told leaves the block as it was before. -/
theorem Dev.taken_tell {d : Dev} {u : MemUser} (r : RdRes) (h : d.mem.begun u = false) : (d.tell u r).taken u = d := by
  obtain ⟨hres, _⟩ := (d.mem.begun_eq_false_iff u).1 h
  have hfilter : d.mem.results.filter (fun e => e.1 != u) = d.mem.results := by
    rw [List.filter_eq_self]
    intro x hx
    simpa using (List.any_eq_false.1 hres) x hx
  simp [Dev.taken, Dev.tell, List.filter_append, hfilter]

/-- A read that nothing holds up gives its user what it reads. -/
theorem Dev.memRead_served {d e : Dev} {u : MemUser} {ma len : Nat} {r : RdRes} (hbegun : d.mem.begun u = false) (hhost : u ≠ .host)
    (hport : u ≠ .port) (hjtag : u ≠ .jtag) (hline : u ≠ .line) (hb : d.blocked ma len = false) (ht : d.tryRead [] ma len u = (e, r))
    (hr : r ≠ .wait) : d.memRead u ma len = (e, r) := by
  have hissue : d.issueRead u ma len = e.tell u r := by
    rw [Dev.issueRead, if_neg (by simp [hbegun]), Dev.readArrives_served hb ht hr, e.readDone_user ma r hhost hport hjtag]
  have he : e.mem.begun u = false := by
    have := d.tryRead_begun [] ma len hline
    rwa [ht, hbegun] at this
  have hres := Mem.resultOf_tell r he
  have htaken := Dev.taken_tell r he
  cases r with
  | wait => contradiction
  | bad => simp only [Dev.memRead, hissue, hres, htaken]
  | ok bs => simp only [Dev.memRead, hissue, hres, htaken]

theorem Dev.issueRead_blocked {d : Dev} {u : MemUser} {ma len : Nat} (hbegun : d.mem.begun u = false) (hb : d.blocked ma len = true) :
    d.issueRead u ma len = d.accWaits (.read ma len u (d.mem.owesIn ma len)) := by
  rw [Dev.issueRead, if_neg (by simp [hbegun]), Dev.readArrives_blocked [] u hb]

/-- A read that something holds up waits. -/
theorem Dev.memRead_blocked {d : Dev} {u : MemUser} {ma len : Nat} (hbegun : d.mem.begun u = false) (hb : d.blocked ma len = true) :
    d.memRead u ma len = (d.issueRead u ma len, .wait) := by
  have hwait : (d.issueRead u ma len).mem.resultOf u = .wait := by
    simp [Dev.issueRead_blocked hbegun hb, Dev.accWaits, Mem.resultOf, MemAcc.user]
  simp only [Dev.memRead, hwait]

end Sys2Proof.Machine
end

section
/-! SUPPORT and PROOF. Owed granules (O23): what MEMORY_READ, MEMORY_WRITE and FILL_COMPLETE end with, and the phases of the owe of a
plot; then the statement from them. -/

namespace Sys2Proof.Machine

/-! ### How a command over the block ends -/

theorem ends_of_onDev {i : Instr} {s : State} {f : Dev → Dev} {d : Dev} (hexec : exec i s = onDev s f) (hd : f s.dev = d) : Ends i s d := by
  rw [Ends, hexec, onDev_eq, hd]

theorem exec_memoryRead (ma len : Nat) (errs : List SymErr) (s : State) : exec (.memoryRead ma len errs) s = execMemoryRead ma len errs s := rfl
theorem exec_memoryWrite (ma : Nat) (bs : Bytes) (errs : List SymErr) (s : State) : exec (.memoryWrite ma bs errs) s = execMemoryWrite ma bs errs s := rfl
theorem exec_fillComplete (g : Nat) (s : State) : exec (.fillComplete g) s = execFillComplete g s := rfl
theorem exec_oweDrainEnd (plot : Nat) (s : State) : exec (.oweDrainEnd plot) s = execOweDrainEnd plot s := rfl
theorem exec_oweBackInvalidateEnd (plot : Nat) (wb : List LineWb) (s : State) :
    exec (.oweBackInvalidateEnd plot wb) s = execOweBackInvalidateEnd plot wb s := rfl
theorem exec_oweSetEnd (plot : Nat) (s : State) : exec (.oweSetEnd plot) s = execOweSetEnd plot s := rfl

/-! ### MEMORY_READ (R231, R243, R260, R262, R267) -/

section
variable {s : State} {ma len : Nat} (errs : List SymErr)

theorem memoryRead_ends (hex : s.dev.maExists ma len = true) : Ends (.memoryRead ma len errs) s (s.dev.readArrives errs ma len .port) :=
  ends_of_onDev (exec_memoryRead ma len errs s) (if_pos hex)

theorem memoryRead_owed (hex : s.dev.maExists ma len = true) (hheld : s.dev.heldLines ma len = []) (hb : s.dev.blocked ma len = false)
    (h : ∀ k, k < len → s.dev.mem.owed ((ma + k) / 65536) = true ∧ s.dev.mem.isLost (plotAt (ma + k)) = false) :
    Ends (.memoryRead ma len errs) s (s.dev.emit (.memData ma (some (List.replicate len 0)))) := by
  have hread : s.dev.tryRead errs ma len .port = (s.dev, .ok (List.replicate len 0)) :=
    (Dev.tryRead_unblocked errs .port hheld hb).trans (Dev.performRead_of_owed errs h)
  have hend := memoryRead_ends errs hex
  rwa [Dev.readArrives_served hb hread (by simp)] at hend

theorem memoryRead_lost (hex : s.dev.maExists ma len = true) (hheld : s.dev.heldLines ma len = []) (hb : s.dev.blocked ma len = false)
    (hlen : 0 < len) (h : ∀ k, k < len → s.dev.mem.isLost (plotAt (ma + k)) = true) :
    Ends (.memoryRead ma len errs) s (((stripesOf ma len).foldl Dev.reportUE s.dev).emit (.memData ma none)) := by
  have hread := (Dev.tryRead_unblocked errs .port hheld hb).trans (Dev.performRead_of_lost errs hlen h)
  have hend := memoryRead_ends errs hex
  rwa [Dev.readArrives_served hb hread (by simp)] at hend

theorem memoryRead_waits (hex : s.dev.maExists ma len = true) (hb : s.dev.blocked ma len = true) :
    Ends (.memoryRead ma len errs) s (s.dev.accWaits (.read ma len .port (s.dev.mem.owesIn ma len))) := by
  have hend := memoryRead_ends errs hex
  rwa [Dev.readArrives_blocked errs .port hb] at hend

end

/-! ### MEMORY_WRITE to an owed granule and FILL_COMPLETE (R261, R262, R267) -/

theorem inGranule_of {g ma : Nat} {bs : Bytes} (hne : bs ≠ []) (hfirst : ma / 65536 = g) (hlast : (ma + bs.length - 1) / 65536 = g) :
    InGranule g ma bs.length := ⟨hfirst, hlast, List.length_pos_of_ne_nil hne⟩

/-- A write that nothing holds up meets no fill of its granule. -/
theorem Dev.not_mem_filling {d : Dev} {g ma len : Nat} (h : InGranule g ma len) (hb : d.blocked ma len = false) : g ∉ d.mem.filling := by
  obtain ⟨_, _, hbehind⟩ := (d.blocked_eq_false_iff ma len).1 hb
  obtain ⟨hfill, _⟩ := Bool.or_eq_false_iff.1 hbehind
  intro hg
  obtain ⟨hfirst, _, hpos⟩ := h
  have hout : ¬ (granuleOf ma ≤ g ∧ g * 65536 < ma + len) := mt decide_eq_true (List.any_eq_false.1 hfill g hg)
  unfold granuleOf at hout
  omega

theorem memoryWrite_owed {s : State} {g ma : Nat} {bs : Bytes} (errs : List SymErr) (h : InGranule g ma bs.length)
    (hex : s.dev.maExists ma bs.length = true) (hb : s.dev.blocked ma bs.length = false) (hl : s.dev.mem.isLost (plotAt ma) = false)
    (ho : s.dev.mem.owed g = true) :
    Ends (.memoryWrite ma bs errs) s { s.dev with mem := { s.dev.mem with
      filling := s.dev.mem.filling ++ [g], waiting := s.dev.mem.waiting ++ [.write ma bs false .port 0] } } := by
  obtain ⟨_, howes, _⟩ := (s.dev.blocked_eq_false_iff ma bs.length).1 hb
  have htry := Dev.tryWrite_owed h errs false .port (h.plotAt_eq ▸ hl) ho (Dev.not_mem_filling h hb)
  have hserve : s.dev.serveAcc errs (.write ma bs false .port 0) =
      ({ s.dev with mem := { s.dev.mem with filling := s.dev.mem.filling ++ [g] } }, false) := by
    simp only [Dev.serveAcc, htry]
  refine ends_of_onDev (exec_memoryWrite ma bs errs s) ((if_pos hex).trans ?_)
  rw [Dev.writeArrives_granule h, howes, Dev.arrive_unserved hb hserve]
  rfl

/-- The fill of a granule is over. -/
def Mem.fillOver (m : Mem) (g : Nat) : Mem := { m with filling := m.filling.filter (· != g) }

/-- The block as the fill of a granule ends, before the accesses that waited go on: zeros are written unless the plot is lost. -/
def Dev.fillEnds (d : Dev) (g : Nat) : Dev :=
  if d.mem.isLost (g / 16384) then { d with mem := d.mem.fillOver g } else { d with mem := (d.mem.fillOver g).zeroGranule g }

theorem fillComplete_runs {s : State} {g : Nat} (hstall : s.dev.stalled = false) (hf : s.dev.mem.filling.contains g = true) :
    Ends (.fillComplete g) s (s.dev.fillEnds g).runWaiting :=
  ends_of_onDev (exec_fillComplete g s) (if_neg (by simp only [hstall, hf, Bool.not_true, Bool.or_self, Bool.false_eq_true, not_false_eq_true]))

theorem Dev.fillEnds_lost {d : Dev} {g : Nat} (h : d.mem.isLost (g / 16384) = true) : d.fillEnds g = { d with mem := d.mem.fillOver g } := if_pos h

theorem Dev.fillEnds_kept {d : Dev} {g : Nat} (h : d.mem.isLost (g / 16384) = false) :
    d.fillEnds g = { d with mem := (d.mem.fillOver g).zeroGranule g } := if_neg (by simp [h])

theorem Mem.owed_zeroGranule (m : Mem) (g h : Nat) : (m.zeroGranule g).owed h = if h = g then false else m.owed h := by
  simp only [Mem.owed, Mem.zeroGranule, Tab.get_set]
  split <;> rfl

theorem Mem.fillOver_filling (m : Mem) (g : Nat) : (m.fillOver g).filling.contains g = false := by
  simp [Mem.fillOver]

theorem Mem.fillOver_filling_single {m : Mem} {g : Nat} (h : m.filling = [g]) : (m.fillOver g).filling = [] := by
  simp [Mem.fillOver, h]

/-- A fill in a plot that was lost meanwhile: the write that waited for it is dropped and its user told. -/
theorem fillComplete_drops {s : State} {g ma p id : Nat} {bs : Bytes} (h : InGranule g ma bs.length) (hstall : s.dev.stalled = false)
    (hf : s.dev.mem.filling = [g]) (hl : s.dev.mem.isLost (g / 16384) = true) (hw : s.dev.mem.waiting = [.write ma bs false (.xfer p id) 0]) :
    EndsIn (.fillComplete g) s (fun r => r.mem.waiting = [] ∧ (MemUser.xfer p id, RdRes.bad) ∈ r.mem.results ∧ r.mem.raw = s.dev.mem.raw) := by
  have hdrop := Dev.runWaiting_write (d := { s.dev with mem := s.dev.mem.fillOver g }) hstall hw (Mem.fillOver_filling_single hf)
    (Dev.tryWrite_lost (d := Dev.noneWaits { s.dev with mem := s.dev.mem.fillOver g }) h [] false (.xfer p id) hl)
  have hend := fillComplete_runs (g := g) hstall (by simp [hf])
  rw [Dev.fillEnds_lost hl, hdrop] at hend
  refine ⟨_, hend, ?_⟩
  simp [Dev.writeDone, Dev.tell, Dev.noneWaits, Mem.fillOver]

/-- A fill that no access waited for. -/
theorem fillComplete_ends {s : State} {g : Nat} (hstall : s.dev.stalled = false) (hf : s.dev.mem.filling.contains g = true)
    (hl : s.dev.mem.isLost (g / 16384) = false) (hw : s.dev.mem.waiting = []) :
    Ends (.fillComplete g) s { s.dev with mem := (s.dev.mem.fillOver g).zeroGranule g } := by
  have hend := fillComplete_runs hstall hf
  rwa [Dev.fillEnds_kept hl, Dev.runWaiting_nil (d := { s.dev with mem := (s.dev.mem.fillOver g).zeroGranule g }) hw] at hend

/-- A fill that one write waited for: the write is performed. -/
theorem fillComplete_serves {s : State} {g ma : Nat} {bs : Bytes} {u : MemUser} (h : InGranule g ma bs.length) (hstall : s.dev.stalled = false)
    (hf : s.dev.mem.filling = [g]) (hl : s.dev.mem.isLost (g / 16384) = false) (hw : s.dev.mem.waiting = [.write ma bs false u 0]) :
    EndsIn (.fillComplete g) s (fun r => r.mem.owed g = false ∧ r.mem.filling = [] ∧ r.mem.waiting = [] ∧ r.mem.owing = s.dev.mem.owing) := by
  let d : Dev := { s.dev with mem := (s.dev.mem.fillOver g).zeroGranule g }
  have ho : d.noneWaits.mem.owed g = false := (Mem.owed_zeroGranule (s.dev.mem.fillOver g) g g).trans (if_pos rfl)
  obtain ⟨e, dropped, htry, hsame⟩ := Dev.tryWrite_clean (d := d.noneWaits) h [] false u hl ho
  have hserve := Dev.runWaiting_write (d := d) hstall hw (Mem.fillOver_filling_single hf) htry
  have hend := fillComplete_runs (g := g) hstall (by simp [hf])
  rw [Dev.fillEnds_kept hl, hserve, e.writeDone_frame] at hend
  exact ⟨_, hend, (hsame.owed g).trans ho, hsame.filling.trans (Mem.fillOver_filling_single hf), hsame.waiting, hsame.owing⟩

/-! ### The phases of owing a plot (Table 5-4, R245, R264, R267) -/

theorem oweDrainEnd_ends {s : State} {plot : Nat} (hphase : s.dev.mem.oweOf plot = some .drain)
    (hfill : ∀ g ∈ s.dev.mem.filling, g / 16384 ≠ plot)
    (hwait : ∀ a ∈ s.dev.mem.waiting, a.place.2.2 = 0 → a.meets (plot * 2 ^ 30) (2 ^ 30) = false) :
    Ends (.oweDrainEnd plot) s { s.dev with mem := s.dev.mem.owePhase plot .backInv } := by
  have hfill' : s.dev.mem.filling.any (fun g => g / 16384 == plot) = false := by simpa using hfill
  have hwait' : s.dev.mem.waiting.any (fun a => a.place.2.2 == 0 && a.meets (plot * 2 ^ 30) (2 ^ 30)) = false := by simpa using hwait
  refine ends_of_onDev (exec_oweDrainEnd plot s) ?_
  simp only [hphase, hfill', hwait', beq_self_eq_true, Bool.not_false, Bool.and_self, if_true]

/-- A line that the host writes back in the back-invalidate phase of an owe. -/
def Dev.landLine (plot : Nat) (d : Dev) (w : LineWb) : Dev :=
  if plotAt w.ma ≠ plot then d
  else if d.mem.isLost plot then d.reportUE (stripeOf w.ma)
  else if d.mem.owed (granuleOf w.ma) then d
  else (d.performWrite [] w.ma w.data false).1

theorem Dev.landLine_clean {d : Dev} {plot : Nat} {w : LineWb} (hw : plotAt w.ma = plot) (hl : d.mem.isLost plot = false)
    (ho : d.mem.owed (granuleOf w.ma) = false) : d.landLine plot w = (d.performWrite [] w.ma w.data false).1 := by
  rw [Dev.landLine, if_neg (by simp [hw]), if_neg (by simp [hl]), if_neg (by simp [ho])]

/-- The host's copies of a plot are gone, and its owe goes on to the set phase. -/
def Dev.invalidated (d : Dev) (plot : Nat) : Dev :=
  let d := d.backInvalidate (plot * 2 ^ 30) (2 ^ 30)
  { d with mem := d.mem.owePhase plot .set }

theorem oweBackInvalidateEnd_ends {s : State} {plot : Nat} (wb : List LineWb) (hphase : s.dev.mem.oweOf plot = some .backInv) :
    Ends (.oweBackInvalidateEnd plot wb) s ((wb.foldl (Dev.landLine plot) s.dev).invalidated plot) := by
  exact ends_of_onDev (exec_oweBackInvalidateEnd plot wb s) (if_neg (by simp [hphase]))

theorem Dev.invalidated_mem (d : Dev) (plot : Nat) : (d.invalidated plot).mem = d.mem.owePhase plot .set :=
  congrArg (fun m : Mem => m.owePhase plot .set) (d.backInvalidate_mem ..)

theorem Dev.invalidated_pavs (d : Dev) (plot : Nat) : (d.invalidated plot).pavs = d.pavs := (d.backInvalidate_same ..).pavs

theorem Dev.invalidated_regs (d : Dev) (plot : Nat) : (d.invalidated plot).regs = d.regs := d.backInvalidate_regs ..

theorem Dev.invalidated_gone (d : Dev) (plot : Nat) :
    ∀ e ∈ (d.invalidated plot).hp.held, e.1 * 64 < plot * 2 ^ 30 ∨ (plot + 1) * 2 ^ 30 ≤ e.1 * 64 := by
  intro e he
  have := d.backInvalidate_gone (plot * 2 ^ 30) (2 ^ 30) e he
  omega

/-- Memory with every granule of a plot owed and its owe ended, before the accesses that waited go on. -/
def Mem.oweSet (m : Mem) (plot : Nat) : Mem :=
  { m.oweEnds plot with
    clean := m.clean.clearRange (16384 * plot) (16384 * plot + 16384)
    poison := m.poison.clearRange (2097152 * plot) (2097152 * plot + 2097152)
    lost := Tab.set false m.lost plot false
    waiting := m.waiting.map (fun a => if a.meets (plot * 2 ^ 30) (2 ^ 30) then a.onTime else a) }

theorem oweSetEnd_ends {s : State} {plot : Nat} (hphase : s.dev.mem.oweOf plot = some .set) (hw : s.dev.mem.waiting = []) :
    Ends (.oweSetEnd plot) s { s.dev with mem := s.dev.mem.oweSet plot } := by
  have hnone : (s.dev.mem.oweSet plot).waiting = [] := by simp [Mem.oweSet, hw]
  have hrun := Dev.runWaiting_nil (d := { s.dev with mem := s.dev.mem.oweSet plot }) hnone
  exact ends_of_onDev (exec_oweSetEnd plot s) ((if_neg (by simp [hphase])).trans hrun)

section
variable (m : Mem) (plot : Nat)

theorem Mem.owed_oweSet (g : Nat) : (m.oweSet plot).owed g = (decide (16384 * plot ≤ g ∧ g < 16384 * plot + 16384) || m.owed g) := by
  simp only [Mem.owed, Mem.oweSet, Tab.get_clearRange]
  split <;> simp_all

theorem Mem.isPoison_oweSet {i : Nat} (hi : i < 2097152) : (m.oweSet plot).isPoison (2097152 * plot + i) = false := by
  simp only [Mem.isPoison, Mem.oweSet, Tab.get_clearRange]
  rw [if_pos (by omega)]

theorem Mem.isLost_oweSet : (m.oweSet plot).isLost plot = false := Tab.get_set_self false m.lost plot false

end

/-- A list in which at most one element passes a test has none left once that one is erased. -/
theorem any_eraseP_of_filter_le_one {α : Type} {t : α → Bool} {l : List α} (h : (l.filter t).length ≤ 1) : (l.eraseP t).any t = false := by
  induction l with
  | nil => rfl
  | cons e l ih =>
    by_cases he : t e = true
    · rw [List.filter_cons_of_pos he, List.length_cons] at h
      have hnil : l.filter t = [] := List.length_eq_zero_iff.1 (by omega)
      rw [List.eraseP_cons_of_pos he, List.any_eq_false]
      exact List.filter_eq_nil_iff.1 hnil
    · rw [List.filter_cons_of_neg he] at h
      rw [List.eraseP_cons_of_neg he, List.any_cons, ih h, Bool.or_false]
      exact Bool.eq_false_of_not_eq_true he

/-- The owe that has ended was the only one of its plot. -/
theorem Mem.isOwing_oweEnds {m : Mem} {plot : Nat} (h : (m.owing.filter (fun e => e.1 == plot)).length = 1) : (m.oweEnds plot).isOwing plot = false :=
  any_eraseP_of_filter_le_one h.le

/-! ### The statement -/

/-- Settles O23: reads, writes and fills of owed granules, then the phases of an owe. -/
theorem owedGranules : Obligations.OwedGranules := by
  refine ⟨fun s g ma len errs bs => ⟨Dev.performRead_of_owed errs, ?readLost, ?read, ?user, ?write, ?dropped, ?filled⟩,
    fun s plot w => ⟨oweDrainEnd_ends, ?backInvalidate, ?set⟩⟩
  case readLost =>
    intro h hlen
    rw [Dev.performRead_of_lost errs hlen h]
  case read =>
    intro hex hheld
    refine ⟨memoryRead_owed errs hex hheld, fun hb hlen h => ?_, memoryRead_waits errs hex⟩
    refine ⟨_, memoryRead_lost errs hex hheld hb hlen h, ?_, s.dev.foldl_reportUE_mem _, s.dev.foldl_reportUE_evt (stripesOf_ne_nil ma hlen)⟩
    rw [Dev.emit_outbox, Dev.foldl_reportUE_outbox]
  case user =>
    intro u e r hbegun hhost hport hjtag hline
    refine ⟨Dev.memRead_served hbegun hhost hport hjtag hline, fun hb => ⟨Dev.memRead_blocked hbegun hb, ?_⟩⟩
    rw [Dev.issueRead_blocked hbegun hb]
    rfl
  case write =>
    intro hne hfirst hlast hex _ hb hl ho
    exact ⟨_, memoryWrite_owed errs (inGranule_of hne hfirst hlast) hex hb hl ho, rfl, rfl, rfl⟩
  case dropped =>
    intro hstall hf hne hfirst hlast hl p id hw
    exact fillComplete_drops (inGranule_of hne hfirst hlast) hstall hf hl hw
  case filled =>
    intro hstall hf hl
    refine ⟨fun hw => ⟨_, fillComplete_ends hstall hf hl hw, ?_, s.dev.mem.fillOver_filling g, fun h hne => ?_, rfl, rfl⟩,
      fun u hw hne hfirst hlast hf => fillComplete_serves (inGranule_of hne hfirst hlast) hstall hf hl hw⟩
    · exact (Mem.owed_zeroGranule ..).trans (if_pos rfl)
    · exact (Mem.owed_zeroGranule ..).trans (if_neg hne)
  case backInvalidate =>
    intro hphase
    refine ⟨⟨_, oweBackInvalidateEnd_ends [] hphase, Dev.invalidated_mem .., Dev.invalidated_gone _ plot, Dev.invalidated_regs .., Dev.invalidated_pavs ..⟩,
      fun hw hl ho => ?_⟩
    have hend := oweBackInvalidateEnd_ends [w] hphase
    rw [List.foldl_cons, List.foldl_nil, Dev.landLine_clean hw hl ho] at hend
    exact ⟨_, hend, Dev.invalidated_mem .., Dev.invalidated_gone _ plot, (Dev.invalidated_pavs ..).trans (Dev.performWrite_same ..).pavs⟩
  case set =>
    intro hphase hw
    refine ⟨_, oweSetEnd_ends hphase hw, fun i hi => ?_, fun i hi => Mem.isPoison_oweSet _ plot hi, Mem.isLost_oweSet .., rfl,
      Mem.isOwing_oweEnds, rfl, fun g hg => ?_, rfl, rfl⟩
    · rw [Mem.owed_oweSet, decide_eq_true (by omega), Bool.true_or]
    · rw [Mem.owed_oweSet, decide_eq_false (by omega), Bool.false_or]

end Sys2Proof.Machine
end

section
/-! SUPPORT and PROOF. The controller's own work (O24): packages and the counts of corrected symbols, what each of its commands ends with,
retirement and the window of corrections; then the statement from them. -/

namespace Sys2Proof.Machine

/-! ### Packages -/

theorem Mem.pkg_setPkg (m : Mem) (k j : Nat) (x : Pkg) : (m.setPkg k x).pkg j = if j = k then x else m.pkg j := Tab.get_set ..

theorem Dev.setMem_regs (d : Dev) (m : Mem) : (d.setMem m).regs = d.regs := by
  unfold Dev.setMem; dsimp only; split <;> rfl

theorem Dev.setMem_outbox (d : Dev) (m : Mem) : (d.setMem m).outbox = d.outbox := by
  unfold Dev.setMem; dsimp only; split <;> rfl

/-- Counting corrected symbols changes the packages' windows alone. -/
theorem Dev.pkg_countFixed (d : Dev) (s : Nat) (fixed : List Nat) (j : Nat) :
    ∃ w, (d.countFixed s fixed).mem.pkg j = { d.mem.pkg j with window := w } := by
  rw [Dev.countFixed_eq]
  split
  · exact ⟨_, rfl⟩
  · refine foldl_keeps (fun e : Dev => ∃ w, e.mem.pkg j = { d.mem.pkg j with window := w }) _ (fun e k ⟨w, he⟩ => ?_) _ _
      ⟨_, congrArg (fun m : Mem => m.pkg j) (d.raise_mem _)⟩
    have hpkg : (Dev.countSymbol s e k).mem.pkg j = if j = k then { e.mem.pkg k with window := (e.mem.pkg k).window + 1 } else e.mem.pkg j :=
      Mem.pkg_setPkg ..
    by_cases hj : j = k
    · subst hj
      exact ⟨(e.mem.pkg j).window + 1, by rw [hpkg, if_pos rfl, he]⟩
    · exact ⟨w, by rw [hpkg, if_neg hj, he]⟩

/-- What an encoding stores depends on the contents and on the packages' states alone. -/
theorem Mem.encode_raw_congr {m n : Mem} (hraw : n.raw = m.raw) (hst : ∀ k, (n.pkg k).st = (m.pkg k).st) (s : Nat) (data : Bytes) :
    (n.encode s data).raw = (m.encode s data).raw := by
  simp only [Mem.encode, hraw, hst]

/-! ### The clearer and the scrubber (R248, R249, R263) -/

theorem exec_clearerGranule (s : State) : exec .clearerGranule s = execClearerGranule s := rfl
theorem exec_scrubStripe (errs : List SymErr) (s : State) : exec (.scrubStripe errs) s = execScrubStripe errs s := rfl

/-- The granule that the clearer would zero first, from a cursor. -/
def Dev.owedFrom (d : Dev) : Nat → Option Nat :=
  d.mem.nextOwed (d.nplots * 16384) (d.mem.clean.length + d.mem.filling.length + d.mem.lost.length + d.mem.owing.length + 1)

theorem clearerGranule_ends {s : State} {g : Nat} (hstall : s.dev.stalled = false)
    (hnext : s.dev.owedFrom s.dev.mem.clearCursor = some g ∨ s.dev.owedFrom s.dev.mem.clearCursor = none ∧ s.dev.owedFrom 0 = some g) :
    Ends .clearerGranule s { s.dev with mem := { s.dev.mem.zeroGranule g with clearCursor := g + 1 } } := by
  unfold Dev.owedFrom at hnext
  refine ends_of_onDev (exec_clearerGranule s) ((if_neg (by simp [hstall])).trans ?_)
  obtain hat | ⟨hend, hwrap⟩ := hnext
  · simp only [hat]
  · simp only [hend, hwrap]

/-- The scrubber's position once it has read a stripe. -/
def Dev.scrubMoved (d : Dev) (t : Nat) : Dev :=
  d.setReg Reg.MEM_SCRUB_POS (BitVec.ofNat 32 (if t + 1 < d.nplots * 2097152 then t + 1 else 0))

section
variable {s : State} {errs : List SymErr} {t : Nat} (hen : s.dev.fld Reg.MEM_CTRL F.MEM_CTRL_SCRUB_EN = 1)
  (hnext : s.dev.mem.nextScrub (s.dev.reg Reg.MEM_SCRUB_POS).toNat = some t ∨
    s.dev.mem.nextScrub (s.dev.reg Reg.MEM_SCRUB_POS).toNat = none ∧ s.dev.mem.nextScrub 0 = some t)
  (hstall : s.dev.stalled = false) (howe : s.dev.mem.isOwing (plotAt (512 * t)) = false)
include hen hnext hstall howe

theorem scrubStripe_ends : Ends (.scrubStripe errs) s (match s.dev.mem.decode errs t with
    | some (data, fixed) =>
      let d1 := (s.dev.scrubMoved t).countFixed t fixed
      if fixed.isEmpty then d1 else { d1 with mem := d1.mem.encode t data }
    | none => (s.dev.scrubMoved t).reportUE t) := by
  refine ends_of_onDev (exec_scrubStripe errs s) ((if_neg (by simp [hen])).trans ?_)
  obtain hat | ⟨hend, hwrap⟩ := hnext
  · simp only [hat, hstall, howe, Bool.or_self, Bool.false_eq_true, if_false]
    rfl
  · simp only [hend, hwrap, hstall, howe, Bool.or_self, Bool.false_eq_true, if_false]
    rfl

theorem scrubStripe_decodes {data : Bytes} {fixed : List Nat} (hdec : s.dev.mem.decode errs t = some (data, fixed)) :
    Ends (.scrubStripe errs) s (let d1 := (s.dev.scrubMoved t).countFixed t fixed
      if fixed = [] then d1 else { d1 with mem := d1.mem.encode t data }) := by
  have hend := scrubStripe_ends (errs := errs) hen hnext hstall howe
  simpa only [hdec, List.isEmpty_iff] using hend

theorem scrubStripe_reports (hdec : s.dev.mem.decode errs t = none) : Ends (.scrubStripe errs) s ((s.dev.scrubMoved t).reportUE t) := by
  have hend := scrubStripe_ends (errs := errs) hen hnext hstall howe
  simpa only [hdec] using hend

end

/-! ### Failure, training and rebuild of a package (R254 to R257) -/

theorem exec_packageFailure (k : Fin 20) (s : State) : exec (.packageFailure k) s = execPackageFailure k s := rfl
theorem exec_packageRetrainRetry (k : Fin 20) (b : Bool) (s : State) :
    exec (.packageRetrainRetry k b) s = execPackageRetrainRetry k b s := rfl
theorem exec_rebuildStripe (k : Fin 20) (s : State) : exec (.rebuildStripe k) s = execRebuildStripe k s := rfl
theorem exec_retirementRecord (k : Fin 20) (s : State) : exec (.retirementRecord k) s = execRetirementRecord k s := rfl

section
variable {s : State} (k : Fin 20)

theorem packageFailure_ends (h : (s.dev.mem.pkg k.val).st ≠ .retired) : Ends (.packageFailure k) s
    (let x := s.dev.mem.pkg k.val
     let m := s.dev.mem.setPkg k.val { x with st := .failed, reason := 4, cursor := 0 }
     (s.dev.setMem (if x.st.erased then m else m.freshHealth)).fire 40 k.val) :=
  ends_of_onDev (exec_packageFailure k s) (if_neg h)

theorem packageRetrainRetry_trains (h : (s.dev.mem.pkg k.val).st = .failed) (hpower : s.dev.sup.memory = true) :
    Ends (.packageRetrainRetry k true) s
      { s.dev with mem := s.dev.mem.setPkg k.val { s.dev.mem.pkg k.val with st := .rebuilding, cursor := 0 } } :=
  ends_of_onDev (exec_packageRetrainRetry k true s) (if_pos ⟨h, rfl, hpower⟩)

theorem packageRetrainRetry_fails : Ends (.packageRetrainRetry k false) s s.dev :=
  ends_of_onDev (exec_packageRetrainRetry k false s) (if_neg (by simp))

theorem retirementRecord_ends (h : (s.dev.mem.pkg k.val).st = .retired) :
    Ends (.retirementRecord k) s { s.dev with mem := s.dev.mem.setPkg k.val { s.dev.mem.pkg k.val with recorded := true } } :=
  ends_of_onDev (exec_retirementRecord k s) (if_pos h)

end

section
variable {s : State} {k : Fin 20} (hst : (s.dev.mem.pkg k.val).st = .rebuilding)
include hst

/-- Past the last stripe the package is GOOD. -/
theorem rebuildStripe_done (hnext : s.dev.mem.nextClean (s.dev.mem.pkg k.val).cursor = none) :
    Ends (.rebuildStripe k) s (s.dev.setMem
      (s.dev.mem.setPkg k.val { s.dev.mem.pkg k.val with st := .good, reason := 0, cursor := 0 }).freshHealth) := by
  refine ends_of_onDev (exec_rebuildStripe k s) ((if_neg (by simp [hst])).trans ?_)
  simp only [hnext]

variable {t : Nat} (hnext : s.dev.mem.nextClean (s.dev.mem.pkg k.val).cursor = some t) (hstall : s.dev.stalled = false)
  (howe : s.dev.mem.isOwing (plotAt (512 * t)) = false)
include hnext hstall howe

/-- A stripe that does not decode is reported, and the rebuild stays at it. -/
theorem rebuildStripe_stays (hdec : s.dev.mem.decode [] t = none) : Ends (.rebuildStripe k) s (s.dev.reportUE t) := by
  refine ends_of_onDev (exec_rebuildStripe k s) ((if_neg (by simp [hst])).trans ?_)
  simp only [hnext, hstall, howe, hdec, Bool.or_self, Bool.false_eq_true, if_false]

/-- A stripe that decodes is rewritten, and the rebuild goes on to the next. -/
theorem rebuildStripe_rewrites {data : Bytes} {fixed : List Nat} (hdec : s.dev.mem.decode [] t = some (data, fixed)) :
    Ends (.rebuildStripe k) s (let d1 := s.dev.countFixed t fixed
      { d1 with mem := (d1.mem.encode t data).setPkg k.val { d1.mem.pkg k.val with cursor := t + 1 } }) := by
  refine ends_of_onDev (exec_rebuildStripe k s) ((if_neg (by simp [hst])).trans ?_)
  simp only [hnext, hstall, howe, hdec, Bool.or_self, Bool.false_eq_true, if_false]
  rfl

theorem rebuildStripe_endsIn {data : Bytes} {fixed : List Nat} (hdec : s.dev.mem.decode [] t = some (data, fixed)) :
    EndsIn (.rebuildStripe k) s (fun r => r.mem.raw = (s.dev.mem.encode t data).raw ∧ (r.mem.pkg k.val).cursor = t + 1 ∧
      (r.mem.pkg k.val).st = .rebuilding ∧ (fixed = [] → r.regs = s.dev.regs)) := by
  have hstate (j : Nat) : ((s.dev.countFixed t fixed).mem.pkg j).st = (s.dev.mem.pkg j).st := by
    obtain ⟨w, hw⟩ := s.dev.pkg_countFixed t fixed j
    rw [hw]
  refine ⟨_, rebuildStripe_rewrites hst hnext hstall howe hdec,
    Mem.encode_raw_congr (s.dev.countFixed_raw t fixed) hstate t data, ?_, ?_, ?_⟩
  · rw [Mem.pkg_setPkg, if_pos rfl]
  · rw [Mem.pkg_setPkg, if_pos rfl]
    exact (hstate k.val).trans hst
  · rintro rfl
    rfl

end

/-! ### A word of the clearance map that cannot be corrected (R245, R267) -/

theorem exec_mapWordUncorrectable (k : Nat) (s : State) : exec (.mapWordUncorrectable k) s = execMapWordUncorrectable k s := rfl

/-- The granules of a map word are owed, their stripes out of the poison table and their plot lost. -/
def Mem.wordLost (m : Mem) (k : Nat) : Mem :=
  { m with clean := m.clean.clearRange (64 * k) (64 * k + 64)
           poison := m.poison.clearRange (8192 * k) (8192 * k + 8192)
           lost := Tab.set false m.lost (k / 256) true }

theorem mapWordUncorrectable_ends {s : State} {k : Nat} (hk : k < s.dev.nplots * 256) :
    Ends (.mapWordUncorrectable k) s { (s.dev.raise Reg.MEM_MAP_EVT).fire 42 (k / 256) with mem := s.dev.mem.wordLost k } :=
  ends_of_onDev (exec_mapWordUncorrectable k s) (if_neg (by omega))

section
variable (m : Mem) (k : Nat)

theorem Mem.isLost_wordLost : (m.wordLost k).isLost (k / 256) = true := Tab.get_set_self false m.lost (k / 256) true

theorem Mem.owed_wordLost (g : Nat) : (m.wordLost k).owed g = (decide (64 * k ≤ g ∧ g < 64 * k + 64) || m.owed g) := by
  simp only [Mem.owed, Mem.wordLost, Tab.get_clearRange]
  split <;> simp_all

theorem Mem.isPoison_wordLost {i : Nat} (hi : i < 8192) : (m.wordLost k).isPoison (8192 * k + i) = false := by
  simp only [Mem.isPoison, Mem.wordLost, Tab.get_clearRange]
  rw [if_pos (by omega)]

end

/-! ### RETIRE_PACKAGE (R253) -/

theorem exec_retirePackage (v : Word32) (s : State) : exec (.retirePackage v) s = execRetirePackage v s := rfl

theorem Mem.pkg_freshHealth (m : Mem) (j : Nat) : m.freshHealth.pkg j = m.pkg j := rfl

theorem Mem.pkg_retire (m : Mem) (k reason opsec j : Nat) : (m.retire k reason opsec).pkg j =
    if j = k then { m.pkg k with st := .retired, reason := reason, recorded := false, opsec := opsec } else m.pkg j := by
  rw [Mem.retire, Mem.pkg_freshHealth, Mem.pkg_setPkg]

/-- The result that MEM_RETIRE_STS shows: done, or the first of the reasons against it. -/
def Mem.retireResult (m : Mem) (k : Nat) : Nat :=
  if 20 ≤ k then 2 else if (m.pkg k).st = .retired then 3 else if 2 ≤ m.nErased then 2 else 1

section
variable {m : Mem} {k : Nat}

theorem Mem.retireResult_of_le (h : 20 ≤ k) : m.retireResult k = 2 := if_pos h
theorem Mem.retireResult_of_retired (hk : k < 20) (h : (m.pkg k).st = .retired) : m.retireResult k = 3 := by
  rw [Mem.retireResult, if_neg (by omega), if_pos h]
theorem Mem.retireResult_of_full (hk : k < 20) (h : (m.pkg k).st ≠ .retired) (hfull : 2 ≤ m.nErased) : m.retireResult k = 2 := by
  rw [Mem.retireResult, if_neg (by omega), if_neg h, if_pos hfull]

variable (m k) in
theorem Mem.retireResult_lt : m.retireResult k < 4 := by
  unfold Mem.retireResult
  repeat' split
  all_goals decide

theorem Mem.retireResult_eq_one_iff : m.retireResult k = 1 ↔ k < 20 ∧ (m.pkg k).st ≠ .retired ∧ m.nErased < 2 := by
  unfold Mem.retireResult
  split
  · next hk => simp [not_lt.2 hk]
  · next hk =>
    split
    · next hst => simp [hst]
    · next hst =>
      split
      · next hfull => simp [not_lt.2 hfull]
      · next hfew => exact ⟨fun _ => ⟨by omega, hst, by omega⟩, fun _ => rfl⟩

end

/-- MEM_RETIRE_STS shows a package and a result. -/
def Dev.showRetire (d : Dev) (k result : Nat) : Dev :=
  (d.setFld Reg.MEM_RETIRE_STS F.MEM_RETIRE_STS_PKG k).setFld Reg.MEM_RETIRE_STS F.MEM_RETIRE_STS_RESULT result

theorem Dev.showRetire_result (d : Dev) (k : Nat) {result : Nat} (h : result < 4) :
    (d.showRetire k result).fld Reg.MEM_RETIRE_STS F.MEM_RETIRE_STS_RESULT = result :=
  (Dev.fld_setFld_self _ Reg.MEM_RETIRE_STS F.MEM_RETIRE_STS_RESULT (by decide) result).trans (Nat.mod_eq_of_lt h)

theorem Dev.showRetire_pkg (d : Dev) {k : Nat} (result : Nat) (h : k < 32) :
    (d.showRetire k result).fld Reg.MEM_RETIRE_STS F.MEM_RETIRE_STS_PKG = k :=
  (Dev.fld_setFld_of_disjoint _ Reg.MEM_RETIRE_STS F.MEM_RETIRE_STS_RESULT F.MEM_RETIRE_STS_PKG (by decide) result).trans
    ((Dev.fld_setFld_self d Reg.MEM_RETIRE_STS F.MEM_RETIRE_STS_PKG (by decide) k).trans (Nat.mod_eq_of_lt h))

section
variable {s : State} {v : Word32} (hgo : F.MEM_RETIRE_CMD_GO.get v = 1)
include hgo

theorem retirePackage_ends : Ends (.retirePackage v) s
    (let k := F.MEM_RETIRE_CMD_PKG.get v
     let d := s.dev.showRetire k (s.dev.mem.retireResult k)
     if s.dev.mem.retireResult k = 1 then (d.setMem (d.mem.retire k 3 d.opsec)).fire 40 k else d) :=
  ends_of_onDev (exec_retirePackage v s) (if_neg (by simp [hgo]))

/-- A retirement that is refused shows its reason and changes no memory. -/
theorem retirePackage_refuses {n : Nat} (hres : s.dev.mem.retireResult (F.MEM_RETIRE_CMD_PKG.get v) = n) (hn : n ≠ 1) :
    Ends (.retirePackage v) s (s.dev.showRetire (F.MEM_RETIRE_CMD_PKG.get v) n) := by
  have hend := retirePackage_ends (s := s) hgo
  subst hres
  dsimp only at hend
  rwa [if_neg hn] at hend

theorem retirePackage_retires (hres : s.dev.mem.retireResult (F.MEM_RETIRE_CMD_PKG.get v) = 1) :
    EndsIn (.retirePackage v) s (fun r => (∀ o, r.reg o = (s.dev.showRetire (F.MEM_RETIRE_CMD_PKG.get v) 1).reg o) ∧
      ∃ opsec, r.mem = s.dev.mem.retire (F.MEM_RETIRE_CMD_PKG.get v) 3 opsec) := by
  have hend := retirePackage_ends (s := s) hgo
  dsimp only at hend
  rw [if_pos hres, hres] at hend
  refine ⟨_, hend, fun o => ?_, _, (Dev.fire_mem ..).trans (Dev.setMem_mem ..)⟩
  rw [Dev.fire_reg_, Dev.reg, Dev.setMem_regs, Dev.reg]

end

/-! ### The end of a correction window (R252, R258) -/

theorem exec_correctionWindowEnd (s : State) : exec .correctionWindowEnd s = execCorrectionWindowEnd s := rfl

/-- Automatic retirement of a package above the threshold, where it is on and fewer than two packages are erased. -/
def Dev.retireOver (auto : Prop) [Decidable auto] (d : Dev) (k : Nat) : Dev :=
  if auto ∧ d.mem.nErased < 2 then (d.setMem (d.mem.retire k 2 d.opsec)).fire 40 k else d

/-- HEALTH while two packages are erased. -/
def Dev.judgeHealth (d : Dev) : Dev :=
  if d.mem.nErased = 2 then
    if d.overThresh.isEmpty then d.setMem { d.mem with health := 2 }
    else if d.mem.health = 3 then d
    else (d.setMem { d.mem with health := 3 }).emit (.operatorEvent 0x258 (d.overThresh.headD 0))
  else d

/-- The count of a package starts afresh. -/
def Mem.clearWindow (m : Mem) (k : Nat) : Mem := m.setPkg k { m.pkg k with window := 0 }

/-- Every package's count starts afresh. -/
def Dev.freshWindows (d : Dev) : Dev := { d with mem := (List.range 20).foldl Mem.clearWindow d.mem }

theorem correctionWindowEnd_ends (s : State) : Ends .correctionWindowEnd s
    (s.dev.overThresh.foldl (Dev.retireOver (s.dev.fld Reg.MEM_CTRL F.MEM_CTRL_AUTO_RETIRE = 1)) s.dev).judgeHealth.freshWindows :=
  ends_of_onDev (exec_correctionWindowEnd s) rfl

/-- Nothing is retired where automatic retirement is off, no package is above the threshold or two are erased. -/
theorem Dev.foldl_retireOver_self {d : Dev} {auto : Prop} [Decidable auto] {l : List Nat} (h : l = [] ∨ ¬ auto ∨ 2 ≤ d.mem.nErased) :
    l.foldl (Dev.retireOver auto) d = d := by
  obtain rfl | h := h
  · rfl
  · refine foldl_keeps (fun e : Dev => e = d) _ (fun e k he => ?_) l d rfl
    subst he
    refine if_neg fun ⟨hauto, hlt⟩ => ?_
    obtain hoff | hfull := h
    · exact hoff hauto
    · omega

theorem Dev.judgeHealth_of_ne {d : Dev} (h : d.mem.nErased ≠ 2) : d.judgeHealth = d := if_neg h

/-- With two packages erased HEALTH is 2, and 3 while a third is above the threshold, of which the operator is told once. -/
theorem Dev.judgeHealth_of_eq {d : Dev} (h : d.mem.nErased = 2) :
    d.judgeHealth.mem = { d.mem with health := if d.overThresh = [] then 2 else 3 } ∧
    d.judgeHealth.outbox = (if d.overThresh = [] ∨ d.mem.health = 3 then d.outbox else d.outbox ++ [.operatorEvent 0x258 (d.overThresh.headD 0)]) := by
  simp only [Dev.judgeHealth, h, if_true, List.isEmpty_iff]
  by_cases hover : d.overThresh = []
  · simp only [hover, if_true, true_or]
    exact ⟨d.setMem_mem _, d.setMem_outbox _⟩
  · by_cases hcrit : d.mem.health = 3
    · simp only [hover, hcrit, if_false, if_true, or_true, and_true]
      rw [← hcrit]
    · simp only [hover, hcrit, if_false, or_self]
      exact ⟨d.setMem_mem _, congrArg (· ++ _) (d.setMem_outbox _)⟩

theorem Mem.foldl_clearWindow_frame (l : List Nat) (m : Mem) : l.foldl Mem.clearWindow m = { m with pkgs := (l.foldl Mem.clearWindow m).pkgs } :=
  foldl_keeps (fun n : Mem => n = { m with pkgs := n.pkgs }) Mem.clearWindow (fun n k hn => by rw [hn]; rfl) l m rfl

theorem Mem.pkg_foldl_clearWindow (l : List Nat) (m : Mem) (j : Nat) :
    (l.foldl Mem.clearWindow m).pkg j = if j ∈ l then { m.pkg j with window := 0 } else m.pkg j := by
  induction l generalizing m with
  | nil => rfl
  | cons k l ih =>
    rw [List.foldl_cons, ih, Mem.clearWindow, Mem.pkg_setPkg]
    by_cases hj : j = k <;> simp [hj]

section
variable (d : Dev)

theorem Dev.freshWindows_pkg {j : Nat} (hj : j < 20) : d.freshWindows.mem.pkg j = { d.mem.pkg j with window := 0 } :=
  (Mem.pkg_foldl_clearWindow ..).trans (if_pos (List.mem_range.2 hj))

theorem Dev.freshWindows_frame : d.freshWindows = { d with mem := { d.mem with pkgs := d.freshWindows.mem.pkgs } } :=
  congrArg (fun m : Mem => { d with mem := m }) (Mem.foldl_clearWindow_frame (List.range 20) d.mem)
theorem Dev.freshWindows_raw : d.freshWindows.mem.raw = d.mem.raw := by rw [Dev.freshWindows_frame]
theorem Dev.freshWindows_health : d.freshWindows.mem.health = d.mem.health := by rw [Dev.freshWindows_frame]
theorem Dev.freshWindows_regs : d.freshWindows.regs = d.regs := by rw [Dev.freshWindows_frame]
theorem Dev.freshWindows_outbox : d.freshWindows.outbox = d.outbox := by rw [Dev.freshWindows_frame]

end

/-- Where no package is erased, retiring one leaves at most that one. -/
theorem Mem.nErased_retire {m : Mem} (h : m.nErased = 0) (k reason opsec : Nat) : (m.retire k reason opsec).nErased ≤ 1 := by
  have hnone : ∀ j ∈ List.range 20, ¬ (m.pkg j).st.erased = true := List.filter_eq_nil_iff.1 (List.length_eq_zero_iff.1 h)
  have hsub : (List.range 20).filter (fun j => ((m.retire k reason opsec).pkg j).st.erased) ⊆ [k] := by
    intro j hj
    obtain ⟨hmem, herased⟩ := List.mem_filter.1 hj
    rw [Mem.pkg_retire] at herased
    by_cases hjk : j = k
    · simp [hjk]
    · rw [if_neg hjk] at herased
      exact absurd herased (hnone j hmem)
  exact (List.subperm_of_subset (List.nodup_range.filter _) hsub).length_le

section
variable {s : State}

theorem correctionWindowEnd_quiet (hquiet : s.dev.overThresh = [] ∨ s.dev.fld Reg.MEM_CTRL F.MEM_CTRL_AUTO_RETIRE = 0) (hfew : s.dev.mem.nErased < 2) :
    Ends .correctionWindowEnd s s.dev.freshWindows := by
  have hend := correctionWindowEnd_ends s
  rwa [Dev.foldl_retireOver_self (hquiet.imp id fun hoff => .inl (by simp [hoff])), Dev.judgeHealth_of_ne (by omega)] at hend

theorem correctionWindowEnd_full (hfull : s.dev.mem.nErased = 2) : Ends .correctionWindowEnd s s.dev.judgeHealth.freshWindows := by
  have hend := correctionWindowEnd_ends s
  rwa [Dev.foldl_retireOver_self (.inr (.inr hfull.ge))] at hend

theorem correctionWindowEnd_retires {k : Nat} (hover : s.dev.overThresh = [k]) (hnone : s.dev.mem.nErased = 0)
    (hauto : s.dev.fld Reg.MEM_CTRL F.MEM_CTRL_AUTO_RETIRE = 1) :
    EndsIn .correctionWindowEnd s (fun r => ∃ e : Dev, r = e.freshWindows ∧ e.mem = s.dev.mem.retire k 2 s.dev.opsec) := by
  have hend := correctionWindowEnd_ends s
  have hmem : ((s.dev.setMem (s.dev.mem.retire k 2 s.dev.opsec)).fire 40 k).mem = s.dev.mem.retire k 2 s.dev.opsec := s.dev.setMem_mem _
  have hfew := Mem.nErased_retire hnone k 2 s.dev.opsec
  rw [hover, List.foldl_cons, List.foldl_nil, Dev.retireOver, if_pos ⟨by simp [hauto], by omega⟩,
    Dev.judgeHealth_of_ne (by rw [hmem]; omega)] at hend
  exact ⟨_, hend, _, rfl, hmem⟩

end

/-! ### The statement -/

theorem mr4TemperatureRead_ends (k : Fin 20) (temp : BitVec 16) (s : State) :
    Ends (.mr4TemperatureRead k temp) s { s.dev with org := { s.dev.org with pkgTemp := Tab.set 0 s.dev.org.pkgTemp k.val temp } } := rfl

/-- Settles O24: each command of the controller's own work, then the end of a correction window by how many packages are erased. -/
theorem memoryUpkeep : Obligations.MemoryUpkeep := by
  constructor
  · intro s g t k pkg v data fixed errs
    refine ⟨clearerGranule_ends, fun hen hnext hstall howe => ⟨scrubStripe_decodes hen hnext hstall howe, scrubStripe_reports hen hnext hstall howe⟩,
      packageFailure_ends pkg, fun hst => ⟨packageRetrainRetry_trains pkg hst, packageRetrainRetry_fails pkg⟩, rebuildStripe_done,
      fun hst hnext hstall howe => ⟨rebuildStripe_endsIn hst hnext hstall howe, rebuildStripe_stays hst hnext hstall howe⟩,
      retirementRecord_ends pkg, ?mapWord, ?retire⟩
    case mapWord =>
      intro hk
      refine ⟨_, mapWordUncorrectable_ends hk, Mem.isLost_wordLost .., fun i hi => ?_, fun h hne => ?_, fun i hi => Mem.isPoison_wordLost _ k hi, rfl⟩
      · rw [Mem.owed_wordLost, decide_eq_true (by omega), Bool.true_or]
      · rw [Mem.owed_wordLost, decide_eq_false (by omega), Bool.false_or]
    case retire =>
      intro hgo
      have hpkg : F.MEM_RETIRE_CMD_PKG.get v < 32 := Fld.get_lt ..
      by_cases hres : s.dev.mem.retireResult (F.MEM_RETIRE_CMD_PKG.get v) = 1
      · obtain ⟨hk, hst, hfew⟩ := Mem.retireResult_eq_one_iff.1 hres
        obtain ⟨r, hend, hreg, opsec, hmem⟩ := retirePackage_retires hgo hres
        refine ⟨r, hend, (Dev.fld_congr (hreg _) _).trans (s.dev.showRetire_pkg 1 hpkg), fun h => absurd hk (by omega), fun _ h => absurd h hst,
          fun _ _ h => absurd hfew (by omega), fun _ _ _ => ⟨(Dev.fld_congr (hreg _) _).trans (s.dev.showRetire_result _ (by decide)), ?_, ?_⟩⟩
        · rw [hmem, Mem.pkg_retire, if_pos rfl]
        · rw [hmem, Mem.pkg_retire, if_pos rfl]
      · have hshown := s.dev.showRetire_result (F.MEM_RETIRE_CMD_PKG.get v) (s.dev.mem.retireResult_lt (F.MEM_RETIRE_CMD_PKG.get v))
        refine ⟨_, retirePackage_refuses hgo rfl hres, s.dev.showRetire_pkg _ hpkg,
          fun h => ⟨hshown.trans (Mem.retireResult_of_le h), rfl⟩, fun hk h => ⟨hshown.trans (Mem.retireResult_of_retired hk h), rfl⟩,
          fun hk hst h => ⟨hshown.trans (Mem.retireResult_of_full hk hst h), rfl⟩,
          fun hk hst h => absurd (Mem.retireResult_eq_one_iff.2 ⟨hk, hst, h⟩) hres⟩
  · intro s k temp
    refine ⟨mr4TemperatureRead_ends k temp s, fun hquiet hfew => ?quiet, fun hover hnone hauto => ?retires, fun hfull => ?full⟩
    case quiet =>
      exact ⟨_, correctionWindowEnd_quiet hquiet hfew, fun j hj => Dev.freshWindows_pkg _ hj, Dev.freshWindows_raw _, Dev.freshWindows_health _, Dev.freshWindows_regs _⟩
    case retires =>
      obtain ⟨_, hend, e, rfl, he⟩ := correctionWindowEnd_retires hover hnone hauto
      have hpkg (j : Nat) (hj : j < 20) := e.freshWindows_pkg hj
      simp only [he, Mem.pkg_retire] at hpkg
      refine ⟨_, hend, ?_, ?_, ?_, fun j hj hne => ?_⟩
      · rw [hpkg k.val k.isLt, if_pos rfl]
      · rw [hpkg k.val k.isLt, if_pos rfl]
      · rw [e.freshWindows_raw, he]
        rfl
      · rw [hpkg j hj, if_neg hne]
        exact ⟨rfl, rfl⟩
    case full =>
      obtain ⟨hmem, hout⟩ := Dev.judgeHealth_of_eq hfull
      refine ⟨_, correctionWindowEnd_full hfull, ?_, fun j hj => ?_, ?_, (Dev.freshWindows_outbox _).trans hout⟩
      · rw [Dev.freshWindows_health, hmem]
      · rw [Dev.freshWindows_pkg _ hj, hmem]
        rfl
      · rw [Dev.freshWindows_raw, hmem]

end Sys2Proof.Machine
end

section
/-! SUPPORT and PROOF. Host memory (O25): the RAS status of an error met with an access, the record of a denial, host accesses that arrive,
and the commit of an HDM decoder; then the statement from them. -/

namespace Sys2Proof.Machine

/-! ### Errors on CXL.cachemem (R324) -/

/-- Two blocks differ at most in the internal errors that AER has recorded, in the free values they have taken and in their outputs. -/
def Dev.sameButErrors (d e : Dev) : Prop :=
  e = { d with hp := { d.hp with aerUe := e.hp.aerUe, aerCe := e.hp.aerCe }, freeIx := e.freeIx, outbox := e.outbox }

theorem Dev.aerReport_same (d : Dev) (ue : Bool) : d.sameButErrors (d.aerReport ue) := by
  unfold Dev.aerReport
  dsimp only
  repeat' split
  all_goals rfl

theorem Dev.comp_aerReport (d : Dev) (ue : Bool) (o : Nat) : (d.aerReport ue).comp o = d.comp o := by
  rw [d.aerReport_same ue]
  rfl

theorem Dev.comp_setComp (d : Dev) (off o : Nat) (v : Word32) : (d.setComp off v).comp o = if o = off then v else d.comp o :=
  Tab.getD_setD ..

/-- The RAS status register that records an error. -/
def rasStatus (e : RasErr) : Nat := if e.uncorrectable then rasUe else rasCe
/-- The bits of that register which CXL defines. -/
def rasBits (e : RasErr) : Nat := if e.uncorrectable then rasUeBits else rasCeBits

theorem rasStatus_ne_firstError (e : RasErr) : rasStatus e ≠ rasUe + 0x14 := by
  unfold rasStatus
  split <;> decide

/-- The bit of an error in its status register. -/
def Dev.rasSet (d : Dev) (e : RasErr) : Dev := d.setComp (rasStatus e) (d.comp (rasStatus e) ||| BitVec.ofNat 32 (2 ^ e.bit.toNat))
/-- The first uncorrectable error is noted as well. -/
def Dev.rasFirst (d : Dev) (e : RasErr) : Dev :=
  if e.uncorrectable && d.comp rasUe == 0 then (d.rasSet e).setComp (rasUe + 0x14) (BitVec.ofNat 32 e.bit.toNat) else d.rasSet e

theorem Dev.comp_rasFirst (d : Dev) (e : RasErr) :
    (d.rasFirst e).comp (rasStatus e) = d.comp (rasStatus e) ||| BitVec.ofNat 32 (2 ^ e.bit.toNat) := by
  have hset : (d.rasSet e).comp (rasStatus e) = d.comp (rasStatus e) ||| BitVec.ofNat 32 (2 ^ e.bit.toNat) := by
    rw [Dev.rasSet, Dev.comp_setComp, if_pos rfl]
  unfold Dev.rasFirst
  split
  · rw [Dev.comp_setComp, if_neg (rasStatus_ne_firstError e), hset]
  · exact hset

theorem Dev.rasRecord_eq (d : Dev) {e : RasErr} (h : (rasBits e).testBit e.bit.toNat = true) : d.rasRecord (some e) =
    if ((d.rasFirst e).comp (rasStatus e + 4)).toNat.testBit e.bit.toNat then d.rasFirst e else (d.rasFirst e).aerReport e.uncorrectable :=
  if_neg (show ¬ (!(rasBits e).testBit e.bit.toNat) = true by simp [h])

theorem Dev.comp_rasRecord (d : Dev) {e : RasErr} (h : (rasBits e).testBit e.bit.toNat = true) :
    (d.rasRecord (some e)).comp (rasStatus e) = d.comp (rasStatus e) ||| BitVec.ofNat 32 (2 ^ e.bit.toNat) := by
  rw [d.rasRecord_eq h]
  split
  · exact d.comp_rasFirst e
  · exact (Dev.comp_aerReport ..).trans (d.comp_rasFirst e)

theorem Dev.rasRecord_sets_status (d : Dev) {e : RasErr} (h : (rasBits e).testBit e.bit.toNat = true) :
    ((d.rasRecord (some e)).comp (rasStatus e)).toNat.testBit e.bit.toNat = true := by
  have hbit : e.bit.toNat < 32 := e.bit.isLt
  have hword : 2 ^ e.bit.toNat < 2 ^ 32 := Nat.pow_lt_pow_right (by decide) hbit
  rw [d.comp_rasRecord h, BitVec.toNat_or, BitVec.toNat_ofNat, Nat.mod_eq_of_lt hword, Nat.testBit_or, Nat.testBit_two_pow_self, Bool.or_true]

/-! ### A denied access (R304) -/

section
variable (d : Dev) (ma : Nat)

theorem Dev.deny_evt : (d.deny ma).fld Reg.GLB_HOSTM_DENY_EVT ⟨0, 1⟩ = 1 := by
  refine (Dev.fld_congr ?_ _).trans (d.fld_raise_flag Reg.GLB_HOSTM_DENY_EVT)
  rw [Dev.deny, Dev.reg_setReg_ne _ _ (by decide), Dev.reg_setReg_ne _ _ (by decide)]

theorem Dev.deny_addrLo : (d.deny ma).reg Reg.GLB_HOSTM_DENY_ADDR_LO = BitVec.ofNat 32 (ma / 64 * 64) := by
  rw [Dev.deny, Dev.reg_setReg_ne _ _ (by decide), Dev.reg_setReg_self]

theorem Dev.deny_addrHi : (d.deny ma).reg Reg.GLB_HOSTM_DENY_ADDR_HI = BitVec.ofNat 32 (ma / 2 ^ 32) := Dev.reg_setReg_self ..

theorem Dev.deny_mem : (d.deny ma).mem = d.mem := rfl
theorem Dev.deny_hp : (d.deny ma).hp = d.hp := rfl

end

/-! ### Host accesses that arrive (R262, R264, R269) -/

section
variable {d e : Dev} {ma : Nat}

/-- A read of the host snoops nothing. -/
theorem Dev.tryRead_host {len : Nat} (errs : List SymErr) (hb : d.blocked ma len = false) :
    d.tryRead errs ma len .host = d.performRead errs ma len := by
  obtain ⟨_, _, hbehind⟩ := (d.blocked_eq_false_iff ma len).1 hb
  simp [Dev.tryRead, hbehind]

theorem Dev.readArrives_host_ok {bs : Bytes} (hb : d.blocked ma 64 = false) (hread : d.performRead [] ma 64 = (e, .ok bs)) :
    d.readArrives [] ma 64 .host = (e.snoopAdd (ma / 64)).emit (.cxlData ma bs false) :=
  Dev.readArrives_served hb ((Dev.tryRead_host [] hb).trans hread) (by simp)

theorem Dev.readArrives_host_bad (hb : d.blocked ma 64 = false) (hread : d.performRead [] ma 64 = (e, .bad)) :
    d.readArrives [] ma 64 .host = e.emit (.cxlData ma (List.replicate 64 0) true) :=
  Dev.readArrives_served hb ((Dev.tryRead_host [] hb).trans hread) (by simp)

/-- A write of the host to a clean granule of a plot that is not lost is performed without a snoop. -/
theorem Dev.tryWrite_host {bs : Bytes} (errs : List SymErr) (p : Bool) (hl : d.mem.isLost (plotAt ma) = false)
    (ho : d.mem.owed (granuleOf ma) = false) :
    d.tryWrite errs ma bs p .host = ((d.performWrite errs ma bs p).1, some (d.performWrite errs ma bs p).2) := by
  simp [Dev.tryWrite, hl, ho]

/-- A line lies in one granule. -/
theorem inGranule_line (hline : ma % 64 = 0) : InGranule (granuleOf ma) ma 64 where
  first := rfl
  last := by unfold granuleOf; omega
  pos := by decide

theorem Dev.writeArrives_host {bs : Bytes} (p : Bool) (hlen : bs.length = 64) (hline : ma % 64 = 0) (hb : d.blocked ma 64 = false)
    (hl : d.mem.isLost (plotAt ma) = false) (ho : d.mem.owed (granuleOf ma) = false) :
    d.writeArrives [] ma bs p .host = (d.performWrite [] ma bs p).1.emit (.cxlWriteDone ma) := by
  rw [← hlen] at hb
  have hgranule : InGranule (granuleOf ma) ma bs.length := by rw [hlen]; exact inGranule_line hline
  have hserve : d.serveAcc [] (.write ma bs p .host (d.mem.owesIn ma bs.length)) =
      ((d.performWrite [] ma bs p).1.emit (.cxlWriteDone ma), true) := by
    simp only [Dev.serveAcc, Dev.tryWrite_host [] p hl ho]
    rfl
  rw [Dev.writeArrives_granule hgranule, Dev.arrive_served hb hserve]

end

/-! ### HOST_MEM_READ and HOST_MEM_WRITE (R303, R304) -/

theorem exec_hostMemRead (x : HostLine) (s : State) : exec (.hostMemRead x) s = execHostMemRead x s := rfl
theorem exec_hostMemWrite (hpa : Nat) (data : Bytes) (w : WrMark) (s : State) :
    exec (.hostMemWrite hpa data w) s = execHostMemWrite hpa data w s := rfl

section
variable {s : State} {hpa : Nat} {err : Option RasErr}

theorem hostMemRead_unclaimed (h : (s.dev.rasRecord err).hpaMA hpa = none) : Ends (.hostMemRead ⟨hpa, err⟩) s (s.dev.rasRecord err) := by
  refine ends_of_onDev (exec_hostMemRead ..) ?_
  simp only [h]

theorem hostMemWrite_unclaimed {data : Bytes} {p : Bool} (h : (s.dev.rasRecord err).hpaMA hpa = none) :
    Ends (.hostMemWrite hpa data ⟨p, err⟩) s (s.dev.rasRecord err) := by
  refine ends_of_onDev (exec_hostMemWrite ..) ?_
  simp only [h]

variable {ma : Nat} (hma : (s.dev.rasRecord err).hpaMA hpa = some ma)
include hma

theorem hostMemRead_denied (h : (s.dev.rasRecord err).hostMay (plotAt ma) = false) :
    Ends (.hostMemRead ⟨hpa, err⟩) s (((s.dev.rasRecord err).deny ma).emit (.cxlData ma (List.replicate 64 0) true)) := by
  refine ends_of_onDev (exec_hostMemRead ..) ?_
  simp only [hma, h, Bool.not_false, if_true]

theorem hostMemWrite_denied {data : Bytes} {p : Bool} (h : (s.dev.rasRecord err).hostMay (plotAt ma) = false) :
    Ends (.hostMemWrite hpa data ⟨p, err⟩) s (((s.dev.rasRecord err).deny ma).emit (.cxlWriteDone ma)) := by
  refine ends_of_onDev (exec_hostMemWrite ..) ?_
  simp only [hma, h, Bool.not_false, if_true]

theorem hostMemRead_arrives (h : (s.dev.rasRecord err).hostMay (plotAt ma) = true) :
    Ends (.hostMemRead ⟨hpa, err⟩) s ((s.dev.rasRecord err).readArrives [] ma 64 .host) := by
  refine ends_of_onDev (exec_hostMemRead ..) ?_
  simp only [hma, h, Bool.not_true, Bool.false_eq_true, if_false]

theorem hostMemWrite_arrives {data : Bytes} {p : Bool} (h : (s.dev.rasRecord err).hostMay (plotAt ma) = true) (hlen : data.length = 64) :
    Ends (.hostMemWrite hpa data ⟨p, err⟩) s ((s.dev.rasRecord err).writeArrives [] ma data p .host) := by
  refine ends_of_onDev (exec_hostMemWrite ..) ?_
  simp only [hma, h, Bool.not_true, Bool.false_eq_true, if_false, List.take_of_length_le hlen.le]

end

/-! ### HDM_DECODER_COMMIT (R299 to R302) -/

theorem exec_hdmDecoderCommit (n : Fin 4) (r : HdmReq) (s : State) : exec (.hdmDecoderCommit n r) s = execHdmDecoderCommit n r s := rfl

section
variable (d : Dev) (n : Nat) (r : HdmReq)

theorem Dev.hdmLocked_eq_true_iff : d.hdmLocked n = true ↔ ∃ h, d.hdm n = some h ∧ h.committed = true ∧ h.req.lock = true := by
  unfold Dev.hdmLocked
  cases d.hdm n <;> simp

/-- The words of a request change the component registers alone. -/
theorem Dev.hdmStore_frame : ∃ c, d.hdmStore n r = { d with hp := { d.hp with comp := c } } :=
  foldl_keeps (fun e : Dev => ∃ c, e = { d with hp := { d.hp with comp := c } }) _ (fun e k he => by obtain ⟨c, rfl⟩ := he; exact ⟨_, rfl⟩)
    (List.range 7) d ⟨_, rfl⟩

/-- What decoder n holds once a commit of it has been decided. -/
def Dev.hdmDecided : Hdm := ⟨r, d.dpaEnd n + r.skip.toNat, d.hdmOk n r, !d.hdmOk n r⟩

theorem Dev.hdm_hdmCommit (k : Nat) : (d.hdmCommit n r).hdm k = if k = n then some (d.hdmDecided n r) else d.hdm k :=
  Tab.get_set none d.hp.hdm n k (some (d.hdmDecided n r))
theorem Dev.hdmCommit_mem : (d.hdmCommit n r).mem = d.mem := rfl
theorem Dev.hdmCommit_regs : (d.hdmCommit n r).regs = d.regs := rfl

/-- A commit that is decided takes the request, the outcome and BI Enable. -/
def Dev.hdmTaken : Dev := ((d.hdmStore n r).hdmCommit n r).setBi r.biEnable

theorem Dev.hdm_hdmTaken (k : Nat) : (d.hdmTaken n r).hdm k = if k = n then some (d.hdmDecided n r) else d.hdm k := by
  obtain ⟨c, hstore⟩ := d.hdmStore_frame n r
  refine ((d.hdmStore n r).hdm_hdmCommit n r k).trans ?_
  rw [hstore]
  rfl

theorem Dev.hdmTaken_biEnable : (d.hdmTaken n r).hp.biEnable = r.biEnable := rfl

theorem Dev.hdmTaken_held (h : r.biEnable = false) : (d.hdmTaken n r).hp.held = [] := by
  simp [Dev.hdmTaken, Dev.setBi, h]

theorem Dev.hdmTaken_mem : (d.hdmTaken n r).mem = d.mem := by
  obtain ⟨c, hstore⟩ := d.hdmStore_frame n r
  exact ((d.hdmStore n r).hdmCommit_mem n r).trans (by rw [hstore])

theorem Dev.hdmTaken_regs : (d.hdmTaken n r).regs = d.regs := by
  obtain ⟨c, hstore⟩ := d.hdmStore_frame n r
  exact ((d.hdmStore n r).hdmCommit_regs n r).trans (by rw [hstore])

/-- Is a decoder committed? -/
def Dev.hdmCommitted (k : Nat) : Bool := match d.hdm k with | some h => h.committed | none => false

theorem Dev.hdmCommitted_eq_true_iff (k : Nat) : d.hdmCommitted k = true ↔ ∃ h, d.hdm k = some h ∧ h.committed = true := by
  unfold Dev.hdmCommitted
  cases d.hdm k <;> simp

theorem Dev.hdmOk_eq : d.hdmOk n r =
    (r.bi && decide (1 ≤ r.ig.toNat ∧ r.ig.toNat ≤ 6) && decide (r.iw.toNat ≤ 4) && (d.dpaEnd n + r.skip.toNat) % 2 ^ 30 == 0 &&
      r.size.toNat % hdmWays r == 0 && hdmDpaSize r % 2 ^ 30 == 0 && decide (d.dpaEnd n + r.skip.toNat + hdmDpaSize r ≤ d.nplots * 2 ^ 30) &&
      (List.range n).all d.hdmCommitted && d.hp.mode == .flit256 && d.hp.memActive) := rfl

theorem Dev.hdmOk_eq_true_iff : d.hdmOk n r = true ↔
    r.bi = true ∧ 1 ≤ r.ig.toNat ∧ r.ig.toNat ≤ 6 ∧ r.iw.toNat ≤ 4 ∧ (d.dpaEnd n + r.skip.toNat) % 2 ^ 30 = 0 ∧ r.size.toNat % hdmWays r = 0 ∧
      hdmDpaSize r % 2 ^ 30 = 0 ∧ d.dpaEnd n + r.skip.toNat + hdmDpaSize r ≤ d.nplots * 2 ^ 30 ∧
      (∀ k, k < n → ∃ h, d.hdm k = some h ∧ h.committed = true) ∧ d.hp.mode = .flit256 ∧ d.hp.memActive = true := by
  simp only [Dev.hdmOk_eq, Bool.and_eq_true, decide_eq_true_eq, beq_iff_eq, List.all_eq_true, List.mem_range,
    Dev.hdmCommitted_eq_true_iff, and_assoc]

end

section
variable {s : State} {n : Fin 4} {r : HdmReq}

theorem hdmDecoderCommit_ignored (h : s.dev.hp.ready = false ∨ s.dev.hdmLocked n.val = true) : Ends (.hdmDecoderCommit n r) s s.dev :=
  ends_of_onDev (exec_hdmDecoderCommit n r s) (if_pos (h.imp_left (by simp [·])))

theorem hdmDecoderCommit_taken (hready : s.dev.hp.ready = true) (hfree : ¬ s.dev.hdmLocked n.val = true) :
    Ends (.hdmDecoderCommit n r) s (s.dev.hdmTaken n.val r) :=
  ends_of_onDev (exec_hdmDecoderCommit n r s) (if_neg (by simp [hready, hfree]))

end

/-! ### The statement -/

/-- Settles O25: the accesses by whether a decoder claims the line and whether the host may reach its plot, then the commit of a decoder. -/
theorem hostMemory : Obligations.HostMemory := by
  constructor
  · intro s hpa ma data bs poison err d1
    refine ⟨fun herr => by rw [herr]; rfl, fun e herr hbit => by rw [herr]; exact s.dev.rasRecord_sets_status hbit,
      fun hma => ⟨hostMemRead_unclaimed hma, hostMemWrite_unclaimed hma⟩, fun hma => ⟨fun hdenied => ?denied, fun hmay => ?reached⟩⟩
    case denied =>
      exact ⟨hostMemRead_denied hma hdenied, hostMemWrite_denied hma hdenied, Dev.deny_evt .., Dev.deny_mem .., Dev.deny_hp ..,
        Dev.deny_addrLo .., Dev.deny_addrHi ..⟩
    case reached =>
      have hread := hostMemRead_arrives hma hmay
      refine ⟨fun hb hok => ?_, fun hb hbad => ?_, fun hb => ?_, hostMemWrite_arrives hma hmay, fun hlen hline hb hlost howed => ?_⟩
      · rwa [Dev.readArrives_host_ok hb hok] at hread
      · rwa [Dev.readArrives_host_bad hb hbad] at hread
      · rwa [Dev.readArrives_blocked [] .host hb] at hread
      · rw [← Dev.writeArrives_host poison hlen hline hb hlost howed]
        exact hostMemWrite_arrives hma hmay hlen
  · intro s n r
    refine ⟨fun hready => hdmDecoderCommit_ignored (.inl hready),
      fun h hh hcom hlock => hdmDecoderCommit_ignored (.inr ((s.dev.hdmLocked_eq_true_iff n.val).2 ⟨h, hh, hcom, hlock⟩)), fun hready hfree => ?taken⟩
    case taken =>
      have hunlocked : ¬ s.dev.hdmLocked n.val = true := fun hlocked => by
        obtain ⟨h, hh, hlock⟩ := (s.dev.hdmLocked_eq_true_iff n.val).1 hlocked
        exact hfree h hh hlock
      refine ⟨_, hdmDecoderCommit_taken hready hunlocked, s.dev.hdmDecided n.val r, ?_, rfl, rfl, s.dev.hdmOk_eq_true_iff n.val r, rfl,
        fun k hk => ?_, Dev.hdmTaken_biEnable .., s.dev.hdmTaken_held n.val r, Dev.hdmTaken_mem .., Dev.hdmTaken_regs ..⟩
      · rw [Dev.hdm_hdmTaken, if_pos rfl]
      · rw [Dev.hdm_hdmTaken, if_neg hk]

end Sys2Proof.Machine
end

section
/-! SUPPORT and PROOF. The host link (O26): the fields of GLB_HP_LINK, bring-up, a queue that pauses, COPYs whose data was not observed,
and what each link event leaves; then the statement from them. -/

namespace Sys2Proof.Machine

theorem Dev.sameButErrors_refl (d : Dev) : d.sameButErrors d := rfl
theorem Dev.takeFree_same (d : Dev) : d.sameButErrors d.takeFree.1 := rfl

/-! ### GLB_HP_LINK (Table 6-11) -/

theorem Dev.fld_setReg_ofNat (d : Dev) (off n : Nat) (f : Fld) (hn : n < 2 ^ 32) :
    (d.setReg off (BitVec.ofNat 32 n)).fld off f = n / 2 ^ f.lo % 2 ^ f.width := by
  rw [Dev.fld, Dev.reg_setReg_self, Fld.get, BitVec.toNat_ofNat, Nat.mod_eq_of_lt hn, Nat.shiftRight_eq_div_pow]

section
variable (d : Dev) {speed width flit mem cache st : Nat} (hspeed : speed < 8) (hwidth : width < 32) (hflit : flit < 4) (hmem : mem < 2)
  (hcache : cache < 2) (hst : st < 8)
include hspeed hwidth hflit hmem hcache hst

theorem Dev.setLink_speed : (d.setLink speed width flit mem cache st).fld Reg.GLB_HP_LINK F.GLB_HP_LINK_SPEED = speed := by
  rw [Dev.setLink, Dev.fld_setReg_ofNat _ _ _ _ (by omega)]
  simp only [F.GLB_HP_LINK_SPEED]
  omega

theorem Dev.setLink_width : (d.setLink speed width flit mem cache st).fld Reg.GLB_HP_LINK F.GLB_HP_LINK_WIDTH = width := by
  rw [Dev.setLink, Dev.fld_setReg_ofNat _ _ _ _ (by omega)]
  simp only [F.GLB_HP_LINK_WIDTH]
  omega

theorem Dev.setLink_cache : (d.setLink speed width flit mem cache st).fld Reg.GLB_HP_LINK F.GLB_HP_LINK_CACHE = cache := by
  rw [Dev.setLink, Dev.fld_setReg_ofNat _ _ _ _ (by omega)]
  simp only [F.GLB_HP_LINK_CACHE]
  omega

theorem Dev.setLink_state : (d.setLink speed width flit mem cache st).fld Reg.GLB_HP_LINK F.GLB_HP_LINK_STATE = st := by
  rw [Dev.setLink, Dev.fld_setReg_ofNat _ _ _ _ (by omega)]
  simp only [F.GLB_HP_LINK_STATE]
  omega

end

theorem Dev.linkUp_of_state {d : Dev} {st : Nat} (h : d.fld Reg.GLB_HP_LINK F.GLB_HP_LINK_STATE = st) :
    d.linkUp = decide (2 ≤ st ∧ st ≤ 4) := by rw [← h]; rfl

theorem Dev.linkUp_setLinkSt (d : Dev) {st : Nat} (h : st < 8) : (d.setLinkSt st).linkUp = decide (2 ≤ st ∧ st ≤ 4) :=
  Dev.linkUp_of_state ((d.fld_setFld_self _ F.GLB_HP_LINK_STATE (by decide) st).trans (Nat.mod_eq_of_lt h))

/-! ### Bring-up (R274 to R281, R288) -/

theorem exec_perstNDeassert (s : State) : exec .perstNDeassert s = execPerstNDeassert s := rfl
theorem exec_linkAtL0 (m : LinkMode) (s : State) : exec (.linkAtL0 m) s = execLinkAtL0 m s := rfl
theorem exec_functionReady (s : State) : exec .functionReady s = execFunctionReady s := rfl
theorem exec_memoryActive (s : State) : exec .memoryActive s = execMemoryActive s := rfl
theorem exec_linkRecovery (s : State) : exec .linkRecovery s = execLinkRecovery s := rfl

section
variable {s : State}

theorem perstNDeassert_ends (h : s.dev.hp.perst = true) :
    Ends .perstNDeassert s (({ s.dev with hp := { s.dev.hp with perst := false } }).setLink 0 0 0 0 0 0) :=
  ends_of_onDev (exec_perstNDeassert s) (if_pos h)

theorem functionReady_ends (hperst : s.dev.hp.perst = false) (hbranch : s.dev.sup.link = true) :
    Ends .functionReady s { s.dev with hp := { s.dev.hp with ready := true } } :=
  ends_of_onDev (exec_functionReady s) (if_neg (by simp [hperst, hbranch]))

theorem memoryActive_ends (hready : s.dev.hp.ready = true) (htrained : s.dev.mem.trained = true) :
    Ends .memoryActive s { s.dev with hp := { s.dev.hp with memActive := true } } :=
  ends_of_onDev (exec_memoryActive s) (if_pos ⟨hready, htrained⟩)

theorem linkRecovery_up (h : s.dev.linkUp = true) : Ends .linkRecovery s (s.dev.setLinkSt 3) :=
  ends_of_onDev (exec_linkRecovery s) (if_pos h)

theorem linkRecovery_down (h : s.dev.linkUp = false) : Ends .linkRecovery s s.dev :=
  ends_of_onDev (exec_linkRecovery s) (if_neg (by simp [h]))

end

section
variable {d : Dev}

theorem Dev.linkSettles_down (h : d.linkUp = false) : d.linkSettles = d := if_neg (by simp [h])

theorem Dev.linkSettles_l0 (h : d.linkUp = true) (hl1 : d.l1May = false) : d.linkSettles = d.setLinkSt 2 :=
  (if_pos h).trans (if_neg (by simp [hl1]))

/-- Where the link may enter L1 it stands in L0 or L1. -/
theorem Dev.linkSettles_free (h : d.linkUp = true) (hl1 : d.l1May = true) :
    ∃ st, (st = 2 ∨ st = 4) ∧ d.linkSettles = ({ d with freeIx := d.freeIx + 1 } : Dev).setLinkSt st := by
  refine ⟨if Config.freeChoice d.freeIx % 2 = 1 then 4 else 2, ?_, (if_pos h).trans (if_pos hl1)⟩
  split
  · exact .inr rfl
  · exact .inl rfl

end

/-! ### The link at L0 (R274, R275, R277, R286) -/

/-- Is CXL negotiated at a mode? -/
def Dev.negotiates (d : Dev) (m : LinkMode) : Bool := decide (m.flit ≠ 3 ∧ !d.lodge)

/-- The host port's name of a mode. -/
def hpModeOf (m : LinkMode) : HpMode := match m.flit.toNat with | 1 => .flit68 | 2 => .flit256 | _ => .pcie

/-- The host port trained at a mode. -/
def Dev.trainedAt (d : Dev) (m : LinkMode) : Dev := { d with hp := { d.hp with mode := hpModeOf m } }
/-- The block with the link at L0 at a mode. -/
def Dev.atL0 (d : Dev) (m : LinkMode) : Dev :=
  (d.setLink m.speed.toNat m.width.toNat m.flit.toNat (bit (d.negotiates m)) (bit (d.negotiates m)) 2).trainedAt m

theorem linkAtL0_ends {s : State} {m : LinkMode} (hperst : s.dev.hp.perst = false) (hmode : linkModeOk m = true) (hdown : s.dev.linkUp = false)
    (hbranch : s.dev.sup.link = true) (href : s.dev.refOk 0 = true) : Ends (.linkAtL0 m) s (s.dev.atL0 m) :=
  ends_of_onDev (exec_linkAtL0 m s) (if_neg (by simp [hperst, hmode, hdown, hbranch, href]))

section
variable (d : Dev) (m : LinkMode)

theorem bit_lt_two (b : Bool) : bit b < 2 := by cases b <;> decide

theorem Dev.trainedAt_reg (o : Nat) : (d.trainedAt m).reg o = d.reg o := rfl

theorem Dev.trainedAt_pavs : (d.trainedAt m).pavs = d.pavs := rfl
theorem Dev.trainedAt_mem : (d.trainedAt m).mem = d.mem := rfl
theorem Dev.trainedAt_qs : (d.trainedAt m).qs = d.qs := rfl

theorem Dev.atL0_pavs : (d.atL0 m).pavs = d.pavs := (Dev.trainedAt_pavs ..).trans (Dev.setReg_pavs ..)
theorem Dev.atL0_mem : (d.atL0 m).mem = d.mem := (Dev.trainedAt_mem ..).trans (Dev.setReg_mem ..)
theorem Dev.atL0_qs : (d.atL0 m).qs = d.qs := (Dev.trainedAt_qs ..).trans (Dev.setReg_qs ..)

theorem Dev.atL0_linkUp : (d.atL0 m).linkUp = true :=
  Dev.linkUp_of_state ((Dev.fld_congr (Dev.trainedAt_reg ..) _).trans
    (d.setLink_state m.speed.isLt m.width.isLt m.flit.isLt (bit_lt_two _) (bit_lt_two _) (by decide)))

theorem Dev.atL0_speed : (d.atL0 m).fld Reg.GLB_HP_LINK F.GLB_HP_LINK_SPEED = m.speed.toNat :=
  (Dev.fld_congr (Dev.trainedAt_reg ..) _).trans
    (d.setLink_speed m.speed.isLt m.width.isLt m.flit.isLt (bit_lt_two _) (bit_lt_two _) (by decide))

theorem Dev.atL0_width : (d.atL0 m).fld Reg.GLB_HP_LINK F.GLB_HP_LINK_WIDTH = m.width.toNat :=
  (Dev.fld_congr (Dev.trainedAt_reg ..) _).trans
    (d.setLink_width m.speed.isLt m.width.isLt m.flit.isLt (bit_lt_two _) (bit_lt_two _) (by decide))

theorem Dev.atL0_cacheOn : (d.atL0 m).cacheOn = d.negotiates m := by
  have hcache : (d.atL0 m).fld Reg.GLB_HP_LINK F.GLB_HP_LINK_CACHE = bit (d.negotiates m) :=
    (Dev.fld_congr (Dev.trainedAt_reg ..) _).trans
      (d.setLink_cache m.speed.isLt m.width.isLt m.flit.isLt (bit_lt_two _) (bit_lt_two _) (by decide))
  rw [Dev.cacheOn, hcache]
  cases d.negotiates m <;> rfl

end

/-! ### A queue that pauses (R369) -/

theorem Queue.pause_reset : Queue.reset.pause = Queue.reset := rfl

theorem Queue.pause_st_ne_running (x : Queue) : x.pause.st ≠ .running := by
  unfold Queue.pause
  cases x.st <;> simp [Queue.unissue]

theorem Queue.pause_lineArmed (x : Queue) : x.pause.lineArmed = false := by
  unfold Queue.pause
  cases x.st <;> rfl

/-- A pause changes no more of an execution than whether its record is issued. -/
theorem Queue.find?_pause_execs (x : Queue) (seq : Nat) :
    ∃ g : Exec → Bool, x.pause.execs.find? (·.seq == seq) = (x.execs.find? (·.seq == seq)).map (fun e => { e with issued := g e }) := by
  have hunissue : x.unissue.execs.find? (·.seq == seq) =
      (x.execs.find? (·.seq == seq)).map (fun e => { e with issued := e.issued && x.held.any (·.seq == e.seq) }) :=
    List.find?_map ..
  have hsame : x.execs.find? (·.seq == seq) = (x.execs.find? (·.seq == seq)).map (fun e => { e with issued := e.issued }) := by simp
  unfold Queue.pause
  cases x.st
  case disabled => exact ⟨_, hsame⟩
  all_goals exact ⟨_, hunissue⟩

theorem Dev.queue_pauseQueues (d : Dev) (t : Nat → Queue → Bool) (q : Nat) :
    (d.pauseQueues t).queue q = if t q (d.queue q) then (d.queue q).pause else d.queue q :=
  Tab.getD_mapV (fun _ => Queue.reset) (fun k x => if t k x then x.pause else x) d.qs q fun k => by rw [Queue.pause_reset, ite_self]

/-! ### What every event that pauses all queues does (R318, R320) -/

section
variable (d : Dev)

theorem Dev.queue_downAll (q : Nat) : d.downAll.queue q = (d.queue q).pause :=
  (Dev.raise_queue_ ..).trans (d.queue_pauseQueues (fun _ _ => true) q)

theorem Dev.downAll_evt : d.downAll.fld Reg.GLB_HP_DOWN_EVT ⟨0, 1⟩ = 1 := Dev.fld_raise_flag ..

/-- The state field of GLB_HP_LINK stays. -/
theorem Dev.downAll_linkUp : d.downAll.linkUp = d.linkUp :=
  Dev.linkUp_of_state (Dev.fld_congr (Dev.reg_raise_of_ne (d.pauseQueues fun _ _ => true).emptySnoop (by decide)) _)

theorem Dev.downAll_hp : d.downAll.hp = { d.hp with held := [] } := Dev.raise_hp ..
theorem Dev.downAll_mem : d.downAll.mem = (d.pauseQueues fun _ _ => true).emptySnoop.mem := Dev.raise_mem ..
theorem Dev.downAll_pavs : d.downAll.pavs = d.pavs := Dev.raise_pavs ..
theorem Dev.downAll_allots : d.downAll.allots = d.allots := Dev.raise_allots ..

end

/-- The host's lines are gone, the queues of `base` are paused, the event is set, and memory contents, Pavilions and allotments of `d` stay. -/
structure Dev.WentDown (base d r : Dev) : Prop where
  held : r.hp.held = []
  evt : r.fld Reg.GLB_HP_DOWN_EVT ⟨0, 1⟩ = 1
  raw : r.mem.raw = d.mem.raw
  clean : r.mem.clean = d.mem.clean
  pavs : r.pavs = d.pavs
  allots : r.allots = d.allots
  queues : ∀ q, r.queue q = (base.queue q).pause ∧ (r.queue q).st ≠ .running ∧ (r.queue q).lineArmed = false

theorem Dev.wentDown_downAll {base d e : Dev} (hqs : e.qs = base.qs) (hmem : e.mem = d.mem) (hpavs : e.pavs = d.pavs)
    (hallots : e.allots = d.allots) : Dev.WentDown base d e.downAll where
  held := by rw [e.downAll_hp]
  evt := e.downAll_evt
  raw := by rw [e.downAll_mem, ← hmem]; rfl
  clean := by rw [e.downAll_mem, ← hmem]; rfl
  pavs := e.downAll_pavs.trans hpavs
  allots := e.downAll_allots.trans hallots
  queues q := by
    have hqueue : e.queue q = base.queue q := congrArg (Tab.get Queue.reset · q) hqs
    rw [e.queue_downAll q, hqueue]
    exact ⟨rfl, Queue.pause_st_ne_running _, Queue.pause_lineArmed _⟩

/-! ### COPYs whose data was not observed (R308, R356, R369) -/

/-- One data write that is cut off makes its descriptor start again. -/
def Dev.redoWrite (d : Dev) (w : HostWait) : Dev :=
  match w with
  | .data q seq => d.updExec q seq Exec.again
  | .record _ _ | .line _ | .header _ => d

theorem Dev.redoData_eq (d : Dev) : d.redoData = d.hp.writes.foldl Dev.redoWrite d := rfl

theorem Dev.redoWrite_frame (d : Dev) (w : HostWait) : d.redoWrite w = { d with qs := (d.redoWrite w).qs } := by
  cases w <;> rfl

theorem Dev.redoData_frame (d : Dev) : d.redoData = { d with qs := d.redoData.qs } :=
  foldl_keeps (fun e : Dev => e = { d with qs := e.qs }) Dev.redoWrite (fun e w he => by rw [e.redoWrite_frame w, he]) d.hp.writes d rfl

theorem Dev.redoWrite_qs_congr {d e : Dev} (h : e.qs = d.qs) (w : HostWait) : (e.redoWrite w).qs = (d.redoWrite w).qs := by
  cases w with
  | data q seq => simp only [Dev.redoWrite, Dev.updExec, Dev.updQueue, Dev.setQueue, Dev.queue, h]
  | record | line | header => exact h

theorem Dev.foldl_redoWrite_qs_congr (ws : List HostWait) {d e : Dev} (h : e.qs = d.qs) :
    (ws.foldl Dev.redoWrite e).qs = (ws.foldl Dev.redoWrite d).qs := by
  induction ws generalizing d e with
  | nil => exact h
  | cons w ws ih => exact ih (Dev.redoWrite_qs_congr h w)

/-- What is made again depends on the queues and on the writes alone. -/
theorem Dev.redoData_qs_congr {d e : Dev} (hqs : e.qs = d.qs) (hwrites : e.hp.writes = d.hp.writes) : e.redoData.qs = d.redoData.qs := by
  rw [Dev.redoData_eq, Dev.redoData_eq, hwrites, Dev.foldl_redoWrite_qs_congr _ hqs]

/-- The descriptor, if the queue holds it, has not started. -/
def Dev.fresh (d : Dev) (q seq : Nat) : Prop := ∀ e, d.exec? q seq = some e → e.started = false ∧ e.complete = false

theorem Dev.fresh_updExec_self (d : Dev) (q seq : Nat) : (d.updExec q seq Exec.again).fresh q seq := by
  intro e he
  rw [Dev.exec?_updExec d q seq (f := Exec.again) (fun _ => rfl), if_pos ⟨rfl, rfl⟩] at he
  obtain ⟨a, _, rfl⟩ := Option.map_eq_some_iff.1 he
  exact ⟨rfl, rfl⟩

theorem Dev.redoWrite_keeps_fresh {d : Dev} {q seq : Nat} (h : d.fresh q seq) (w : HostWait) : (d.redoWrite w).fresh q seq := by
  cases w with
  | data k n =>
    by_cases hk : q = k ∧ seq = n
    · obtain ⟨rfl, rfl⟩ := hk
      exact d.fresh_updExec_self q seq
    · intro e he
      rw [Dev.redoWrite, Dev.exec?_updExec d k n (f := Exec.again) (fun _ => rfl), if_neg hk] at he
      exact h e he
  | record | line | header => exact h

/-- Every descriptor whose data was cut off is fresh. -/
theorem Dev.redoData_fresh {d : Dev} {q seq : Nat} (h : HostWait.data q seq ∈ d.hp.writes) : d.redoData.fresh q seq := by
  have hfold : ∀ (ws : List HostWait) (e : Dev), HostWait.data q seq ∈ ws ∨ e.fresh q seq → (ws.foldl Dev.redoWrite e).fresh q seq := by
    intro ws
    induction ws with
    | nil => intro e he; simpa using he
    | cons w ws ih =>
      intro e he
      refine ih _ ?_
      obtain hmem | hfresh := he
      · obtain rfl | hmem := List.mem_cons.1 hmem
        · exact .inr (e.fresh_updExec_self q seq)
        · exact .inl hmem
      · exact .inr (Dev.redoWrite_keeps_fresh hfresh w)
  exact hfold _ d (.inl h)

/-- A pause keeps a descriptor fresh. -/
theorem Dev.fresh_of_pause {d r : Dev} {q seq : Nat} (hqueue : r.queue q = (d.queue q).pause) (h : d.fresh q seq) : r.fresh q seq := by
  intro e he
  obtain ⟨g, hfind⟩ := (d.queue q).find?_pause_execs seq
  rw [Dev.exec?, hqueue, hfind] at he
  obtain ⟨a, ha, rfl⟩ := Option.map_eq_some_iff.1 he
  exact h a ha

/-! ### The host port is reset (R318, R319, R321) -/

/-- Configuration space, the component registers and VF Enable are cleared, and what was not observed of `d` starts again. -/
def Dev.PortReset (d r : Dev) : Prop :=
  r.hp.cfg = [] ∧ r.hp.comp = [] ∧ r.hp.vfEnable = false ∧ r.hp.writes = [] ∧
    ∀ q seq e, HostWait.data q seq ∈ d.hp.writes → r.exec? q seq = some e → e.started = false ∧ e.complete = false

theorem Dev.WentDown.restarts {d r : Dev} (h : Dev.WentDown d.redoData d r) {q seq : Nat} {e : Exec}
    (hw : HostWait.data q seq ∈ d.hp.writes) (he : r.exec? q seq = some e) : e.started = false ∧ e.complete = false :=
  Dev.fresh_of_pause (h.queues q).1 (Dev.redoData_fresh hw) e he

section
variable (d : Dev)

theorem Dev.resetHost_qs : d.resetHost.qs = d.redoData.qs := rfl
theorem Dev.resetHost_hp : d.resetHost.hp = d.hp.resetCfg := congrArg HostPort.resetCfg (by rw [d.redoData_frame])
theorem Dev.resetHost_mem : d.resetHost.mem = d.mem := by
  change d.redoData.mem = d.mem
  rw [d.redoData_frame]
theorem Dev.resetHost_pavs : d.resetHost.pavs = d.pavs := by
  change d.redoData.pavs = d.pavs
  rw [d.redoData_frame]
theorem Dev.resetHost_allots : d.resetHost.allots = d.allots := by
  change d.redoData.allots = d.allots
  rw [d.redoData_frame]

/-- The block after a reset of the host port, on which `f` acts as well, with the link in a state. -/
def Dev.portDown (f : HostPort → HostPort) (st : Nat) : Dev := ({ d.resetHost with hp := f d.resetHost.hp }).setLink 0 0 0 0 0 st

theorem Dev.portDown_hp (f : HostPort → HostPort) (st : Nat) : (d.portDown f st).hp = f d.hp.resetCfg :=
  (Dev.setReg_hp ..).trans (congrArg f d.resetHost_hp)

/-- A link that is lost is not up. -/
theorem Dev.portDown_linkUp (f : HostPort → HostPort) {st : Nat} (hst : st = 1 ∨ st = 5) : (d.portDown f st).downAll.linkUp = false := by
  rw [Dev.downAll_linkUp, Dev.portDown, Dev.linkUp_of_state (Dev.setLink_state _ (by decide) (by decide) (by decide) (by decide) (by decide) (by omega))]
  obtain rfl | rfl := hst <;> rfl

end

theorem Dev.resetHost_wentDown (d : Dev) : Dev.WentDown d.redoData d d.resetHost.downAll :=
  Dev.wentDown_downAll d.resetHost_qs d.resetHost_mem d.resetHost_pavs d.resetHost_allots

theorem Dev.resetHost_portReset (d : Dev) : d.PortReset d.resetHost.downAll := by
  have hhp : d.resetHost.downAll.hp = { d.hp.resetCfg with held := [] } := by rw [Dev.downAll_hp, d.resetHost_hp]
  refine ⟨?_, ?_, ?_, ?_, fun q seq e => d.resetHost_wentDown.restarts⟩ <;> rw [hhp] <;> rfl

/-! ### A link that goes down (R317 to R320, R325) -/

/-- The host port of a lost link. -/
def HostPort.noLink (h : HostPort) : HostPort := { h with mode := .none }
/-- The host port under PERST_N, which takes its readiness. -/
def HostPort.inPerst (h : HostPort) : HostPort := { h with mode := .none, perst := true, ready := false, memActive := false }

theorem Dev.linkLost_eq (d : Dev) (st : Nat) : d.linkLost st = (d.portDown HostPort.noLink st).downAll := rfl
theorem Dev.perstAssert_eq (d : Dev) : d.perstAssert = (d.portDown HostPort.inPerst 0).downAll := rfl

section
variable {d e : Dev} (h : d.sameButErrors e)
include h

/-- The queues are those that make again what was not observed. -/
theorem Dev.portDown_wentDown (f : HostPort → HostPort) (st : Nat) : Dev.WentDown d.redoData d (e.portDown f st).downAll :=
  Dev.wentDown_downAll ((Dev.setReg_qs ..).trans (Dev.redoData_qs_congr (by rw [h]) (by rw [h])))
    ((Dev.setReg_mem ..).trans (e.resetHost_mem.trans (by rw [h]))) ((Dev.setReg_pavs ..).trans (e.resetHost_pavs.trans (by rw [h])))
    ((Dev.setReg_allots ..).trans (e.resetHost_allots.trans (by rw [h])))

theorem Dev.linkLost_wentDown (st : Nat) : Dev.WentDown d.redoData d (e.linkLost st) := Dev.portDown_wentDown h HostPort.noLink st

theorem Dev.linkLost_portReset (st : Nat) : d.PortReset (e.linkLost st) := by
  have hhp : (e.linkLost st).hp = { e.hp.resetCfg.noLink with held := [] } := by rw [Dev.linkLost_eq, Dev.downAll_hp, e.portDown_hp]
  refine ⟨?_, ?_, ?_, ?_, fun q seq e => (Dev.linkLost_wentDown h st).restarts⟩ <;> rw [hhp] <;> rfl

/-- A lost link is no longer up, and the function stays ready. -/
theorem Dev.linkLost_linkUp {st : Nat} (hst : st = 1 ∨ st = 5) : (e.linkLost st).linkUp = false ∧ (e.linkLost st).hp.ready = d.hp.ready := by
  refine ⟨e.portDown_linkUp HostPort.noLink hst, ?_⟩
  rw [Dev.linkLost_eq, Dev.downAll_hp, e.portDown_hp, h]
  rfl

end

theorem Dev.perstAssert_hp (d : Dev) : d.perstAssert.hp = { d.hp.resetCfg.inPerst with held := [] } := by
  rw [Dev.perstAssert_eq, Dev.downAll_hp, d.portDown_hp]

theorem Dev.perstAssert_wentDown (d : Dev) : Dev.WentDown d.redoData d d.perstAssert := Dev.portDown_wentDown d.sameButErrors_refl HostPort.inPerst 0

theorem Dev.perstAssert_portReset (d : Dev) : d.PortReset d.perstAssert := by
  refine ⟨?_, ?_, ?_, ?_, fun q seq e => d.perstAssert_wentDown.restarts⟩ <;> rw [d.perstAssert_hp] <;> rfl

/-! ### An integrity failure of IDE (R317) -/

/-- AER's record stands after the link down. -/
def Dev.markAer (d : Dev) : Dev := { d with hp := { d.hp with aerUe := true } }

theorem Dev.WentDown.markAer {base d r : Dev} (h : Dev.WentDown base d r) : Dev.WentDown base d r.markAer :=
  ⟨h.held, h.evt, h.raw, h.clean, h.pavs, h.allots, h.queues⟩

/-! ### D3hot (R318) -/

theorem Dev.enterD3_hp (d : Dev) : d.enterD3.hp =
    { d.hp with d3hot := true, cfg := Tab.setD cfgInit d.hp.cfg 0x44 (BitVec.ofNat 32 3), held := [] } := Dev.downAll_hp ..

theorem Dev.enterD3_wentDown (d : Dev) : Dev.WentDown d d d.enterD3 := Dev.wentDown_downAll rfl rfl rfl rfl

/-- Every configuration word but the power state is kept. -/
theorem Dev.enterD3_cfg (d : Dev) {key : Nat} (h : key ≠ 0x44) : Tab.getD cfgInit d.enterD3.hp.cfg key = Tab.getD cfgInit d.hp.cfg key := by
  rw [d.enterD3_hp]
  exact Tab.getD_setD_ne cfgInit d.hp.cfg (BitVec.ofNat 32 3) h

theorem Dev.enterD3_power (d : Dev) : d.enterD3.cfgWord 0 0x44 = 3 := by
  rw [Dev.cfgWord, d.enterD3_hp]
  exact congrArg BitVec.toNat (Tab.getD_setD_self cfgInit d.hp.cfg 0x44 (BitVec.ofNat 32 3))

/-! ### The commands of the link events (Table 6-10) -/

theorem exec_linkDown (s : State) : exec .linkDown s = execLinkDown s := rfl
theorem exec_hotReset (s : State) : exec .hotReset s = execHotReset s := rfl
theorem exec_perstNAssert (s : State) : exec .perstNAssert s = execPerstNAssert s := rfl
theorem exec_flrPf (s : State) : exec .flrPf s = execFlrPf s := rfl
theorem exec_flrVf (n : Fin 256) (s : State) : exec (.flrVf n) s = execFlrVf n s := rfl
theorem exec_pfD3hot (s : State) : exec .pfD3hot s = execPfD3hot s := rfl
theorem exec_ideIntegrityFailure (s : State) : exec .ideIntegrityFailure s = execIdeIntegrityFailure s := rfl

/-- The state in which a hot reset or a link disable leaves the link. -/
def Dev.hotState (d : Dev) : Nat := if Config.freeChoice d.freeIx % 2 = 0 then 1 else 5

theorem Dev.hotState_cases (d : Dev) : d.hotState = 1 ∨ d.hotState = 5 := by
  unfold Dev.hotState
  split <;> simp

section
variable {s : State}

theorem linkDown_ends (h : s.dev.hp.perst = false) : Ends .linkDown s (s.dev.linkLost 1) :=
  ends_of_onDev (exec_linkDown s) (if_neg (by simp [h]))

theorem hotReset_ends (h : s.dev.hp.perst = false) : Ends .hotReset s (s.dev.takeFree.1.linkLost s.dev.hotState) :=
  ends_of_onDev (exec_hotReset s) (if_neg (by simp [h]))

theorem ideIntegrityFailure_ends (h : s.dev.hp.io.on = true ∨ s.dev.hp.cm.on = true) :
    Ends .ideIntegrityFailure s ((s.dev.aerReport true).linkLost 1).markAer :=
  ends_of_onDev (exec_ideIntegrityFailure s) (if_pos h)

variable (s)

theorem perstNAssert_ends : Ends .perstNAssert s s.dev.perstAssert := ends_of_onDev (exec_perstNAssert s) rfl
theorem flrPf_ends : Ends .flrPf s s.dev.resetHost.downAll := ends_of_onDev (exec_flrPf s) rfl
theorem pfD3hot_ends : Ends .pfD3hot s s.dev.enterD3 := ends_of_onDev (exec_pfD3hot s) rfl

end

/-- An event that ends with all queues paused ends with that and what else holds of its end. -/
theorem endsIn_of_wentDown {i : Instr} {s : State} {r base b : Dev} {Q : Dev → Prop} (hend : Ends i s r) (hbase : base = b)
    (hdown : Dev.WentDown b s.dev r) (hrest : Q r) :
    EndsIn i s (fun r => r.hp.held = [] ∧ r.fld Reg.GLB_HP_DOWN_EVT ⟨0, 1⟩ = 1 ∧ r.mem.raw = s.dev.mem.raw ∧ r.mem.clean = s.dev.mem.clean ∧
      r.pavs = s.dev.pavs ∧ r.allots = s.dev.allots ∧
      (∀ q, r.queue q = (base.queue q).pause ∧ (r.queue q).st ≠ .running ∧ (r.queue q).lineArmed = false) ∧ Q r) := by
  subst hbase
  exact ⟨r, hend, hdown.held, hdown.evt, hdown.raw, hdown.clean, hdown.pavs, hdown.allots, hdown.queues, hrest⟩

/-! ### FLR of a VF (R318, R321) -/

theorem Tab.getD_of_forall_ne {α : Type} (dflt : Nat → α) {t : Tab α} {j : Nat} (h : ∀ e ∈ t, e.1 ≠ j) : Tab.getD dflt t j = dflt j := by
  induction t with
  | nil => rfl
  | cons e t ih =>
    obtain ⟨hne, hrest⟩ := List.forall_mem_cons.1 h
    rw [Tab.getD, if_neg hne.symm, ih hrest]

/-- A cleared range reads as it does where nothing is listed. -/
theorem Tab.getD_clearRange {α : Type} (dflt : Nat → α) (t : Tab α) {lo hi j : Nat} (h : lo ≤ j ∧ j < hi) :
    Tab.getD dflt (t.clearRange lo hi) j = dflt j := by
  refine Tab.getD_of_forall_ne dflt fun e he => ?_
  have hout : e.1 < lo ∨ hi ≤ e.1 := by simpa using (List.mem_filter.1 he).2
  omega

/-- The VF's configuration, MSI-X entries and translations return to their reset values. -/
def Dev.vfReset (d : Dev) (n : Nat) : Dev :=
  { d with hp := { d.hp with
      cfg := d.hp.cfg.clearRange (4096 * n) (4096 * n + 4096)
      msix := (d.allot n).vecs.foldl (fun t v => Tab.set Msix.reset t v Msix.reset) d.hp.msix
      atc := d.hp.atc.filter (fun e => e.fn != n) } }

theorem flrVf_ends {s : State} {n : Fin 256} (h : n.val ≠ 0) :
    Ends (.flrVf n) s ((s.dev.vfReset n.val).pauseQueues fun _ x => x.allot == n.val) :=
  ends_of_onDev (exec_flrVf n s) (if_neg h)

theorem Dev.cfgWord_vfReset (d : Dev) (n : Nat) {off : Nat} (h : off < 4096) : (d.vfReset n).cfgWord n off = (cfgInit (4096 * n + off)).toNat :=
  congrArg BitVec.toNat (Tab.getD_clearRange cfgInit d.hp.cfg (by omega))

/-! ### The statement -/

/-- Settles O26: bring-up step by step, then each event that pauses all queues, and FLR of a VF. -/
theorem hostLink : Obligations.HostLink := by
  constructor
  · intro s m
    refine ⟨perstNDeassert_ends, fun hperst hmode hdown hbranch href => ?atL0, functionReady_ends, memoryActive_ends,
      fun hup => ⟨linkRecovery_up hup, Dev.linkUp_setLinkSt _ (by decide)⟩, linkRecovery_down, Dev.linkSettles_l0, Dev.linkSettles_free,
      Dev.linkSettles_down⟩
    case atL0 =>
      refine ⟨_, linkAtL0_ends hperst hmode hdown hbranch href, Dev.atL0_linkUp .., Dev.atL0_width .., Dev.atL0_speed .., fun hpcie => ⟨?_, ?_⟩,
        fun hflit => ?_, fun hflit => ?_, fun hcxl => ?_, Dev.atL0_pavs .., Dev.atL0_mem .., Dev.atL0_qs ..⟩
      · simp [Dev.atL0, Dev.trainedAt, hpModeOf, hpcie]
      · simp [Dev.atL0_cacheOn, Dev.negotiates, hpcie]
      · simp [Dev.atL0, Dev.trainedAt, hpModeOf, hflit]
      · simp [Dev.atL0, Dev.trainedAt, hpModeOf, hflit]
      · simp only [Dev.atL0_cacheOn, Dev.negotiates, hcxl, ne_eq, not_false_eq_true, true_and, Bool.decide_eq_true]
  · intro s i n d base
    refine ⟨?events, fun hn => ?vf⟩
    case events =>
      rintro (⟨rfl, hperst⟩ | ⟨rfl, hperst⟩ | rfl | rfl | rfl | ⟨rfl, hide⟩)
      · have hsame := d.sameButErrors_refl
        exact endsIn_of_wentDown (linkDown_ends hperst) (if_neg nofun) (Dev.linkLost_wentDown hsame 1)
          ⟨nofun, nofun, fun _ => Dev.linkLost_portReset hsame 1, nofun, fun _ => Dev.linkLost_linkUp hsame (.inl rfl)⟩
      · exact endsIn_of_wentDown (hotReset_ends hperst) (if_neg nofun) (Dev.linkLost_wentDown d.takeFree_same _)
          ⟨nofun, nofun, fun _ => Dev.linkLost_portReset d.takeFree_same _, nofun, fun _ => Dev.linkLost_linkUp d.takeFree_same d.hotState_cases⟩
      · exact endsIn_of_wentDown (perstNAssert_ends s) (if_neg nofun) d.perstAssert_wentDown
          ⟨fun _ => by rw [d.perstAssert_hp]; exact ⟨rfl, rfl, rfl⟩, nofun, fun _ => d.perstAssert_portReset, nofun, by simp⟩
      · exact endsIn_of_wentDown (flrPf_ends s) (if_neg nofun) d.resetHost_wentDown
          ⟨nofun, nofun, fun _ => d.resetHost_portReset, nofun, by simp⟩
      · exact endsIn_of_wentDown (pfD3hot_ends s) (if_pos rfl) d.enterD3_wentDown
          ⟨nofun, fun _ => ⟨fun key => d.enterD3_cfg, d.enterD3_power, by rw [d.enterD3_hp]⟩, fun h => absurd rfl h, nofun, by simp⟩
      · have hsame := d.aerReport_same true
        exact endsIn_of_wentDown (ideIntegrityFailure_ends hide) (if_neg nofun) (Dev.linkLost_wentDown hsame 1).markAer
          ⟨nofun, nofun, fun _ => Dev.linkLost_portReset hsame 1, fun _ => rfl, fun _ => Dev.linkLost_linkUp hsame (.inl rfl)⟩
    case vf =>
      refine ⟨_, flrVf_ends hn, fun q => ?_, rfl, rfl, rfl, rfl, fun off => Dev.cfgWord_vfReset d n.val⟩
      rw [Dev.queue_pauseQueues]
      simp only [beq_iff_eq]
      rfl

end Sys2Proof.Machine
end

section
/-! SUPPORT and PROOF. Doorbells (O27): what an error and an answered invalidation leave of the block, what cursors that are delivered do to
a queue, and what each doorbell command delivers; then the statement from them. -/

namespace Sys2Proof.Machine

/-! ### What the host port keeps beside its configuration space -/

/-- Two blocks differ at most in the host port outside its configuration space, in the free values they have taken and in their outputs. -/
def Dev.sameButPort (d e : Dev) : Prop := e = { d with hp := { e.hp with cfg := d.hp.cfg }, freeIx := e.freeIx, outbox := e.outbox }

theorem Dev.sameButPort_trans {d e f : Dev} (h : d.sameButPort e) (g : e.sameButPort f) : d.sameButPort f := by
  unfold Dev.sameButPort at *
  rw [g, h]

theorem Dev.sameButHost.toPort {d e : Dev} (h : d.sameButHost e) : d.sameButPort e := by
  rw [h]
  rfl

theorem Dev.sameButErrors.toPort {d e : Dev} (h : d.sameButErrors e) : d.sameButPort e := by
  rw [h]
  rfl

theorem Dev.rasFirst_same (d : Dev) (e : RasErr) : d.sameButPort (d.rasFirst e) := by
  unfold Dev.rasFirst
  split <;> rfl

/-- Recording an error on CXL.cachemem changes the error registers and the outputs alone. -/
theorem Dev.rasRecord_same (d : Dev) (e : Option RasErr) : d.sameButPort (d.rasRecord e) := by
  cases e with
  | none => rfl
  | some e =>
    by_cases hbit : (rasBits e).testBit e.bit.toNat = true
    · rw [d.rasRecord_eq hbit]
      split
      · exact d.rasFirst_same e
      · exact Dev.sameButPort_trans (d.rasFirst_same e) (Dev.aerReport_same ..).toPort
    · have hundefined : d.rasRecord (some e) = d := if_pos (show (!(rasBits e).testBit e.bit.toNat) = true by simp [hbit])
      rw [hundefined]
      rfl

theorem Dev.cacheErr_same (d : Dev) (x : Qh) : d.sameButPort (d.cacheErr x) := by
  unfold Dev.cacheErr
  split
  · exact d.rasRecord_same x.ras
  · rfl

/-- Answering the ATS invalidations that no longer wait changes their list and the outputs alone. -/
theorem Dev.serveInval_same (d : Dev) : d.sameButPort d.serveInval := by
  have hanswer : ∀ (l : List AtsInval) (e : Dev), e.sameButHost (l.foldl (fun e i => e.emit (.invalidateDone i.fn i.tag)) e) :=
    Dev.sameButHost_foldl _ fun e i => e.sameButHost_emit (.invalidateDone i.fn i.tag)
  refine Dev.sameButPort_trans ?_ (hanswer _ _).toPort
  rfl

section
variable {d e : Dev} (h : d.sameButPort e)
include h

theorem Dev.sameButPort.queue (q : Nat) : e.queue q = d.queue q := by rw [h]; rfl
theorem Dev.sameButPort.regs : e.regs = d.regs := by rw [h]
theorem Dev.sameButPort.mem : e.mem = d.mem := by rw [h]
theorem Dev.sameButPort.pavs : e.pavs = d.pavs := by rw [h]
theorem Dev.sameButPort.ringN (q : Nat) : e.ringN q = d.ringN q := by rw [h]; rfl
theorem Dev.sameButPort.hostErr (q : Nat) (r : HostEnd) : e.hostErr q r = d.hostErr q r := by rw [h]; rfl

end

/-! ### A queue that enters ERROR (R314, R336, R376) -/

/-- The queue is in ERROR with a reason. -/
def Dev.erred (d : Dev) (q reason : Nat) : Prop := (d.queue q).st = .error ∧ (d.queue q).reason = reason

theorem Dev.queueError_erred (d : Dev) (q n : Nat) : (d.queueError q n).erred q n := by
  simp [Dev.erred, Dev.queueError, Dev.updQueue, Dev.queue_setQueue]

theorem Dev.sameButPort.erred {d e : Dev} {q n : Nat} (h : d.sameButPort e) (herr : d.erred q n) : e.erred q n := by
  rwa [Dev.erred, h.queue]

section
variable {d : Dev} {q : Nat}

theorem Dev.hostErr_of_atsLost (r : HostEnd) (h : d.atsLost q = true) : d.hostErr q r = some 7 := if_pos h
theorem Dev.hostErr_ok (h : d.atsLost q = false) : d.hostErr q .ok = none := if_neg (by simp [h])
theorem Dev.hostErr_noPermission (h : d.atsLost q = false) : d.hostErr q .noPermission = some 7 := if_neg (by simp [h])
theorem Dev.hostErr_fault (h : d.atsLost q = false) : d.hostErr q .fault = some 8 := if_neg (by simp [h])

/-- A host access that errs puts its queue in ERROR with that reason. -/
theorem Dev.hostThen_error {r : HostEnd} {f : Dev → Dev} {n : Nat} (h : d.hostErr q r = some n) (hst : (d.queue q).st ≠ .error) :
    d.hostThen q r f = d.queueError q n := by
  simp only [Dev.hostThen, h, if_neg hst]

theorem Dev.hostThen_goes_on {r : HostEnd} {f : Dev → Dev} (h : d.hostErr q r = none) : d.hostThen q r f = f d := by
  simp only [Dev.hostThen, h]

end

/-! ### Cursors are delivered (R332, R339) -/

/-- Does a queue take doorbells: it runs or is held? -/
def Queue.rings (x : Queue) : Prop := x.st = .running ∨ x.st = .held

theorem Queue.rings_of_usesLine {x : Queue} (h : x.usesLine = true) : x.rings := by
  simp only [Queue.usesLine, Bool.and_eq_true, Bool.or_eq_true, beq_iff_eq] at h
  exact h.2

theorem Queue.rings.st_ne_error {x : Queue} (h : x.rings) : x.st ≠ .error := by
  obtain h | h := h <;> simp [h]

section
variable {d : Dev} {q p c : Nat} (hst : (d.queue q).rings)
include hst

theorem Dev.takeDoorbell_eq : d.takeDoorbell q p c =
    if p < (d.queue q).accept ∨ c + d.ringN q < p then d.queueError q 5
    else if (d.queue q).c < c ∨ c < (d.queue q).cqHead then d.queueError q 6
    else d.setQueue q { d.queue q with producer := p, cqHead := c } := by
  obtain hst | hst := hst <;> simp only [Dev.takeDoorbell, hst]

theorem Dev.takeDoorbell_badProducer (h : p < (d.queue q).accept ∨ c + d.ringN q < p) : d.takeDoorbell q p c = d.queueError q 5 := by
  rw [Dev.takeDoorbell_eq hst, if_pos h]

theorem Dev.takeDoorbell_badCqHead (hlow : (d.queue q).accept ≤ p) (hhigh : p ≤ c + d.ringN q) (h : (d.queue q).c < c ∨ c < (d.queue q).cqHead) :
    d.takeDoorbell q p c = d.queueError q 6 := by
  rw [Dev.takeDoorbell_eq hst, if_neg (by omega), if_pos h]

theorem Dev.takeDoorbell_taken (hlow : (d.queue q).accept ≤ p) (hhigh : p ≤ c + d.ringN q) (hc : c ≤ (d.queue q).c) (hhead : (d.queue q).cqHead ≤ c) :
    d.takeDoorbell q p c = d.setQueue q { d.queue q with producer := p, cqHead := c } := by
  rw [Dev.takeDoorbell_eq hst, if_neg (by omega), if_neg (by omega)]

/-- A queue that is not in ERROR afterwards has taken cursors that R332 allows. -/
theorem Dev.takeDoorbell_of_ne_error (hne : ((d.takeDoorbell q p c).queue q).st ≠ .error) :
    (d.queue q).accept ≤ p ∧ p ≤ c + d.ringN q ∧ c ≤ (d.queue q).c ∧ (d.queue q).cqHead ≤ c ∧
      (d.takeDoorbell q p c).queue q = { d.queue q with producer := p, cqHead := c } := by
  by_cases hproducer : p < (d.queue q).accept ∨ c + d.ringN q < p
  · rw [Dev.takeDoorbell_badProducer hst hproducer] at hne
    exact absurd (d.queueError_erred q 5).1 hne
  by_cases hhead : (d.queue q).c < c ∨ c < (d.queue q).cqHead
  · rw [Dev.takeDoorbell_badCqHead hst (by omega) (by omega) hhead] at hne
    exact absurd (d.queueError_erred q 6).1 hne
  · refine ⟨by omega, by omega, by omega, by omega, ?_⟩
    rw [Dev.takeDoorbell_taken hst (by omega) (by omega) (by omega) (by omega), Dev.queue_setQueue, if_pos rfl]

end

/-! ### Commands that deliver cursors -/

/-- The command delivers the cursors `p` and `c` to queue `q` of the block `e`, and changes no more than the host port besides. -/
def Delivers (i : Instr) (s : State) (e : Dev) (q p c : Nat) : Prop := EndsIn i s fun r => (e.takeDoorbell q p c).sameButPort r

section
variable {i : Instr} {s : State} {e : Dev} {q p c : Nat} {x : Queue} {n : Nat} (h : Delivers i s e q p c) (hx : e.queue q = x) (hn : e.ringN q = n)
  (hst : x.rings)
include h hx hn hst

theorem Delivers.taken (hlow : x.accept ≤ p) (hhigh : p ≤ c + n) (hc : c ≤ x.c) (hhead : x.cqHead ≤ c) :
    EndsIn i s fun r => (e.setQueue q { x with producer := p, cqHead := c }).sameButPort r := by
  subst hx hn
  rwa [Delivers, Dev.takeDoorbell_taken hst hlow hhigh hc hhead] at h

/-- Cursors out of range put the queue in ERROR, PRODUCER first (log 23). -/
theorem Delivers.breaks : (p < x.accept ∨ c + n < p → EndsIn i s fun r => r.erred q 5) ∧
    (x.accept ≤ p → p ≤ c + n → x.c < c ∨ c < x.cqHead → EndsIn i s fun r => r.erred q 6) := by
  subst hx hn
  refine ⟨fun hproducer => h.mono fun r hr => ?_, fun hlow hhigh hhead => h.mono fun r hr => ?_⟩
  · rw [Dev.takeDoorbell_badProducer hst hproducer] at hr
    exact hr.erred (e.queueError_erred q 5)
  · rw [Dev.takeDoorbell_badCqHead hst hlow hhigh hhead] at hr
    exact hr.erred (e.queueError_erred q 6)

end

/-- Of the queues, a taken doorbell changes the one it is of. -/
theorem Dev.sameButPort.queues_setQueue {d e r : Dev} {q : Nat} {x : Queue} (hr : (e.setQueue q x).sameButPort r)
    (hothers : ∀ k, k ≠ q → e.queue k = d.queue k) : r.queue q = x ∧ ∀ k, k ≠ q → r.queue k = d.queue k := by
  refine ⟨?_, fun k hk => ?_⟩
  · rw [hr.queue, Dev.queue_setQueue, if_pos rfl]
  · rw [hr.queue, Dev.queue_setQueue, if_neg hk, hothers k hk]

/-! ### DOORBELL_SNOOP (R307, R336) -/

theorem exec_doorbellSnoop (x : Qs) (s : State) : exec (.doorbellSnoop x) s = execDoorbellSnoop x s := rfl

/-- The line of a queue is disarmed and its snoop answered. -/
def Dev.snooped (d : Dev) (q : Nat) (ras : Option RasErr) : Dev :=
  ((d.rasRecord ras).setQueue q { d.queue q with lineArmed := false }).emit (.snoopDone q)

theorem Dev.snooped_queue (d : Dev) (q : Nat) (ras : Option RasErr) : (d.snooped q ras).queue q = { d.queue q with lineArmed := false } := by
  rw [Dev.snooped, Dev.emit_queue_, Dev.queue_setQueue, if_pos rfl]

theorem Dev.snooped_atsLost (d : Dev) (q : Nat) (ras : Option RasErr) : (d.snooped q ras).atsLost q = d.atsLost q := by
  have hcfg : (d.snooped q ras).hp.cfg = d.hp.cfg := congrArg (·.hp.cfg) (d.rasRecord_same ras)
  simp only [Dev.atsLost, Dev.atsOn, Dev.cfgWord, d.snooped_queue, hcfg]

section
variable {s : State} {q : Qx} {ras : Option RasErr} (harmed : (s.dev.queue q.val).lineArmed = true)
include harmed

theorem doorbellSnoop_ends : Ends (.doorbellSnoop ⟨q, ras⟩) s
    (if (s.dev.queue q.val).usesLine then (s.dev.snooped q.val ras).hostThen q.val .ok (·.readLine q.val) else s.dev.snooped q.val ras) :=
  ends_of_onDev (exec_doorbellSnoop ⟨q, ras⟩ s) (if_neg (by simp [Qs.val, harmed]))

theorem doorbellSnoop_lets_go (huses : (s.dev.queue q.val).usesLine = false) : Ends (.doorbellSnoop ⟨q, ras⟩) s (s.dev.snooped q.val ras) := by
  simpa [huses] using doorbellSnoop_ends (ras := ras) harmed

theorem doorbellSnoop_asks_again (huses : (s.dev.queue q.val).usesLine = true) (hats : s.dev.atsLost q.val = false) :
    Ends (.doorbellSnoop ⟨q, ras⟩) s ((s.dev.snooped q.val ras).readLine q.val) := by
  have hend := doorbellSnoop_ends (ras := ras) harmed
  rwa [if_pos huses, Dev.hostThen_ok ((Dev.snooped_atsLost ..).trans hats)] at hend

theorem doorbellSnoop_errs (huses : (s.dev.queue q.val).usesLine = true) (hats : s.dev.atsLost q.val = true) :
    EndsIn (.doorbellSnoop ⟨q, ras⟩) s fun r => r.erred q.val 7 := by
  have hlost := Dev.hostErr_of_atsLost .ok ((Dev.snooped_atsLost s.dev q.val ras).trans hats)
  have hst : ((s.dev.snooped q.val ras).queue q.val).st ≠ .error := by
    rw [Dev.snooped_queue]
    exact (Queue.rings_of_usesLine huses).st_ne_error
  have hend := doorbellSnoop_ends (ras := ras) harmed
  rw [if_pos huses, Dev.hostThen_error hlost hst] at hend
  exact ⟨_, hend, Dev.queueError_erred ..⟩

end

/-! ### DOORBELL_LINE_DATA (R307, R314, R339) -/

theorem exec_doorbellLineData (x : Qh) (p c : Nat) (s : State) : exec (.doorbellLineData x p c) s = execDoorbellLineData x p c s := rfl

/-- The block in which the line of a queue is armed, the error met with its read recorded. -/
def Dev.lineArmed (d : Dev) (x : Qh) : Dev := (d.cacheErr x).setQueue x.val { d.queue x.val with lineArmed := true }

theorem Dev.lineArmed_queue (d : Dev) (x : Qh) (k : Nat) :
    (d.lineArmed x).queue k = if k = x.val then { d.queue x.val with lineArmed := true } else d.queue k := by
  rw [Dev.lineArmed, Dev.queue_setQueue, (d.cacheErr_same x).queue]

theorem Dev.lineArmed_ringN (d : Dev) (x : Qh) (q : Nat) : (d.lineArmed x).ringN q = d.ringN q := (d.cacheErr_same x).ringN q

section
variable {s : State} {x : Qh} {p c : Nat} (huses : (s.dev.queue x.val).usesLine = true) (hasked : (s.dev.queue x.val).lineArmed = false)
include huses hasked

theorem doorbellLineData_ends : Ends (.doorbellLineData x p c) s ((s.dev.cacheErr x).hostThen x.val x.res fun d =>
    ((d.setQueue x.val { s.dev.queue x.val with lineArmed := true }).takeDoorbell x.val p c).serveInval) :=
  ends_of_onDev (exec_doorbellLineData x p c s) (if_pos (by simp [huses, hasked]))

theorem doorbellLineData_delivers (h : s.dev.hostErr x.val x.res = none) :
    Delivers (.doorbellLineData x p c) s (s.dev.lineArmed x) x.val p c := by
  have hend := doorbellLineData_ends (p := p) (c := c) huses hasked
  rw [Dev.hostThen_goes_on (((s.dev.cacheErr_same x).hostErr ..).trans h)] at hend
  exact ⟨_, hend, Dev.serveInval_same _⟩

theorem doorbellLineData_errs {n : Nat} (h : s.dev.hostErr x.val x.res = some n) :
    EndsIn (.doorbellLineData x p c) s fun r => r.erred x.val n := by
  have hst : ((s.dev.cacheErr x).queue x.val).st ≠ .error := by
    rw [(s.dev.cacheErr_same x).queue]
    exact (Queue.rings_of_usesLine huses).st_ne_error
  have hend := doorbellLineData_ends (p := p) (c := c) huses hasked
  rw [Dev.hostThen_error (((s.dev.cacheErr_same x).hostErr ..).trans h) hst] at hend
  exact ⟨_, hend, Dev.queueError_erred ..⟩

end

/-! ### The MMIO page (R280, R338) -/

theorem exec_dbpProducerLo (q : Qx) (v : Word32) (s : State) : exec (.dbpProducerLo q v) s = execDbpProducerLo q v s := rfl
theorem exec_dbpCqHeadLo (q : Qx) (v : Word32) (s : State) : exec (.dbpCqHeadLo q v) s = execDbpCqHeadLo q v s := rfl

/-- A low dword is stored and the cursors latched on the page become those of `y`. -/
def Dev.latch (d : Dev) (off : Nat) (v : Word32) (q : Nat) (y : Queue) : Dev := (d.setReg off v).setQueue q y

theorem Dev.latch_queue (d : Dev) (off : Nat) (v : Word32) (q : Nat) (y : Queue) (k : Nat) :
    (d.latch off v q y).queue k = if k = q then y else d.queue k := Dev.queue_setQueue ..

theorem Dev.latch_ringN (d : Dev) {off : Nat} (v : Word32) (q : Nat) (y : Queue) (h : Reg.QCT_CFG q ≠ off) :
    (d.latch off v q y).ringN q = d.ringN q := by
  have hcfg : (d.latch off v q y).reg (Reg.QCT_CFG q) = d.reg (Reg.QCT_CFG q) := d.reg_setReg_ne v h
  rw [Dev.ringN, hcfg]
  rfl

theorem Reg.qctCfg_ne_dbpProducerLo (q : Nat) : Reg.QCT_CFG q ≠ Reg.DBP_PRODUCER_LO q := by
  simp only [Reg.QCT_CFG, Reg.DBP_PRODUCER_LO]
  omega
theorem Reg.qctCfg_ne_dbpCqHeadLo (q : Nat) : Reg.QCT_CFG q ≠ Reg.DBP_CQ_HEAD_LO q := by
  simp only [Reg.QCT_CFG, Reg.DBP_CQ_HEAD_LO]
  omega

section
variable {i : Instr} {s : State} {off q p c : Nat} {v : Word32} {y : Queue} (h : Delivers i s (s.dev.latch off v q y) q p c)
  (hoff : Reg.QCT_CFG q ≠ off) (hst : y.rings)
include h hoff hst

/-- Cursors of a page that R332 allows are taken, and the other queues stay. -/
theorem Delivers.page_taken (hlow : y.accept ≤ p) (hhigh : p ≤ c + s.dev.ringN q) (hc : c ≤ y.c) (hhead : y.cqHead ≤ c) :
    EndsIn i s fun r => r.queue q = { y with producer := p, cqHead := c } ∧ ∀ k, k ≠ q → r.queue k = s.dev.queue k := by
  have hself : (s.dev.latch off v q y).queue q = y := (Dev.latch_queue ..).trans (if_pos rfl)
  exact (h.taken hself (s.dev.latch_ringN v q y hoff) hst hlow hhigh hc hhead).mono fun r hr =>
    hr.queues_setQueue fun k hk => (Dev.latch_queue ..).trans (if_neg hk)

theorem Delivers.page_breaks : (p < y.accept ∨ c + s.dev.ringN q < p → EndsIn i s fun r => r.erred q 5) ∧
    (y.accept ≤ p → p ≤ c + s.dev.ringN q → y.c < c ∨ c < y.cqHead → EndsIn i s fun r => r.erred q 6) :=
  h.breaks ((Dev.latch_queue ..).trans (if_pos rfl)) (s.dev.latch_ringN v q y hoff) hst

end

section
variable {s : State} {q : Qx} {v : Word32}

theorem dbpProducerLo_dropped (h : s.dev.hp.ready = false) : Ends (.dbpProducerLo q v) s s.dev :=
  ends_of_onDev (exec_dbpProducerLo q v s) (if_pos (by simp [h]))

theorem dbpCqHeadLo_dropped (h : s.dev.hp.ready = false) : Ends (.dbpCqHeadLo q v) s s.dev :=
  ends_of_onDev (exec_dbpCqHeadLo q v s) (if_pos (by simp [h]))

variable (hready : s.dev.hp.ready = true) (hpage : (s.dev.queue q.val).useLine = false)
include hready hpage

/-- PRODUCER's high half joins, and CQ_HEAD is the one latched. -/
theorem dbpProducerLo_delivers : Delivers (.dbpProducerLo q v) s
    (s.dev.latch (Reg.DBP_PRODUCER_LO q.val) v q.val { s.dev.queue q.val with dbProducer := s.dev.reg (Reg.DBP_PRODUCER_HI q.val) ++ v })
    q.val (s.dev.reg (Reg.DBP_PRODUCER_HI q.val) ++ v).toNat (s.dev.queue q.val).dbCqHead.toNat := by
  have hhigh : (s.dev.setReg (Reg.DBP_PRODUCER_LO q.val) v).reg (Reg.DBP_PRODUCER_HI q.val) = s.dev.reg (Reg.DBP_PRODUCER_HI q.val) :=
    s.dev.reg_setReg_ne v (by simp [Reg.DBP_PRODUCER_LO, Reg.DBP_PRODUCER_HI])
  refine ⟨_, ends_of_onDev (exec_dbpProducerLo q v s) (if_neg (by simp [hready, hpage])), ?_⟩
  simp only [hhigh, Dev.mmioDoorbell, Dev.updQueue, Dev.setReg_queue_, Dev.queue_setQueue, if_true]
  rfl

/-- CQ_HEAD's high half joins, and PRODUCER is the one latched. -/
theorem dbpCqHeadLo_delivers : Delivers (.dbpCqHeadLo q v) s
    (s.dev.latch (Reg.DBP_CQ_HEAD_LO q.val) v q.val { s.dev.queue q.val with dbCqHead := s.dev.reg (Reg.DBP_CQ_HEAD_HI q.val) ++ v })
    q.val (s.dev.queue q.val).dbProducer.toNat (s.dev.reg (Reg.DBP_CQ_HEAD_HI q.val) ++ v).toNat := by
  have hhigh : (s.dev.setReg (Reg.DBP_CQ_HEAD_LO q.val) v).reg (Reg.DBP_CQ_HEAD_HI q.val) = s.dev.reg (Reg.DBP_CQ_HEAD_HI q.val) :=
    s.dev.reg_setReg_ne v (by simp [Reg.DBP_CQ_HEAD_LO, Reg.DBP_CQ_HEAD_HI])
  refine ⟨_, ends_of_onDev (exec_dbpCqHeadLo q v s) (if_neg (by simp [hready, hpage])), ?_⟩
  simp only [hhigh, Dev.mmioDoorbell, Dev.updQueue, Dev.setReg_queue_, Dev.queue_setQueue, if_true]
  rfl

end

/-! ### The statement -/

/-- Settles O27: a snoop, line data by how its read ends, a write of either low dword of the page, and the cursors of a queue that takes them. -/
theorem doorbells : Obligations.Doorbells := by
  constructor
  · intro s q pr ch v ras d x good errs breaks
    refine ⟨fun harmed => ?snoop, fun huses hasked => ?line, fun hready => ⟨dbpProducerLo_dropped hready, dbpCqHeadLo_dropped hready⟩,
      fun hready hpage hst => ?page⟩
    case snoop => exact ⟨doorbellSnoop_lets_go harmed, doorbellSnoop_asks_again harmed, doorbellSnoop_errs harmed⟩
    case line =>
      refine ⟨fun hats => ?_, fun hats e => doorbellLineData_errs huses hasked (Dev.hostErr_of_atsLost e hats)⟩
      have hdelivers := doorbellLineData_delivers (x := ⟨q, .ok, ras⟩) (p := pr) (c := ch) huses hasked (Dev.hostErr_ok hats)
      have hqueue := d.lineArmed_queue ⟨q, .ok, ras⟩
      have hring := d.lineArmed_ringN ⟨q, .ok, ras⟩ q.val
      have hrings := Queue.rings_of_usesLine huses
      have hbreaks := hdelivers.breaks ((hqueue _).trans (if_pos rfl)) hring hrings
      refine ⟨fun ⟨hlow, hhigh, hc, hhead⟩ => ?taken, hbreaks,
        doorbellLineData_errs huses hasked (Dev.hostErr_noPermission hats), doorbellLineData_errs huses hasked (Dev.hostErr_fault hats)⟩
      case taken =>
        refine (hdelivers.taken ((hqueue _).trans (if_pos rfl)) hring hrings hlow hhigh hc hhead).mono fun r hr => ?_
        obtain ⟨hself, hothers⟩ := hr.queues_setQueue (d := d) fun k hk => (hqueue k).trans (if_neg hk)
        have herrors := d.cacheErr_same ⟨q, .ok, ras⟩
        exact ⟨hself, hothers, hr.regs.trans herrors.regs, hr.mem.trans herrors.mem, hr.pavs.trans herrors.pavs⟩
    case page =>
      have hproducer := dbpProducerLo_delivers (v := v) hready hpage
      have hhead := dbpCqHeadLo_delivers (v := v) hready hpage
      have hplaceP := Reg.qctCfg_ne_dbpProducerLo q.val
      have hplaceC := Reg.qctCfg_ne_dbpCqHeadLo q.val
      exact ⟨hproducer.page_taken hplaceP hst, hproducer.page_breaks hplaceP hst, hhead.page_breaks hplaceC hst, hhead.page_taken hplaceC hst⟩
  · intro d q pr ch x hhead hc hst y hne
    obtain ⟨hlow, hhigh, hle, hrises, htaken⟩ := Dev.takeDoorbell_of_ne_error hst hne
    have hy : y = { x with producer := pr, cqHead := ch } := htaken
    rw [hy]
    exact ⟨hle, hc, hlow, hhigh, hrises, rfl, rfl⟩

end Sys2Proof.Machine
end

section
/-! SUPPORT and PROOF. Register accesses (O57): how a 32-bit read over BAR0 ends and that it hides CKP_VIN.HOLDUP (Table 14-12); then a module
in its hold-up, of which the statement's read does not hold. -/

namespace Sys2Proof.Machine

/-! ### A 32-bit read of a register over BAR0 -/

theorem exec_rcFieldRead (off size : Nat) (s : State) : exec (.rcFieldRead off size) s = execRcFieldRead off size s := rfl

/-- An offset that an access reaches names its register. -/
theorem Dev.reaches.place {d : Dev} {off : Nat} (h : d.reaches off) : d.place off = .reg off := by
  obtain ⟨-, hlodge, -, hbar, -⟩ := h
  simp [Dev.place, hlodge, hbar]

theorem Dev.reaches.noBar {d : Dev} {off : Nat} (h : d.reaches off) : d.noBar off = false := by
  obtain ⟨hready, hlodge, -⟩ := h
  simp [Dev.noBar, hready, hlodge]

/-- A read that reaches a register puts out what `takeReg` returns of it. -/
theorem rcFieldRead_ends_of_reaches {s : State} {off : Nat} (h : s.dev.reaches off) :
    Ends (.rcFieldRead off 4) s ((s.dev.takeReg off).1.emit (.regData off 4 (BitVec.ofNat 64 (s.dev.takeReg off).2.toNat))) := by
  obtain ⟨-, -, haligned, -⟩ := id h
  have htake : s.dev.take off = s.dev.takeReg off := by rw [Dev.take, h.place]
  refine ends_of_onDev (exec_rcFieldRead off 4 s) ?_
  simp [h.noBar, accessOk, haligned, htake]

/-- Taking a register puts nothing out: it clears RC fields and latches high halves. -/
theorem Dev.takeReg_outbox (d : Dev) (off : Nat) : (d.takeReg off).1.outbox = d.outbox := by
  unfold Dev.takeReg
  cases regRowAt off with
  | none => dsimp only; split_ifs <;> rfl
  | some x => dsimp only; split_ifs <;> rfl

/-! ### CKP_VIN (Table 14-12) -/

/-- CKP_VIN is stored as it reads: it mirrors no other state and has no WO field. -/
theorem Dev.readReg_ckpVin {d : Dev} (h : d.hidden Reg.CKP_VIN = false) : d.readReg Reg.CKP_VIN = d.reg Reg.CKP_VIN := by
  have hmirror : mirrors.find? (fun m => decide (m.base ≤ Reg.CKP_VIN) && dimsMatch m.dims (Reg.CKP_VIN - m.base)) = none := by rfl
  have hrow : (regRowAt Reg.CKP_VIN).map (·.wo) = some 0 := by decide +kernel
  obtain ⟨x, hx, hwo⟩ := Option.map_eq_some_iff.1 hrow
  simp only [Dev.readReg, h, hmirror, hx, hwo]
  exact BitVec.and_allOnes

/-- Outside the Gatehouse HOLDUP reads 0. -/
theorem Dev.takeReg_ckpVin {d : Dev} (h : d.hidden Reg.CKP_VIN = false) : F.CKP_VIN_HOLDUP.get (d.takeReg Reg.CKP_VIN).2 = 0 := by
  have htaken : (d.takeReg Reg.CKP_VIN).2 = F.CKP_VIN_HOLDUP.put (d.readReg Reg.CKP_VIN) 0 := by simp [Dev.takeReg, h]
  rw [htaken, Fld.get_put _ (by decide)]
  rfl

/-- A read over BAR0 that puts CKP_VIN out as it is stored met a module outside its hold-up. -/
theorem holdup_eq_zero_of_rcFieldRead_shows {s : State} (h : s.dev.reaches Reg.CKP_VIN)
    (hshows : EndsIn (.rcFieldRead Reg.CKP_VIN 4) s (fun r =>
      r.outbox = s.dev.outbox ++ [.regData Reg.CKP_VIN 4 ((s.dev.readReg Reg.CKP_VIN).setWidth 64)])) :
    s.dev.fld Reg.CKP_VIN F.CKP_VIN_HOLDUP = 0 := by
  obtain ⟨r, hends, hout⟩ := hshows
  have hr := hends.unique (rcFieldRead_ends_of_reaches h)
  rw [hr, Dev.emit, Dev.takeReg_outbox, List.append_cancel_left_eq, List.singleton_inj, Output.regData.injEq] at hout
  obtain ⟨-, -, hdata⟩ := hout
  have hword : (s.dev.takeReg Reg.CKP_VIN).2 = s.dev.readReg Reg.CKP_VIN := by bv_omega
  obtain ⟨-, -, -, -, hhidden⟩ := h
  rw [Dev.fld, ← Dev.readReg_ckpVin hhidden, ← hword, Dev.takeReg_ckpVin hhidden]

/-! ### The counterexample -/

/-- A module whose function is ready and whose VIN has fallen to 0: BRANCH_OFF has begun the hold-up and left the function as it was. -/
def Dev.readyInHoldup : Dev := Dev.row { Dev.reset with hp := { HostPort.reset with ready := true } } (execBranchOff 0)

theorem Dev.readyInHoldup_reaches_ckpVin : Dev.readyInHoldup.reaches Reg.CKP_VIN := by
  unfold Dev.reaches
  decide +kernel

theorem Dev.readyInHoldup_holdup : Dev.readyInHoldup.fld Reg.CKP_VIN F.CKP_VIN_HOLDUP = 1 := by decide +kernel

/-- Refutes O57: a read over BAR0 does not return CKP_VIN as it stands. In a hold-up HOLDUP is 1 and the read shows it as 0, since it is
readable by the Gatehouse alone (Table 14-12). -/
theorem not_registerAccess : ¬ Obligations.RegisterAccess := by
  unfold Obligations.RegisterAccess
  intro h
  have hreaches := Dev.readyInHoldup_reaches_ckpVin
  obtain ⟨x, hx⟩ : ∃ x, regRowAt Reg.CKP_VIN = some x := Option.isSome_iff_exists.1 (by decide +kernel)
  obtain ⟨-, -, -, -, -, hread, -⟩ := h ⟨[], Dev.readyInHoldup⟩ Reg.CKP_VIN 4 0 false
  have hzero : Dev.readyInHoldup.fld Reg.CKP_VIN F.CKP_VIN_HOLDUP = 0 :=
    holdup_eq_zero_of_rcFieldRead_shows hreaches ((hread hreaches (by decide) (by decide) x hx).mono fun _ hr => hr.1)
  exact Nat.one_ne_zero (Dev.readyInHoldup_holdup.symm.trans hzero)

end Sys2Proof.Machine
end
